-- ==== Sys2Proof/Word.lean ====
section
/-! DEFINITION. The word types of the ZH-6400 and their plainest arithmetic (spec/00_scope.md R5: all
multi-byte data is little-endian and bit 0 is the least significant), and the small name types that instructions carry. -/

namespace Sys2Proof

/-- One byte of memory. -/
abbrev Byte := BitVec 8
/-- A 16-bit word: a BF16 or FP16 code, a Loom slot word. -/
abbrev Half := BitVec 16
/-- A 32-bit word: a V or G register, an instruction word, an accumulator element. -/
abbrev Word := BitVec 32
/-- A 64-bit word: a virtual address, a register pair, a special register. -/
abbrev DWord := BitVec 64
/-- A set of lanes of a group: bit `l` stands for lane `l` (R215 lays TRAPLANES out so). -/
abbrev LaneSet := BitVec 64

/-- Lane `l` belongs to the set. -/
def LaneSet.has (m : LaneSet) (l : Nat) : Bool := m.getLsbD l

/-- The set of one lane. -/
def LaneSet.one (l : Nat) : LaneSet := BitVec.ofNat 64 (2 ^ l)

/-- The set of the lanes below a width. -/
def LaneSet.below (n : Nat) : LaneSet := BitVec.ofNat 64 (2 ^ n - 1)

/-- The set of the lanes in a list. -/
def LaneSet.of (ls : List Nat) : LaneSet := ls.foldl (fun m l => m ||| LaneSet.one l) 0#64

/-- The lanes of a set in ascending LANEID (R98). -/
def LaneSet.toList (m : LaneSet) : List Nat := (List.range 64).filter (fun l => m.getLsbD l)

/-- NONE, the value of a meeting register that names no meeting (R12). -/
def noMeeting : DWord := 0xFFFF_FFFF_FFFF_FFFF#64

/-- One ref tick in ns: the reference clock runs at 100 MHz (R3). -/
def refTick : Nat := 10

/-- The memory paths of R265. -/
inductive Path where
  | gen | con | tile | gath
deriving DecidableEq, Repr

/-- An access that the hardware makes on its own account (R245): of code, or of data on a path. -/
inductive OwnAccess where
  | code
  | data (path : Path)
deriving DecidableEq, Repr

/-- Who writes a register (R366, R377): the Smithy firmware, the host, or a launch with PRIV = 1. -/
inductive Agent where
  | smithy | host | launch
deriving DecidableEq, Repr

/-- The full/empty forms of R135. -/
inductive FeKind where
  | ldw | ldc | stf | stfs | feset | feget
deriving DecidableEq, Repr

/-- The operations of an atomic or a reduction (R138, R179). -/
inductive AtomOp where
  | add | min | max | and | or | xor | xch | cas
deriving DecidableEq, Repr

/-- A request that a Weft peer makes of this device's home slices (R264, R286). -/
inductive PeerOp where
  | load (pa size : Nat)
  | store (pa : Nat) (data : List Byte)
  | atomic (op : AtomOp) (ty : BitVec 3) (pa : Nat) (x new : DWord)
  | fe (kind : FeKind) (pa : Nat) (data : DWord)
deriving DecidableEq, Repr

/-- A packet or message that reaches the Ultra Ethernet engine from the fabric (R385, R387): a send or a tagged
send to be matched with a posted receive, a put or a get that names a remote key and offset of this device, or the data of a get this
device asked for. -/
inductive UePacket where
  | message (tag : Option DWord) (data : List Byte)
  | rmaPut (rkey : Word) (roff : DWord) (data : List Byte)
  | rmaGet (rkey : Word) (roff : DWord) (n : Nat)
  | getData (card : Nat) (data : List Byte)
deriving DecidableEq, Repr

/-- How an engine card ends, beyond its own checks (R387). -/
inductive UeOutcome where
  | done | transportFailure | remoteRefusal
deriving DecidableEq, Repr

/-- A cache that holds copies: a core's L1 and overflow store, a cluster's, and a die's for lines of other dies and of peers. -/
inductive Machine.Holder where
  | l1 (core : Nat)
  | cluster (cluster : Nat)
  | guest (die : Nat)
  | peer (die : Nat)
deriving DecidableEq, Repr

/-- Where a soft error falls (R389), with the number of 8-byte words after the first that it reaches: words of local HBM, of the local store
of a core, of its register files, accumulators and slots (by window offset), or of a cached copy. -/
inductive ErrorPlace where
  | hbm (pa more : Nat)
  | sram (core off more : Nat)
  | window (core off more : Nat)
  | cache (holder : Machine.Holder) (path : Path) (pa more : Nat)
deriving DecidableEq, Repr

end Sys2Proof
end

