-- ==== Sys2Proof/Config.lean ====
section
/-! DEFINITION. What the spec leaves open or fixes per part, as constants without a body: nothing in Lean can evaluate them or
prove a value of them. -/

namespace Sys2Proof.Config

/-- R64: whether the n-th short read of the run gives the value before the producer's write (true) or the value after it.
The argument is the model's own counter of free values (log 3). -/
opaque shortRead : Nat → Bool

/-- R78, R82: whether an infinite input converts to an infinity in the modes that leave an overflow at max finite: R82's table says that it does, and
R78's list that it does not (log 108). -/
opaque infinityStays : Bool

/-- R316: whether the n-th read that races with a Loom command's write or addition gives the new value. -/
opaque racingRead : Nat → Bool

/-- R304: the code that the n-th poisoned element loaded into a slot is written as. -/
opaque poisonedCode : Nat → BitVec 16

/-- R183, R255: the F/E bit that the n-th copied word carries from a source word that has none (host memory and the on-chip aperture). -/
opaque carriedBit : Nat → Bool

/-- R392: the part's serial number, 16 bytes. -/
opaque serialNumber : BitVec 128

/-- R391, R392: the fused rollback counter, which versions of 32 bits are held against (log 68). -/
opaque rollbackCounter : Word

/-- R392: byte `k` of the device's X.509 certificate, at offset 0x600 + k of die 0's page (k below 2,048). -/
opaque certificateByte : Nat → Byte

/-- R392: r of the ECDSA P-521 signature over a SHA-512 value, 66 bytes, the first byte the lowest. -/
opaque signatureR : BitVec 512 → BitVec 528

/-- R392: s of the same signature. -/
opaque signatureS : BitVec 512 → BitVec 528

/-- R392: SHA-512 of the stage A image, which lies in the package flash and not in the model's memory. -/
opaque stageAImageHash : BitVec 512

/-- R252: bytes that the wait record of a blocked issue set takes in the overflow store. -/
opaque waitRecordBytes : Nat

/-- R385, R386: PA to which a remote key and offset lead, none where the engine refuses them; the spec does not say how keys are given out. -/
opaque remoteWindow : BitVec 32 → DWord → Option Nat

/-- R389: which of the contexts with an enabled queue is sent the n-th record of a corrected error. -/
opaque errorContext : Nat → Nat

/-- R384, R387, R389: what the Ultra Ethernet engine sends for a byte that it reads as poison. -/
opaque engineByte : Nat → Byte

/-- R381: the location code of the n-th corrected error. -/
opaque locationCode : Nat → DWord

/-- R220, R244: what TRAPWORD holds of an instruction word that could not be fetched. -/
opaque unfetchedWord : Nat → Word

/-- A byte that reads as poison, where the dispatcher or an engine reads it (R384, R389; log 126), by a counter and its address. -/
opaque poisonByte : Nat → Nat → Byte

/-- Which copy of a full cache a new one replaces (R2; log 145), by a counter. -/
opaque replaced : Nat → Nat

end Sys2Proof.Config
end

