-- ==== Sys2Proof/Machine/Numbers.lean ====
section
/-! DEFINITION. Number formats, exact values and rounding (spec/05 R73 to R84). A real value is held exactly, as a sign and a
quotient of naturals times a power of two, and is rounded once at the end. -/

namespace Sys2Proof.Machine

/-- The rounding modes by code (R78). -/
inductive Rnd where
  | rne | rtz | rdn | rup | sr
deriving DecidableEq, Repr

/-- The mode of a rounding code (R49); codes 5 to 7 are reserved and never reach a conversion. -/
def Rnd.ofCode (n : Nat) : Rnd :=
  match n with
  | 0 => .rne
  | 1 => .rtz
  | 2 => .rdn
  | 3 => .rup
  | _ => .sr

/-- A float format (R73): mantissa bits, bias, the code of max finite, the width of the code without its sign, and whether
it has a sign, infinities (the code after max finite), and NaN codes above them. -/
structure FloatFmt where
  mbits : Nat
  bias : Nat
  maxCode : Nat
  width : Nat
  signed : Bool
  inf : Bool
  nan : Option Nat
deriving DecidableEq, Repr

def fmtF32 : FloatFmt := { mbits := 23, bias := 127, maxCode := 0x7F7FFFFF, width := 31, signed := true, inf := true, nan := some 0x7FC00000 }
def fmtF16 : FloatFmt := { mbits := 10, bias := 15, maxCode := 0x7BFF, width := 15, signed := true, inf := true, nan := some 0x7E00 }
def fmtBF16 : FloatFmt := { mbits := 7, bias := 127, maxCode := 0x7F7F, width := 15, signed := true, inf := true, nan := some 0x7FC0 }
def fmtE4M3 : FloatFmt := { mbits := 3, bias := 7, maxCode := 0x7E, width := 7, signed := true, inf := false, nan := some 0x7F }
def fmtE5M2 : FloatFmt := { mbits := 2, bias := 15, maxCode := 0x7B, width := 7, signed := true, inf := true, nan := some 0x7E }
def fmtE3M2 : FloatFmt := { mbits := 2, bias := 3, maxCode := 0x1F, width := 5, signed := true, inf := false, nan := none }
def fmtE2M3 : FloatFmt := { mbits := 3, bias := 1, maxCode := 0x1F, width := 5, signed := true, inf := false, nan := none }
def fmtE2M1 : FloatFmt := { mbits := 1, bias := 1, maxCode := 0x7, width := 3, signed := true, inf := false, nan := none }
def fmtE3M5 : FloatFmt := { mbits := 5, bias := 7, maxCode := 0xFF, width := 8, signed := false, inf := false, nan := none }

/-- An exact value: NaN, an infinity, or (-1)^neg × n/d × 2^e with d > 0 (a zero keeps its sign). -/
inductive Val where
  | nan
  | inf (neg : Bool)
  | fin (neg : Bool) (n d : Nat) (e : Int)
deriving DecidableEq, Repr

/-- 2^k for an integer k that is not negative. -/
def pow2 (k : Int) : Nat := 2 ^ k.toNat

/-- The value of a float code (R74, R75). -/
def FloatFmt.decode (f : FloatFmt) (code : Nat) : Val :=
  let neg := f.signed && code.testBit f.width
  let c := code % 2 ^ f.width
  let e := c / 2 ^ f.mbits
  let m := c % 2 ^ f.mbits
  if c ≤ f.maxCode then
    if e = 0 then .fin neg m 1 (1 - (f.bias : Int) - f.mbits)
    else .fin neg (2 ^ f.mbits + m) 1 ((e : Int) - f.bias - f.mbits)
  else if f.inf && c == f.maxCode + 1 then .inf neg
  else .nan

/-- A magnitude placed among the codes of a format: the code of the greatest representable magnitude not above it, and the
fraction rem / den of the way to the next one (R78). -/
structure Located where
  code : Nat
  rem : Nat
  den : Nat
deriving DecidableEq, Repr

/-- floor(log2(n/d × 2^e)) for n, d > 0. -/
def floorLog2 (n d : Nat) (e : Int) : Int :=
  let l : Int := (Nat.log2 n : Int) - (Nat.log2 d : Int)
  let below := if 0 ≤ l then decide (n < d * pow2 l) else decide (n * pow2 (-l) < d)
  (if below then l - 1 else l) + e

/-- Place n/d × 2^e, n and d > 0, among the magnitudes of a format without an upper bound (R73, R74, R78). -/
def FloatFmt.locate (f : FloatFmt) (n d : Nat) (e : Int) : Located :=
  let emin : Int := 1 - (f.bias : Int)
  let ex := max (floorLog2 n d e) emin
  let sh : Int := e - (ex - f.mbits)
  let num := if 0 ≤ sh then n * pow2 sh else n
  let den := if 0 ≤ sh then d else d * pow2 (-sh)
  { code := (ex - emin).toNat * 2 ^ f.mbits + num / den, rem := num % den, den := den }

/-- SR's choice (R78): b when r < floor(2^32 × rem / den). -/
def srUp (r : Word) (rem den : Nat) : Bool := decide (r.toNat < 2 ^ 32 * rem / den)

/-- Whether a mode chooses the upper candidate, for a value strictly between the candidates (R78). -/
def roundUp (mode : Rnd) (neg : Bool) (r : Word) (l : Located) : Bool :=
  match mode with
  | .rne => decide (l.den < 2 * l.rem) || (l.den == 2 * l.rem && l.code % 2 == 1)
  | .rtz => false
  | .rdn => neg
  | .rup => !neg
  | .sr => srUp r l.rem l.den

/-- A magnitude beyond max finite and the step above it goes to the infinity of a format that has one, and not to max finite (R78). -/
def Rnd.toInf (mode : Rnd) (neg : Bool) : Bool :=
  match mode with
  | .rne | .sr => true
  | .rtz => false
  | .rdn => neg
  | .rup => !neg

/-- Round a magnitude to a format: the code without its sign (R78). A code above max finite is the infinity of a format that
has one; a format without one never reaches it here. -/
def FloatFmt.roundMag (f : FloatFmt) (mode : Rnd) (neg : Bool) (r : Word) (n d : Nat) (e : Int) : Nat :=
  if n = 0 then 0
  else
    let l := f.locate n d e
    if l.code ≤ f.maxCode then
      if l.rem = 0 then l.code else if roundUp mode neg r l then l.code + 1 else l.code
    else if mode.toInf neg then f.maxCode + 1 else f.maxCode

/-- Put the sign on a code. -/
def FloatFmt.sign (f : FloatFmt) (neg : Bool) (code : Nat) : Nat := if f.signed && neg then 2 ^ f.width + code else code

/-- Round an exact value to binary32, FP16 or BF16 with no underflow rule: rne32, rne_bf16 and rne16 of R99, and the
roundings of R84. -/
def FloatFmt.round (f : FloatFmt) (mode : Rnd) (v : Val) : Nat :=
  match v with
  | .nan => f.nan.getD 0
  | .inf neg => f.sign neg (f.maxCode + 1)
  | .fin neg n d e => f.sign neg (f.roundMag mode neg 0#32 n d e)

/-- rne32 (R99). -/
def rne32 (v : Val) : Word := BitVec.ofNat 32 (fmtF32.round .rne v)
/-- rne_bf16 (R99). -/
def rneBf16 (v : Val) : Half := BitVec.ofNat 16 (fmtBF16.round .rne v)
/-- The value of a binary32 code. -/
def valF32 (w : Word) : Val := fmtF32.decode w.toNat
/-- The value of a BF16 code. -/
def valBf16 (h : Half) : Val := fmtBF16.decode h.toNat

/-! ### Exact arithmetic -/

/-- The negative of a value. -/
def Val.neg : Val → Val
  | .nan => .nan
  | .inf s => .inf (!s)
  | .fin s n d e => .fin (!s) n d e

/-- A NaN, an infinity, zero, and the sign. -/
def Val.isNan : Val → Bool
  | .nan => true
  | _ => false
def Val.isInf : Val → Bool
  | .inf _ => true
  | _ => false
def Val.isZero : Val → Bool
  | .fin _ n _ _ => n == 0
  | _ => false
def Val.negative : Val → Bool
  | .nan => false
  | .inf s => s
  | .fin s _ _ _ => s

/-- The exact product; Inf × 0 is NaN (R85). -/
def Val.mul (a b : Val) : Val :=
  match a, b with
  | .nan, _ => .nan
  | _, .nan => .nan
  | .inf s, .inf t => .inf (s != t)
  | .inf s, .fin t n _ _ => if n = 0 then .nan else .inf (s != t)
  | .fin s n _ _, .inf t => if n = 0 then .nan else .inf (s != t)
  | .fin s n d e, .fin t n' d' e' => .fin (s != t) (n * n') (d * d') (e + e')

/-- A signed numerator over d × 2^-e brought to the exponent `e0`, which is at most `e`. -/
def alignNum (neg : Bool) (n : Nat) (e e0 : Int) : Int :=
  let m : Int := (n * pow2 (e - e0) : Nat)
  if neg then -m else m

/-- The exact sum under IEEE 754 (R85): +Inf and -Inf give NaN; an exact zero sum is +0, but (-0) + (-0) is -0. -/
def Val.add (a b : Val) : Val :=
  match a, b with
  | .nan, _ => .nan
  | _, .nan => .nan
  | .inf s, .inf t => if s = t then .inf s else .nan
  | .inf s, .fin _ _ _ _ => .inf s
  | .fin _ _ _ _, .inf t => .inf t
  | .fin s n d e, .fin t n' d' e' =>
    let e0 := min e e'
    let sum : Int := alignNum s n e e0 * d' + alignNum t n' e' e0 * d
    if sum = 0 then .fin (s && t) 0 1 0
    else .fin (decide (sum < 0)) sum.natAbs (d * d') e0

/-- The exact quotient of a value by a finite value that is not zero. -/
def Val.div (a b : Val) : Val :=
  match a, b with
  | .fin s n d e, .fin t n' d' e' => if n' = 0 then .nan else .fin (s != t) (n * d') (d * n') (e - e')
  | .inf s, .fin t _ _ _ => .inf (s != t)
  | _, _ => .nan

/-- The value times 2^k. -/
def Val.scale (a : Val) (k : Int) : Val :=
  match a with
  | .fin s n d e => .fin s n d (e + k)
  | v => v

/-- |a| < |b| for finite values. -/
def magLt (n d : Nat) (e : Int) (n' d' : Nat) (e' : Int) : Bool :=
  let e0 := min e e'
  decide (n * pow2 (e - e0) * d' < n' * pow2 (e' - e0) * d)

/-- The order of two values that are not NaN: a < b, with -0 equal to +0 (R107). -/
def Val.lt (a b : Val) : Bool :=
  match a, b with
  | .nan, _ => false
  | _, .nan => false
  | .inf s, .inf t => s && !t
  | .inf s, .fin _ _ _ _ => s
  | .fin _ _ _ _, .inf t => !t
  | .fin s n d e, .fin t n' d' e' =>
    if n = 0 ∧ n' = 0 then false
    else if s then
      if t then magLt n' d' e' n d e else true
    else if t then false
    else magLt n d e n' d' e'

/-- Equal values, neither of them NaN, with -0 equal to +0 (R107). -/
def Val.eq (a b : Val) : Bool := !a.isNan && !b.isNan && !Val.lt a b && !Val.lt b a

/-- |v| > the magnitude n/d × 2^e. -/
def Val.magGt (v : Val) (n d : Nat) (e : Int) : Bool :=
  match v with
  | .fin _ n' d' e' => magLt n d e n' d' e'
  | .inf _ => true
  | .nan => false

/-- The exact value of an integer. -/
def Val.ofInt (i : Int) : Val := .fin (decide (i < 0)) i.natAbs 1 0

/-! ### The generator H (R79) -/

/-- H(k1:k0, c, d). -/
def genH (key : DWord) (c : Word) (d : Nat) : Word :=
  let k0 := key.extractLsb' 0 32
  let k1 := key.extractLsb' 32 32
  let x0 := c ^^^ k0 ^^^ (BitVec.ofNat 32 d * 0x68E3_1DA4#32)
  let x1 := x0 ^^^ (x0 >>> 16)
  let x2 := x1 * 0xA3C5_9AC3#32
  let x3 := x2 ^^^ (x2 >>> 15)
  let x4 := x3 * 0x7B1D_4E2B#32
  let x5 := x4 ^^^ (x4 >>> 16)
  let x6 := x5 + k1
  x6 ^^^ (x6 >>> 13)

/-- F(v) of R201. -/
def genF (v : DWord) : DWord :=
  genH 0#64 (v.extractLsb' 32 32) 2 ++ genH 0#64 (v.extractLsb' 0 32) 1

/-! ### Conversions (R78 to R84) -/

/-- The element formats by the codes of R49. -/
inductive NarrowFmt where
  | f16 | bf16 | e4m3 | e5m2 | e3m2 | e2m3 | e2m1 | i8 | e8m0 | e3m5 | bsf4
deriving DecidableEq, Repr

/-- The format of a code of R49; codes 11 to 15 are reserved and never reach a conversion. -/
def NarrowFmt.ofCode (n : Nat) : NarrowFmt :=
  match n with
  | 0 => .f16
  | 1 => .bf16
  | 2 => .e4m3
  | 3 => .e5m2
  | 4 => .e3m2
  | 5 => .e2m3
  | 6 => .e2m1
  | 7 => .i8
  | 8 => .e8m0
  | 9 => .e3m5
  | _ => .bsf4

/-- The float layout of a narrow format; MXINT8 and E8M0, which have none, are handled apart. -/
def NarrowFmt.float : NarrowFmt → FloatFmt
  | .f16 => fmtF16
  | .bf16 => fmtBF16
  | .e4m3 => fmtE4M3
  | .e5m2 => fmtE5M2
  | .e3m2 => fmtE3M2
  | .e2m3 => fmtE2M3
  | .e2m1 => fmtE2M1
  | .e3m5 => fmtE3M5
  | .bsf4 => fmtE2M1
  | .i8 => fmtE4M3
  | .e8m0 => fmtE4M3

/-- The width of a narrow code in bits (R73, R77). -/
def NarrowFmt.bits : NarrowFmt → Nat
  | .f16 | .bf16 => 16
  | .e4m3 | .e5m2 | .i8 | .e8m0 | .e3m5 => 8
  | .e3m2 | .e2m3 => 6
  | .e2m1 | .bsf4 => 4

/-- Conversion of a magnitude to a float format that is not E8M0: the underflow rule (R81), out-of-range values of formats
without an infinity (R82), then R78. -/
def convMag (f : FloatFmt) (mode : Rnd) (neg : Bool) (r : Word) (n d : Nat) (e : Int) : Nat :=
  if n = 0 then 0
  else
    let l := f.locate n d e
    if l.code = 0 then (if srUp r l.rem l.den then 1 else 0)
    else if !f.inf && (decide (f.maxCode < l.code) || (l.code == f.maxCode && l.rem != 0)) then f.maxCode
    else f.roundMag mode neg r n d e

/-- Conversion to E8M0 (R83). -/
def convE8M0 (mode : Rnd) (r : Word) (v : Val) : Nat :=
  match v with
  | .nan | .inf _ => 0xFF
  | .fin _ n d e =>
    if n = 0 then 0
    else
      let k := floorLog2 n d e
      if k < -127 then 0
      else
        -- |v| = 2^k × num/den, with 1 ≤ num/den < 2
        let num := if 0 ≤ e - k then n * pow2 (e - k) else n
        let den := if 0 ≤ e - k then d else d * pow2 (k - e)
        let l : Located := { code := (k + 127).toNat, rem := num - den, den := den }
        let c := if l.rem = 0 then l.code else if roundUp mode false r l then l.code + 1 else l.code
        min c 0xFE

/-- The code, without its sign, of an infinity in a format (R78, R82): of a format that has one, the infinity, or, where the mode does not choose it, what
the part gives. DESIGN CHOICE, log 108. -/
def FloatFmt.ofInf (f : FloatFmt) (mode : Rnd) (neg : Bool) : Nat :=
  if f.inf && (mode.toInf neg || Config.infinityStays) then f.maxCode + 1 else f.maxCode

/-- conv(v, fmt, mode, r) to a plain narrow format (R78 to R83), where r is the draw of R80. -/
def conv (f : NarrowFmt) (mode : Rnd) (r : Word) (v : Val) : Nat :=
  match f with
  | .e8m0 => convE8M0 mode r v
  | .e3m5 =>
    match v with
    | .nan => 0x00
    | .inf _ => 0xFF
    | .fin _ n d e => convMag fmtE3M5 mode false r n d e
  | f =>
    let g := f.float
    match v with
    | .nan => g.nan.getD 0
    | .inf neg => g.sign neg (g.ofInf mode neg)
    | .fin neg n d e => g.sign neg (convMag g mode neg r n d e)

/-- Round a magnitude to a whole number (R78 with candidates one apart). -/
def roundWhole (mode : Rnd) (neg : Bool) (r : Word) (n d : Nat) (e : Int) : Nat :=
  let num := if 0 ≤ e then n * pow2 e else n
  let den := if 0 ≤ e then d else d * pow2 (-e)
  let l : Located := { code := num / den, rem := num % den, den := den }
  if l.rem = 0 then l.code else if roundUp mode neg r l then l.code + 1 else l.code

/-- An MXINT8 element code of a value not above 127 × 2^-6 (R81, R120): the whole number v / 2^-6. -/
def convMxInt8 (mode : Rnd) (r : Word) (v : Val) : Nat :=
  match v with
  | .fin neg n d e =>
    let num := if 0 ≤ e + 6 then n * pow2 (e + 6) else n
    let den := if 0 ≤ e + 6 then d else d * pow2 (-(e + 6))
    let c := if num < den then (if num ≠ 0 ∧ srUp r num den then 1 else 0) else roundWhole mode neg r n d (e + 6)
    if neg then (256 - c) % 256 else c
  | _ => 0

/-- Conversion to a two's complement or unsigned integer of `bits` bits (R84). -/
def convInt (mode : Rnd) (signed : Bool) (bits : Nat) (v : Val) : Int :=
  let lo : Int := if signed then -(2 ^ (bits - 1) : Nat) else 0
  let hi : Int := if signed then (2 ^ (bits - 1) : Nat) - 1 else (2 ^ bits : Nat) - 1
  match v with
  | .nan => 0
  | .inf neg => if neg then lo else hi
  | .fin neg n d e =>
    -- a magnitude of 2^64 or more lies beyond every type
    if n ≠ 0 ∧ floorLog2 n d e ≥ 64 then (if neg then lo else hi)
    else
      let m : Int := (roundWhole mode neg 0#32 n d e : Nat)
      max lo (min hi (if neg then -m else m))

/-- The value of a narrow code (R74 to R76, R82). -/
def NarrowFmt.value (f : NarrowFmt) (code : Nat) : Val :=
  match f with
  | .e8m0 => if code % 256 = 0xFF then .nan else .fin false 1 1 ((code % 256 : Nat) - 127 : Int)
  | .i8 =>
    let c := code % 256
    if c < 128 then .fin false c 1 (-6) else .fin true (256 - c) 1 (-6)
  | f => f.float.decode (code % 2 ^ f.bits)

/-- The canonical NaN of binary32, or the word (R82). -/
def toF32 (v : Val) : Word := rne32 v

/-- emax of R87. -/
def NarrowFmt.emax : NarrowFmt → Int
  | .e4m3 => 8
  | .e5m2 => 15
  | .e3m2 => 4
  | .e2m3 => 2
  | .e2m1 => 2
  | _ => 0

/-- The E8M0 code of R87 for a block whose greatest magnitude is |x|, given as a value (R118). -/
def mxScale (f : NarrowFmt) (x : Val) : Nat :=
  match x with
  | .nan | .inf _ => 0xFF
  | .fin _ n d e =>
    if n = 0 then 0x7F
    else (max (-127) (min 127 (floorLog2 n d e - f.emax)) + 127).toNat

/-- Round a positive exact value up to the next magnitude of a format (R90), which is not subject to the underflow rule. -/
def FloatFmt.roundAbove (f : FloatFmt) (n d : Nat) (e : Int) : Nat :=
  let l := f.locate n d e
  if l.rem = 0 then l.code else l.code + 1

/-- The max finite magnitude of an element format under MX (R82, R89): of MXINT8, 127 × 2^-6. -/
def NarrowFmt.maxVal (f : NarrowFmt) : Val :=
  match f with
  | .i8 => .fin false 127 1 (-6)
  | f => f.float.decode f.float.maxCode

/-- The conversion of x / X to an MX element under scale code X (R87, R89, R120): the code, and whether it was clamped. -/
def convMx (f : NarrowFmt) (mode : Rnd) (r : Word) (scale : Nat) (x : Val) : Nat × Bool :=
  if scale % 256 = 0xFF ∨ x.isNan then (0, false)
  else
    let v := x.scale (127 - (scale % 256 : Nat) : Int)
    let beyond := match f.maxVal with
      | .fin _ n d e => v.magGt n d e
      | _ => false
    if beyond then
      match f with
      | .i8 => (if x.negative then 0x81 else 0x7F, true)
      | f => (f.float.sign x.negative f.float.maxCode, true)
    else
      match f with
      | .i8 => (convMxInt8 mode r v, false)
      | f => (conv f mode r v, false)

/-- The conversion of x / (q × b) to a BSF4 element (R91, R121): the code, and whether it was clamped. -/
def convBsf4 (mode : Rnd) (r : Word) (q b : Nat) (x : Val) : Nat × Bool :=
  let s := Val.mul (NarrowFmt.value .e3m5 q) (NarrowFmt.value .bf16 b)
  if s.isZero || s.isNan || s.isInf || x.isNan then (0, false)
  else
    let v := x.div s
    if x.isInf || v.magGt 6 1 0 then ((if v.negative then 0xF else 0x7), true)
    else (conv .e2m1 mode r v, false)

/-- The BSF4 band scale of a maximum (R90, R119): a BF16 code. DESIGN CHOICE, log 105. -/
def bsf4Band (m : Val) : Nat :=
  match m with
  | .nan | .inf _ => 0x7FC0
  | .fin _ n d e => if n = 0 then 0x3F80 else fmtBF16.roundAbove (n * 16) (d * 189) e

/-- The BSF4 block scale of a block maximum under a band scale (R90, R119): an E3M5 code. -/
def bsf4Block (a : Val) (b : Nat) : Nat :=
  match NarrowFmt.value .bf16 b with
  | .fin false bn bd be =>
    if bn = 0 then 0x00
    else
      match a with
      | .nan => 0x00
      | .inf _ => 0xFF
      | .fin _ n d e => if n = 0 then 0x00 else min 0xFF (fmtE3M5.roundAbove (n * bd) (d * (6 * bn)) (e - be))
  | _ => 0x00

end Sys2Proof.Machine
end

