-- ==== Sys2Proof/Machine/Elementary.lean ====
section
/-! DEFINITION. The unary functions of spec/07 R110 to R112. The exact quotients and roots are rounded once from their exact
value. The transcendental functions are found with 320 fraction bits, far more than a binary32 result needs, and rounded once
(log 12). -/

namespace Sys2Proof.Machine

/-- Fraction bits of the fixed-point values below. DEDUCED, log 12. -/
def fixP : Nat := 320
/-- 1 in fixed point. -/
def fixOne : Nat := 2 ^ fixP

/-- The integer square root by bits, from bit `b - 1` down. -/
def isqrtBits : Nat → Nat → Nat → Nat
  | 0, _, r => r
  | b + 1, x, r => if (r + 2 ^ b) * (r + 2 ^ b) ≤ x then isqrtBits b x (r + 2 ^ b) else isqrtBits b x r

/-- The integer square root. -/
def isqrt (x : Nat) : Nat := isqrtBits (Nat.log2 x / 2 + 1) x 0

/-- Sum of y^(2k+1)/(2k+1) over k for y = 1/q, in fixed point with `p` bits: the inverse hyperbolic tangent of 1/q, or with
alternating signs the inverse tangent. -/
def atanSeries (alt : Bool) (q : Nat) : Nat → Nat → Nat → Bool → Int
  | 0, _, _, _ => 0
  | fuel + 1, pw, k, minus =>
    let t : Int := (pw / (2 * k + 1) : Nat)
    (if minus then -t else t) + atanSeries alt q fuel (pw / (q * q)) (k + 1) (alt && !minus)

/-- ln 2 = 2 atanh(1/3). -/
def fixLn2 : Nat := (2 * atanSeries false 3 110 (fixOne / 3) 0 false).toNat

/-- Fraction bits of pi: enough to reduce any binary32 argument (R111). -/
def piP : Nat := 480

/-- pi by Machin's formula, with `piP` bits. -/
def fixPi : Nat :=
  (16 * atanSeries true 5 110 (2 ^ piP / 5) 0 false - 4 * atanSeries true 239 40 (2 ^ piP / 239) 0 false).toNat

/-- Sum of y^k / (k+off)! over k, where term k is term k-1 times y / (k+off); y in fixed point. -/
def expSeries (y off : Nat) : Nat → Nat → Nat → Nat
  | 0, _, _ => 0
  | fuel + 1, term, k => term + expSeries y off fuel (term * y / (fixOne * (k + 1 + off))) (k + 1)

/-- e^y for 0 ≤ y < 1. -/
def fixExp (y : Nat) : Nat := expSeries y 0 90 fixOne 0

/-- Sum of (-z)^k / ((2k+off)!), with step divisor (2k+off+1)(2k+off+2); z in fixed point. -/
def trigSeries (z off : Nat) : Nat → Nat → Nat → Bool → Int
  | 0, _, _, _ => 0
  | fuel + 1, term, k, minus =>
    (if minus then -(term : Int) else (term : Int))
      + trigSeries z off fuel (term * z / (fixOne * ((2 * k + off + 1) * (2 * k + off + 2)))) (k + 1) (!minus)

/-- Round a positive n/d × 2^e to binary32 under RNE with a sign. -/
def roundF32 (neg : Bool) (n d : Nat) (e : Int) : Word :=
  BitVec.ofNat 32 (fmtF32.sign neg (fmtF32.roundMag .rne neg 0#32 n d e))

def f32Nan : Word := 0x7FC0_0000#32
def f32One : Word := 0x3F80_0000#32
def f32Inf (neg : Bool) : Word := if neg then 0xFF80_0000#32 else 0x7F80_0000#32
def f32Zero (neg : Bool) : Word := if neg then 0x8000_0000#32 else 0#32

/-- FRCP (R111). -/
def frcpF (a : Word) : Word :=
  match valF32 a with
  | .nan => f32Nan
  | .inf s => f32Zero s
  | .fin s n _ e => if n = 0 then f32Inf s else roundF32 s 1 n (-e)

/-- The square root of n × 2^e, n > 0, as a numerator over 2 and an exponent: one odd last bit stands for a remainder, which
lies strictly between two rounding candidates. -/
def sqrtParts (n : Nat) (e : Int) : Nat × Int :=
  let n1 := if e % 2 = 0 then n else 2 * n
  let e1 := if e % 2 = 0 then e else e - 1
  let x := n1 * 2 ^ 80
  let s := isqrt x
  (if s * s = x then 2 * s else 2 * s + 1, e1 / 2 - 41)

/-- FSQRT (R111). -/
def fsqrtF (a : Word) : Word :=
  match valF32 a with
  | .nan => f32Nan
  | .inf s => if s then f32Nan else a
  | .fin s n _ e =>
    if n = 0 then a
    else if s then f32Nan
    else
      let p := sqrtParts n e
      roundF32 false p.1 1 p.2

/-- FRSQ (R111): 1/sqrt(n × 2^e) = sqrt(2^200 / n) × 2^(-100 - e/2). -/
def frsqF (a : Word) : Word :=
  match valF32 a with
  | .nan => f32Nan
  | .inf s => if s then f32Nan else 0#32
  | .fin s n _ e =>
    if n = 0 then f32Inf s
    else if s then f32Nan
    else
      let n1 := if e % 2 = 0 then n else 2 * n
      let e1 := if e % 2 = 0 then e else e - 1
      let r := isqrt (2 ^ 200 / n1)
      roundF32 false (if r * r * n1 = 2 ^ 200 then 2 * r else 2 * r + 1) 1 (-101 - e1 / 2)

/-- FEXP2 (R111). -/
def fexp2F (a : Word) : Word :=
  match valF32 a with
  | .nan => f32Nan
  | .inf s => if s then 0#32 else a
  | .fin s n _ e =>
    if n = 0 then f32One
    else if floorLog2 n 1 e ≥ 8 then (if s then 0#32 else f32Inf false)
    else
      -- n × 2^e in fixed point is exact: e is at least -149
      let mag := n * pow2 (e + fixP)
      let x : Int := if s then -(mag : Int) else mag
      let i := x / fixOne
      let f := (x % fixOne).toNat
      if f = 0 then roundF32 false 1 1 i
      else roundF32 false (fixExp (f * fixLn2 / fixOne)) 1 (i - fixP)

/-- FLOG2 (R111). -/
def flog2F (a : Word) : Word :=
  match valF32 a with
  | .nan => f32Nan
  | .inf s => if s then f32Nan else a
  | .fin s n _ e =>
    if n = 0 then f32Inf true
    else if s then f32Nan
    else
      let l := Nat.log2 n
      -- n × 2^e = (n / p) × 2^k with 3/4 ≤ n/p < 3/2
      let up := decide (3 * 2 ^ l ≤ 2 * n)
      let p := if up then 2 ^ (l + 1) else 2 ^ l
      let k : Int := e + l + (if up then 1 else 0)
      let neg := decide (n < p)
      let zn := if neg then p - n else n - p
      let zd := n + p
      -- log2(n/p) = z × (2 / ln 2) × sum of z^(2j) / (2j + 1), z = zn / zd
      let zz := zn * zn * fixOne / (zd * zd)
      let series := (List.range 75).foldl (fun (acc : Nat × Nat) j => (acc.1 + acc.2 / (2 * j + 1), acc.2 * zz / fixOne)) (0, fixOne)
      let g := 2 * series.1 * fixOne / fixLn2
      if zn = 0 then rne32 (Val.ofInt k)
      else if k = 0 then roundF32 neg (zn * g) zd (-(fixP : Int))
      else
        let frac : Int := (zn * g / zd : Nat)
        let sum : Int := k * fixOne + (if neg then -frac else frac)
        roundF32 (decide (sum < 0)) sum.natAbs 1 (-(fixP : Int))

/-- An argument reduced by multiples of pi/2: the quadrant and the remainder with `piP` bits. -/
def reduceQuarter (neg : Bool) (n : Nat) (e : Int) : Nat × Int :=
  let h := fixPi / 2
  let mag : Int := (n * pow2 (e + piP) : Nat)
  let x : Int := if neg then -mag else mag
  let k := (x + (h / 2 : Nat)) / (h : Int)
  ((k % 4).toNat, x - k * h)

/-- sin r for the remainder r. -/
def sinRem (r : Int) : Bool × Nat × Int :=
  let z := (r * r).natAbs / 2 ^ (2 * piP - fixP)
  let g := (trigSeries z 1 50 fixOne 0 false).toNat
  (decide (r < 0), r.natAbs * g, -((piP + fixP : Nat) : Int))

/-- cos r for the remainder r. -/
def cosRem (r : Int) : Nat × Int :=
  let z := (r * r).natAbs / 2 ^ (2 * piP - fixP)
  ((trigSeries z 0 50 fixOne 0 false).toNat, -(fixP : Int))

/-- The sine (`shift` 0) or cosine (`shift` 1) of a finite value that is not zero. -/
def trigF (shift : Nat) (neg : Bool) (n : Nat) (e : Int) : Word :=
  let q := reduceQuarter neg n e
  let quad := (q.1 + shift) % 4
  if quad % 2 = 0 then
    let s := sinRem q.2
    roundF32 (s.1 != (quad == 2)) s.2.1 1 s.2.2
  else
    let c := cosRem q.2
    roundF32 (quad == 3) c.1 1 c.2

/-- FSIN (R111). -/
def fsinF (a : Word) : Word :=
  match valF32 a with
  | .nan | .inf _ => f32Nan
  | .fin s n _ e => if n = 0 then a else trigF 0 s n e

/-- FCOS (R111). -/
def fcosF (a : Word) : Word :=
  match valF32 a with
  | .nan | .inf _ => f32Nan
  | .fin s n _ e => if n = 0 then f32One else trigF 1 s n e

/-- e^t for t ≥ 0 in fixed point. -/
def fixExpBig (t : Nat) : Nat := fixExp (t % fixLn2) * 2 ^ (t / fixLn2)

/-- FTANH (R111). From |a| = 16 up, 1 - tanh |a| is below 2^-45 and the result rounds to 1. -/
def ftanhF (a : Word) : Word :=
  match valF32 a with
  | .nan => f32Nan
  | .inf s => if s then 0xBF80_0000#32 else f32One
  | .fin s n _ e =>
    if n = 0 then a
    else if floorLog2 n 1 e ≥ 4 then (if s then 0xBF80_0000#32 else f32One)
    else
      let x := n * pow2 (e + fixP)
      let t := 2 * x
      if t < fixOne then
        -- tanh x = x E / (x E + 1), E = (e^t - 1) / t
        let ee := expSeries t 1 90 fixOne 0
        let g := ee * fixOne / (fixOne + x * ee / fixOne)
        roundF32 s (n * g) 1 (e - fixP)
      else
        let y := fixExpBig t
        roundF32 s (y - fixOne) (y + fixOne) 0

/-- Sum of (-z)^k / (k! (2k+1)). -/
def erfSeries (z : Nat) : Nat → Nat → Nat → Bool → Int
  | 0, _, _, _ => 0
  | fuel + 1, term, k, minus =>
    let t : Int := (term / (2 * k + 1) : Nat)
    (if minus then -t else t) + erfSeries z fuel (term * z / (fixOne * (k + 1))) (k + 1) (!minus)

/-- FERF (R111). From |a| = 4 up, 1 - erf |a| is below 2^-25 and the result rounds to 1. -/
def ferfF (a : Word) : Word :=
  match valF32 a with
  | .nan => f32Nan
  | .inf s => if s then 0xBF80_0000#32 else f32One
  | .fin s n _ e =>
    if n = 0 then a
    else if floorLog2 n 1 e ≥ 2 then (if s then 0xBF80_0000#32 else f32One)
    else
      let x := n * pow2 (e + fixP)
      let sum := (erfSeries (x * x / fixOne) 170 fixOne 0 false).toNat
      -- 2 / sqrt(pi)
      let c := 2 * fixOne * fixOne / isqrt (fixPi * 2 ^ (2 * fixP - piP))
      roundF32 s (n * (sum * c / fixOne)) 1 (e - fixP)

/-- FNEG and FABS (R110). -/
def fnegF (a : Word) : Word := if (valF32 a).isNan then f32Nan else a ^^^ 0x8000_0000#32
def fabsF (a : Word) : Word := if (valF32 a).isNan then f32Nan else a &&& 0x7FFF_FFFF#32

/-- Rounding to an integral binary32 value (R112). -/
def fintF (mode : Rnd) (a : Word) : Word :=
  match valF32 a with
  | .nan => f32Nan
  | .inf _ => a
  | .fin s n _ e =>
    if n = 0 then a
    else if 0 ≤ e then a
    else
      let m := roundWhole mode s 0#32 n 1 e
      if m = 0 then f32Zero s else roundF32 s m 1 0

end Sys2Proof.Machine
end

