-- ==== Sys2Proof/Machine/Flags.lean ====
section
/-! DEFINITION. The ZH-6400 keeps no flags (spec/05 R85): a comparison writes 1 or 0 to a register. These are the comparison
results and the pure 32-bit and 64-bit functions of spec/07 R101 to R112 and spec/08 R156 to R158. -/

namespace Sys2Proof.Machine

/-- The result of a comparison (R101). -/
def flag (b : Bool) : Word := if b then 1#32 else 0#32

/-! ### Integer comparisons, minimum and maximum (R101) -/
def isltF (a b : Word) : Word := flag (a.slt b)
def isleF (a b : Word) : Word := flag (a.sle b)
def nsltF (a b : Word) : Word := flag (a.ult b)
def nsleF (a b : Word) : Word := flag (a.ule b)
def ieqF (a b : Word) : Word := flag (a == b)
def ineF (a b : Word) : Word := flag (a != b)
def iminF (a b : Word) : Word := if a.slt b then a else b
def imaxF (a b : Word) : Word := if a.slt b then b else a
def nminF (a b : Word) : Word := if a.ult b then a else b
def nmaxF (a b : Word) : Word := if a.ult b then b else a

/-! ### Arithmetic and shifts (R101, R102) -/
/-- Bits [63:32] of the signed product. -/
def imulhiF (a b : Word) : Word := (a.signExtend 64 * b.signExtend 64).extractLsb' 32 32
/-- Bits [63:32] of the unsigned product. -/
def nmulhiF (a b : Word) : Word := (a.zeroExtend 64 * b.zeroExtend 64).extractLsb' 32 32
def andnF (a b : Word) : Word := a &&& ~~~b
def shlF (a b : Word) : Word := a <<< (b.toNat % 32)
def shrF (a b : Word) : Word := a >>> (b.toNat % 32)
def sarF (a b : Word) : Word := a.sshiftRight (b.toNat % 32)
def rotlF (a b : Word) : Word := a.rotateLeft (b.toNat % 32)
def shl64F (a : DWord) (b : Word) : DWord := a <<< (b.toNat % 64)
def shr64F (a : DWord) (b : Word) : DWord := a >>> (b.toNat % 64)
def imadwF (a b : Word) (d : DWord) : DWord := a.signExtend 64 * b.signExtend 64 + d
def nmadwF (a b : Word) (d : DWord) : DWord := a.zeroExtend 64 * b.zeroExtend 64 + d
def selF (a b d : Word) : Word := if d = 0#32 then b else a

/-! ### Unary integer functions (R104) -/
def absF (a : Word) : Word := if a.msb then 0#32 - a else a
def clzF (a : Word) : Word := if a = 0#32 then 32#32 else BitVec.ofNat 32 (31 - Nat.log2 a.toNat)
def popcF (a : Word) : Word := BitVec.ofNat 32 ((List.range 32).countP (fun k => a.getLsbD k))
def brevF (a : Word) : Word := (List.range 32).foldl (fun r k => if a.getLsbD k then r ||| BitVec.ofNat 32 (2 ^ (31 - k)) else r) 0#32
def sextF (n : Nat) (a : Word) : Word := (a.extractLsb' 0 n).signExtend 32
def zextF (n : Nat) (a : Word) : Word := (a.extractLsb' 0 n).zeroExtend 32

/-! ### binary32 and bf16×2 (R85, R105 to R109) -/
def faddF (a b : Word) : Word := rne32 ((valF32 a).add (valF32 b))
def fsubF (a b : Word) : Word := rne32 ((valF32 a).add (valF32 b).neg)
def fmulF (a b : Word) : Word := rne32 ((valF32 a).mul (valF32 b))
def ffmaF (a b d : Word) : Word := rne32 (((valF32 a).mul (valF32 b)).add (valF32 d))

/-- a is below b when -0 counts as less than +0 (R106). -/
def fBelow (a b : Word) : Bool :=
  (valF32 a).lt (valF32 b) || ((valF32 a).isZero && (valF32 b).isZero && a.msb && !b.msb)
/-- The lesser of two binary32 values, NaN ignored (R106). -/
def fminF (a b : Word) : Word :=
  if (valF32 a).isNan then (if (valF32 b).isNan then f32Nan else b)
  else if (valF32 b).isNan then a
  else if fBelow b a then b else a
/-- The greater of two binary32 values, NaN ignored (R106). -/
def fmaxF (a b : Word) : Word :=
  if (valF32 a).isNan then (if (valF32 b).isNan then f32Nan else b)
  else if (valF32 b).isNan then a
  else if fBelow a b then b else a

def fsltF (a b : Word) : Word := flag ((valF32 a).lt (valF32 b))
def fsleF (a b : Word) : Word := flag ((valF32 a).lt (valF32 b) || (valF32 a).eq (valF32 b))
def fseqF (a b : Word) : Word := flag ((valF32 a).eq (valF32 b))
def fsneF (a b : Word) : Word := flag (!(valF32 a).eq (valF32 b))
def fsunF (a b : Word) : Word := flag ((valF32 a).isNan || (valF32 b).isNan)

/-- FLDEXP (R108). -/
def fldexpF (a b : Word) : Word :=
  match valF32 a with
  | .nan => f32Nan
  | .inf _ => a
  | .fin s n d e => if n = 0 then a else rne32 (.fin s n d (e + max (-1000) (min 1000 b.toInt)))

def lo16 (a : Word) : Half := a.extractLsb' 0 16
def hi16 (a : Word) : Half := a.extractLsb' 16 16
/-- A function of BF16 values in each half (R109). -/
def halves (f : Half → Half → Half → Half) (a b d : Word) : Word := f (hi16 a) (hi16 b) (hi16 d) ++ f (lo16 a) (lo16 b) (lo16 d)
def badd2F (a b : Word) : Word := halves (fun x y _ => rneBf16 ((valBf16 x).add (valBf16 y))) a b 0
def bmul2F (a b : Word) : Word := halves (fun x y _ => rneBf16 ((valBf16 x).mul (valBf16 y))) a b 0
def bfma2F (a b d : Word) : Word := halves (fun x y z => rneBf16 (((valBf16 x).mul (valBf16 y)).add (valBf16 z))) a b d


/-- BDOT2 (R109): both products and the sum exactly, rounded once. A NaN, Inf × 0, or infinities of both signs give NaN. -/
def bdot2F (a b d : Word) : Word :=
  let p := (valBf16 (lo16 a)).mul (valBf16 (lo16 b))
  let q := (valBf16 (hi16 a)).mul (valBf16 (hi16 b))
  rne32 ((p.add q).add (valF32 d))

end Sys2Proof.Machine
end

