-- ==== Sys2Proof/Syntax.lean ====
section
/-! DEFINITION. The instructions and steps of the ZH-6400: one constructor for each row of spec/opcode_table.json.
The 246 instruction words carry their operand fields at the widths of spec/03_encoding_rules.md R32 to R55
(`s` is the stall count); RESERVED_SLOT carries the whole word; the 85 steps of the device that have no word carry what names the step. -/

namespace Sys2Proof

/-- One constructor for each row of spec/opcode_table.json. -/
inductive Instr where
  /-- IADD (R101): Each issuing lane writes the 32-bit wrapping sum of A and B to D. -/
  | iadd (s : BitVec 2) (d a b : BitVec 7)
  /-- ISUB (R101): Each issuing lane writes the 32-bit wrapping difference A minus B to D. -/
  | isub (s : BitVec 2) (d a b : BitVec 7)
  /-- IMUL (R101): Each issuing lane writes the low 32 bits of A times B to D. -/
  | imul (s : BitVec 2) (d a b : BitVec 7)
  /-- IMULHI (R101): Each issuing lane writes the high 32 bits of the signed product of A and B to D. -/
  | imulhi (s : BitVec 2) (d a b : BitVec 7)
  /-- NMULHI (R101): Each issuing lane writes the high 32 bits of the unsigned product of A and B to D. -/
  | nmulhi (s : BitVec 2) (d a b : BitVec 7)
  /-- IMAD (R101): Each issuing lane writes the low 32 bits of A times B plus D to D. -/
  | imad (s : BitVec 2) (d a b : BitVec 7)
  /-- AND (R101): Each issuing lane writes the bitwise AND of A and B to D. -/
  | and (s : BitVec 2) (d a b : BitVec 7)
  /-- OR (R101): Each issuing lane writes the bitwise OR of A and B to D. -/
  | or (s : BitVec 2) (d a b : BitVec 7)
  /-- XOR (R101): Each issuing lane writes the bitwise XOR of A and B to D. -/
  | xor (s : BitVec 2) (d a b : BitVec 7)
  /-- ANDN (R101): Each issuing lane writes A AND NOT B to D. -/
  | andn (s : BitVec 2) (d a b : BitVec 7)
  /-- SHL (R101): Each issuing lane writes A shifted left by B mod 32 to D. -/
  | shl (s : BitVec 2) (d a b : BitVec 7)
  /-- SHR (R101): Each issuing lane writes A shifted right logically by B mod 32 to D. -/
  | shr (s : BitVec 2) (d a b : BitVec 7)
  /-- SAR (R101): Each issuing lane writes A shifted right arithmetically by B mod 32 to D. -/
  | sar (s : BitVec 2) (d a b : BitVec 7)
  /-- ROTL (R101): Each issuing lane writes A rotated left by B mod 32 to D. -/
  | rotl (s : BitVec 2) (d a b : BitVec 7)
  /-- IMIN (R101): Each issuing lane writes the signed minimum of A and B to D. -/
  | imin (s : BitVec 2) (d a b : BitVec 7)
  /-- IMAX (R101): Each issuing lane writes the signed maximum of A and B to D. -/
  | imax (s : BitVec 2) (d a b : BitVec 7)
  /-- NMIN (R101): Each issuing lane writes the unsigned minimum of A and B to D. -/
  | nmin (s : BitVec 2) (d a b : BitVec 7)
  /-- NMAX (R101): Each issuing lane writes the unsigned maximum of A and B to D. -/
  | nmax (s : BitVec 2) (d a b : BitVec 7)
  /-- ISLT (R101): Each issuing lane writes 1 to D if A is signed-less than B, else 0. -/
  | islt (s : BitVec 2) (d a b : BitVec 7)
  /-- ISLE (R101): Each issuing lane writes 1 to D if A is signed-less-or-equal to B, else 0. -/
  | isle (s : BitVec 2) (d a b : BitVec 7)
  /-- NSLT (R101): Each issuing lane writes 1 to D if A is unsigned-less than B, else 0. -/
  | nslt (s : BitVec 2) (d a b : BitVec 7)
  /-- NSLE (R101): Each issuing lane writes 1 to D if A is unsigned-less-or-equal to B, else 0. -/
  | nsle (s : BitVec 2) (d a b : BitVec 7)
  /-- IEQ (R101): Each issuing lane writes 1 to D if A equals B, else 0. -/
  | ieq (s : BitVec 2) (d a b : BitVec 7)
  /-- INE (R101): Each issuing lane writes 1 to D if A differs from B, else 0. -/
  | ine (s : BitVec 2) (d a b : BitVec 7)
  /-- SEL (R101): Each issuing lane writes A to D where D is non-zero, else B. -/
  | sel (s : BitVec 2) (d a b : BitVec 7)
  /-- FADD (R105): Each issuing lane writes the binary32 sum of A and B rounded to nearest even. -/
  | fadd (s : BitVec 2) (d a b : BitVec 7)
  /-- FSUB (R105): Each issuing lane writes the binary32 difference of A and B rounded once. -/
  | fsub (s : BitVec 2) (d a b : BitVec 7)
  /-- FMUL (R105): Each issuing lane writes the binary32 product of A and B rounded once. -/
  | fmul (s : BitVec 2) (d a b : BitVec 7)
  /-- FFMA (R105): Each issuing lane writes A times B plus D in binary32 with one rounding. -/
  | ffma (s : BitVec 2) (d a b : BitVec 7)
  /-- FMIN (R106): Each issuing lane writes the lesser binary32 operand, with -0 below +0 and NaN ignored. -/
  | fmin (s : BitVec 2) (d a b : BitVec 7)
  /-- FMAX (R106): Each issuing lane writes the greater binary32 operand, with NaN ignored. -/
  | fmax (s : BitVec 2) (d a b : BitVec 7)
  /-- FSLT (R107): Each issuing lane writes 1 when A and B are ordered and A < B. -/
  | fslt (s : BitVec 2) (d a b : BitVec 7)
  /-- FSLE (R107): Each issuing lane writes 1 when A and B are ordered and A <= B. -/
  | fsle (s : BitVec 2) (d a b : BitVec 7)
  /-- FSEQ (R107): Each issuing lane writes 1 when A and B are ordered and equal. -/
  | fseq (s : BitVec 2) (d a b : BitVec 7)
  /-- FSNE (R107): Each issuing lane writes 1 when A and B are unordered or unequal. -/
  | fsne (s : BitVec 2) (d a b : BitVec 7)
  /-- FSUN (R107): Each issuing lane writes 1 when A and B are unordered. -/
  | fsun (s : BitVec 2) (d a b : BitVec 7)
  /-- FLDEXP (R108): Each issuing lane writes A times 2 to the signed power B, rounded once. -/
  | fldexp (s : BitVec 2) (d a b : BitVec 7)
  /-- BADD2 (R109): Each issuing lane adds the two BF16 halves of A and B independently. -/
  | badd2 (s : BitVec 2) (d a b : BitVec 7)
  /-- BMUL2 (R109): Each issuing lane multiplies the two BF16 halves of A and B independently. -/
  | bmul2 (s : BitVec 2) (d a b : BitVec 7)
  /-- BFMA2 (R109): Each issuing lane forms a fused BF16 multiply-add in each half of D. -/
  | bfma2 (s : BitVec 2) (d a b : BitVec 7)
  /-- BDOT2 (R109): Each issuing lane adds the exact BF16 dot product of A and B to binary32 D with one rounding. -/
  | bdot2 (s : BitVec 2) (d a b : BitVec 7)
  /-- IADD64 (R102): Each issuing lane writes the 64-bit wrapping sum of pairs A and B to pair D. -/
  | iadd64 (s : BitVec 2) (d a b : BitVec 7)
  /-- ISUB64 (R102): Each issuing lane writes the 64-bit wrapping difference of pairs A and B to pair D. -/
  | isub64 (s : BitVec 2) (d a b : BitVec 7)
  /-- IMADW (R102): Each issuing lane adds the signed 64-bit product of A and B to pair D. -/
  | imadw (s : BitVec 2) (d a b : BitVec 7)
  /-- NMADW (R102): Each issuing lane adds the unsigned 64-bit product of A and B to pair D. -/
  | nmadw (s : BitVec 2) (d a b : BitVec 7)
  /-- SHL64 (R102): Each issuing lane shifts pair A left by B mod 64 into pair D. -/
  | shl64 (s : BitVec 2) (d a b : BitVec 7)
  /-- SHR64 (R102): Each issuing lane shifts pair A right logically by B mod 64 into pair D. -/
  | shr64 (s : BitVec 2) (d a b : BitVec 7)
  /-- SHFL (R124): Each issuing lane reads A from the issuing lane named by B, or its own A otherwise. -/
  | shfl (s : BitVec 2) (d a b : BitVec 7)
  /-- SHFLX (R124): Each issuing lane reads A from lane l xor B when that lane issues. -/
  | shflx (s : BitVec 2) (d a b : BitVec 7)
  /-- SHFLU (R124): Each issuing lane reads A from lane l minus B when that lane issues. -/
  | shflu (s : BitVec 2) (d a b : BitVec 7)
  /-- SHFLD (R124): Each issuing lane reads A from lane l plus B when that lane issues. -/
  | shfld (s : BitVec 2) (d a b : BitVec 7)
  /-- IADDI (R103): Each issuing lane writes A plus the signed immediate to D. -/
  | iaddi (s : BitVec 2) (d a i : BitVec 7)
  /-- ANDI (R103): Each issuing lane writes A AND the signed immediate to D. -/
  | andi (s : BitVec 2) (d a i : BitVec 7)
  /-- ORI (R103): Each issuing lane writes A OR the unsigned immediate to D. -/
  | ori (s : BitVec 2) (d a i : BitVec 7)
  /-- XORI (R103): Each issuing lane writes A XOR the unsigned immediate to D. -/
  | xori (s : BitVec 2) (d a i : BitVec 7)
  /-- SHLI (R103): Each issuing lane shifts A left by a fixed count 0-31. -/
  | shli (s : BitVec 2) (d a i : BitVec 7)
  /-- SHRI (R103): Each issuing lane shifts A right logically by a fixed count 0-31. -/
  | shri (s : BitVec 2) (d a i : BitVec 7)
  /-- SARI (R103): Each issuing lane shifts A right arithmetically by a fixed count 0-31. -/
  | sari (s : BitVec 2) (d a i : BitVec 7)
  /-- ROTLI (R103): Each issuing lane rotates A left by a fixed count 0-31. -/
  | rotli (s : BitVec 2) (d a i : BitVec 7)
  /-- ISLTI (R103): Each issuing lane writes 1 when A is signed-less than the immediate. -/
  | islti (s : BitVec 2) (d a i : BitVec 7)
  /-- IEQI (R103): Each issuing lane writes 1 when A equals the immediate. -/
  | ieqi (s : BitVec 2) (d a i : BitVec 7)
  /-- SHL64I (R103): Each issuing lane shifts pair A left by a fixed count 0-63. -/
  | shl64i (s : BitVec 2) (d a i : BitVec 7)
  /-- SHR64I (R103): Each issuing lane shifts pair A right logically by a fixed count 0-63. -/
  | shr64i (s : BitVec 2) (d a i : BitVec 7)
  /-- ADD64I (R103): Each issuing lane adds the 64-bit signed immediate to pair A. -/
  | add64i (s : BitVec 2) (d a i : BitVec 7)
  /-- NOT (R104): Each issuing lane writes the bitwise complement of A. -/
  | not (s : BitVec 2) (d a : BitVec 7)
  /-- NEG (R104): Each issuing lane writes the wrapping negation of A. -/
  | neg (s : BitVec 2) (d a : BitVec 7)
  /-- ABS (R104): Each issuing lane writes the wrapping absolute value of A. -/
  | abs (s : BitVec 2) (d a : BitVec 7)
  /-- CLZ (R104): Each issuing lane writes the count of leading zero bits of A. -/
  | clz (s : BitVec 2) (d a : BitVec 7)
  /-- POPC (R104): Each issuing lane writes the count of one bits of A. -/
  | popc (s : BitVec 2) (d a : BitVec 7)
  /-- BREV (R104): Each issuing lane writes A with its bit order reversed. -/
  | brev (s : BitVec 2) (d a : BitVec 7)
  /-- SEXT8 (R104): Each issuing lane sign-extends the low byte of A. -/
  | sext8 (s : BitVec 2) (d a : BitVec 7)
  /-- SEXT16 (R104): Each issuing lane sign-extends the low halfword of A. -/
  | sext16 (s : BitVec 2) (d a : BitVec 7)
  /-- ZEXT8 (R104): Each issuing lane zero-extends the low byte of A. -/
  | zext8 (s : BitVec 2) (d a : BitVec 7)
  /-- ZEXT16 (R104): Each issuing lane zero-extends the low halfword of A. -/
  | zext16 (s : BitVec 2) (d a : BitVec 7)
  /-- FNEG (R110): Each issuing lane inverts the sign bit of A, canonicalising NaN. -/
  | fneg (s : BitVec 2) (d a : BitVec 7)
  /-- FABS (R110): Each issuing lane clears the sign bit of A, canonicalising NaN. -/
  | fabs (s : BitVec 2) (d a : BitVec 7)
  /-- FRCP (R111): Each issuing lane writes the correctly rounded reciprocal of A. -/
  | frcp (s : BitVec 2) (d a : BitVec 7)
  /-- FRSQ (R111): Each issuing lane writes the correctly rounded reciprocal square root of A. -/
  | frsq (s : BitVec 2) (d a : BitVec 7)
  /-- FSQRT (R111): Each issuing lane writes the correctly rounded square root of A. -/
  | fsqrt (s : BitVec 2) (d a : BitVec 7)
  /-- FEXP2 (R111): Each issuing lane writes the correctly rounded 2 to the power A. -/
  | fexp2 (s : BitVec 2) (d a : BitVec 7)
  /-- FLOG2 (R111): Each issuing lane writes the correctly rounded base-2 logarithm of A. -/
  | flog2 (s : BitVec 2) (d a : BitVec 7)
  /-- FSIN (R111): Each issuing lane writes the correctly rounded sine of A in radians. -/
  | fsin (s : BitVec 2) (d a : BitVec 7)
  /-- FCOS (R111): Each issuing lane writes the correctly rounded cosine of A in radians. -/
  | fcos (s : BitVec 2) (d a : BitVec 7)
  /-- FTANH (R111): Each issuing lane writes the correctly rounded hyperbolic tangent of A. -/
  | ftanh (s : BitVec 2) (d a : BitVec 7)
  /-- FERF (R111): Each issuing lane writes the correctly rounded error function of A. -/
  | ferf (s : BitVec 2) (d a : BitVec 7)
  /-- FFLOOR (R112): Each issuing lane rounds A to an integral value toward minus infinity. -/
  | ffloor (s : BitVec 2) (d a : BitVec 7)
  /-- FCEIL (R112): Each issuing lane rounds A to an integral value toward plus infinity. -/
  | fceil (s : BitVec 2) (d a : BitVec 7)
  /-- FTRUNC (R112): Each issuing lane rounds A to an integral value toward zero. -/
  | ftrunc (s : BitVec 2) (d a : BitVec 7)
  /-- FRINT (R112): Each issuing lane rounds A to the nearest integral value, ties to even. -/
  | frint (s : BitVec 2) (d a : BitVec 7)
  /-- CVTF (R113): Each issuing lane converts binary32 A to a narrow format under the named rounding, using D as the draw counter. -/
  | cvtf (s : BitVec 2) (d a : BitVec 7) (f : BitVec 4) (r : BitVec 3)
  /-- CVTT (R114): Each issuing lane converts a narrow code in A exactly to binary32. -/
  | cvtt (s : BitVec 2) (d a : BitVec 7) (f : BitVec 4)
  /-- CVTI (R115): Each issuing lane converts between binary32 and an integer type under the named rounding. -/
  | cvti (s : BitVec 2) (d a : BitVec 7) (k : BitVec 4) (r : BitVec 3)
  /-- PACK (R116): Each issuing lane inserts the low element of A into element e of D. -/
  | pack (s : BitVec 2) (d a : BitVec 7) (w : BitVec 2) (e : BitVec 3)
  /-- UNPK (R116): Each issuing lane extracts element e of A, zero-extended, into D. -/
  | unpk (s : BitVec 2) (d a : BitVec 7) (w : BitVec 2) (e : BitVec 3)
  /-- QCVT (R120): Each issuing lane converts A under the block scale and counter held in D, clamping and counting into QCLAMP. -/
  | qcvt (s : BitVec 2) (d a : BitVec 7) (f : BitVec 4) (r : BitVec 3)
  /-- BMAXA (R117): Each issuing lane receives the largest magnitude of A across its block of issuing lanes. -/
  | bmaxa (s : BitVec 2) (d a i : BitVec 7)
  /-- SCALEF (R118): Each issuing lane turns a magnitude into an MX or BSF4 scale code. -/
  | scalef (s : BitVec 2) (d a : BitVec 7) (f : BitVec 4)
  /-- RAND (R122): Each issuing lane writes the generator H of the key pair, counter A and draw d. -/
  | rand (s : BitVec 2) (d a : BitVec 7) (e : BitVec 2) (k : BitVec 5)
  /-- MOVI (R123): Each issuing lane writes the low 32 bits of the immediate to D. -/
  | movi (s : BitVec 2) (d : BitVec 7) (i : BitVec 14)
  /-- RDS (R123): Each issuing lane reads the named special register into D or a pair. -/
  | rds (s : BitVec 2) (d : BitVec 7) (i : BitVec 14)
  /-- LD (R130): Each issuing lane loads 1-16 bytes at its effective address, zero-extended, on the general path. -/
  | ld (s : BitVec 2) (d o : BitVec 7) (a : BitVec 4) (z : BitVec 3)
  /-- LDS (R130): Each issuing lane loads 1 or 2 bytes sign-extended to 32 bits. -/
  | lds (s : BitVec 2) (d o : BitVec 7) (a : BitVec 4) (z : BitVec 3)
  /-- ST (R130): Each issuing lane stores the low bytes of D at its effective address. -/
  | st (s : BitVec 2) (d o : BitVec 7) (a : BitVec 4) (z : BitVec 3)
  /-- LDK (R131): Each issuing lane loads through the constant path. -/
  | ldk (s : BitVec 2) (d o : BitVec 7) (a : BitVec 4) (z : BitVec 3)
  /-- LDGA (R131): Each issuing lane loads through the gather path. -/
  | ldga (s : BitVec 2) (d o : BitVec 7) (a : BitVec 4) (z : BitVec 3)
  /-- PREF (R132): Each issuing lane asks for its line to be brought into L1, the cluster cache or L2, never trapping on the address. -/
  | pref (s : BitVec 2) (o : BitVec 7) (a : BitVec 4) (z : BitVec 3)
  /-- LDX (R133): Each issuing lane loads at a 64-bit address pair plus a scaled offset. -/
  | ldx (s : BitVec 2) (d o : BitVec 7) (a : BitVec 4) (z : BitVec 3)
  /-- STX (R133): Each issuing lane stores at a 64-bit address pair plus a scaled offset. -/
  | stx (s : BitVec 2) (d o : BitVec 7) (a : BitVec 4) (z : BitVec 3)
  /-- LDL (R134): Each issuing lane loads from the team's local address space. -/
  | ldl (s : BitVec 2) (d o : BitVec 7) (a : BitVec 4) (z : BitVec 3)
  /-- STL (R134): Each issuing lane stores to the team's local address space. -/
  | stl (s : BitVec 2) (d o : BitVec 7) (a : BitVec 4) (z : BitVec 3)
  /-- LDW (R135): Each issuing lane waits for its word to be full and reads it, as an acquire at .dev. -/
  | ldw (s : BitVec 2) (d o : BitVec 7) (a : BitVec 4)
  /-- LDC (R135): Each issuing lane waits for its word to be full, reads it and sets it empty. -/
  | ldc (s : BitVec 2) (d o : BitVec 7) (a : BitVec 4)
  /-- STF (R135): Each issuing lane waits for its word to be empty, writes it and sets it full, as a release. -/
  | stf (s : BitVec 2) (d o : BitVec 7) (a : BitVec 4)
  /-- STFS (R135): Each issuing lane writes its word and sets it full, raising double_fill if already full. -/
  | stfs (s : BitVec 2) (d o : BitVec 7) (a : BitVec 4)
  /-- FESET (R135): Each issuing lane sets its word's full/empty bit to D bit 0, leaving the data. -/
  | feset (s : BitVec 2) (d o : BitVec 7) (a : BitVec 4)
  /-- FEGET (R135): Each issuing lane reads its word's full/empty bit into D. -/
  | feget (s : BitVec 2) (d o : BitVec 7) (a : BitVec 4)
  /-- ATADD (R138): Each issuing lane atomically adds D to its word at the home slice and returns the old value. -/
  | atadd (s : BitVec 2) (d o : BitVec 7) (a : BitVec 4) (z : BitVec 3)
  /-- ATMIN (R138): Each issuing lane atomically takes the minimum with its word and returns the old value. -/
  | atmin (s : BitVec 2) (d o : BitVec 7) (a : BitVec 4) (z : BitVec 3)
  /-- ATMAX (R138): Each issuing lane atomically takes the maximum with its word and returns the old value. -/
  | atmax (s : BitVec 2) (d o : BitVec 7) (a : BitVec 4) (z : BitVec 3)
  /-- ATAND (R138): Each issuing lane atomically ANDs D into its word and returns the old value. -/
  | atand (s : BitVec 2) (d o : BitVec 7) (a : BitVec 4) (z : BitVec 3)
  /-- ATOR (R138): Each issuing lane atomically ORs D into its word and returns the old value. -/
  | ator (s : BitVec 2) (d o : BitVec 7) (a : BitVec 4) (z : BitVec 3)
  /-- ATXOR (R138): Each issuing lane atomically XORs D into its word and returns the old value. -/
  | atxor (s : BitVec 2) (d o : BitVec 7) (a : BitVec 4) (z : BitVec 3)
  /-- ATXCH (R138): Each issuing lane atomically exchanges D with its word. -/
  | atxch (s : BitVec 2) (d o : BitVec 7) (a : BitVec 4) (z : BitVec 3)
  /-- ATCAS (R140): Each issuing lane atomically compares its word with D's low half and stores the high half on a match. -/
  | atcas (s : BitVec 2) (d o : BitVec 7) (a : BitVec 4) (z : BitVec 3)
  /-- REDADD (R141): Each issuing lane adds D into its word at the home slice, returning nothing. -/
  | redadd (s : BitVec 2) (d o : BitVec 7) (a : BitVec 4) (z : BitVec 3)
  /-- REDMIN (R141): Each issuing lane takes the minimum into its word, returning nothing. -/
  | redmin (s : BitVec 2) (d o : BitVec 7) (a : BitVec 4) (z : BitVec 3)
  /-- REDMAX (R141): Each issuing lane takes the maximum into its word, returning nothing. -/
  | redmax (s : BitVec 2) (d o : BitVec 7) (a : BitVec 4) (z : BitVec 3)
  /-- REDAND (R141): Each issuing lane ANDs D into its word, returning nothing. -/
  | redand (s : BitVec 2) (d o : BitVec 7) (a : BitVec 4) (z : BitVec 3)
  /-- REDOR (R141): Each issuing lane ORs D into its word, returning nothing. -/
  | redor (s : BitVec 2) (d o : BitVec 7) (a : BitVec 4) (z : BitVec 3)
  /-- REDXOR (R141): Each issuing lane XORs D into its word, returning nothing. -/
  | redxor (s : BitVec 2) (d o : BitVec 7) (a : BitVec 4) (z : BitVec 3)
  /-- APPEND (R142): Each issuing lane places a record at the tail of an append page, trapping write_after_seal on a sealed page. -/
  | append (s : BitVec 2) (d o : BitVec 7) (a : BitVec 4) (z : BitVec 3)
  /-- APPENDT (R142): Each issuing lane places a record at the tail of an append page, returning 0xFFFF_FFFE on a sealed page. -/
  | appendt (s : BitVec 2) (d o : BitVec 7) (a : BitVec 4) (z : BitVec 3)
  /-- LATADD (R144): Each issuing lane atomically adds D to a local store word and returns the old value. -/
  | latadd (s : BitVec 2) (d o : BitVec 7) (a : BitVec 4) (z : BitVec 3)
  /-- LATMIN (R144): Each issuing lane atomically takes the minimum with a local store word. -/
  | latmin (s : BitVec 2) (d o : BitVec 7) (a : BitVec 4) (z : BitVec 3)
  /-- LATMAX (R144): Each issuing lane atomically takes the maximum with a local store word. -/
  | latmax (s : BitVec 2) (d o : BitVec 7) (a : BitVec 4) (z : BitVec 3)
  /-- LATCAS (R144): Each issuing lane atomically compares and swaps a local store word. -/
  | latcas (s : BitVec 2) (d o : BitVec 7) (a : BitVec 4) (z : BitVec 3)
  /-- BRA (R145): Each issuing thread jumps to the branch target. -/
  | bra (s : BitVec 2) (i : BitVec 21)
  /-- BNZ (R145): Each issuing thread branches where its condition register is non-zero. -/
  | bnz (s : BitVec 2) (c : BitVec 7) (i : BitVec 14)
  /-- BZ (R145): Each issuing thread branches where its condition register is zero. -/
  | bz (s : BitVec 2) (c : BitVec 7) (i : BitVec 14)
  /-- CALL (R146): Each issuing thread pushes a return entry and jumps to the target. -/
  | call (s : BitVec 2) (i : BitVec 21)
  /-- CALLR (R146): Each issuing thread pushes a return entry and jumps to the address in its register pair. -/
  | callr (s : BitVec 2) (a : BitVec 7)
  /-- RET (R147): Each issuing thread pops a return entry and jumps to it. -/
  | ret (s : BitVec 2)
  /-- JMPR (R148): Each issuing thread jumps to the address in its register pair. -/
  | jmpr (s : BitVec 2) (a : BitVec 7)
  /-- MEET (R149): Each issuing thread pushes its meeting register and sets a new meeting address. -/
  | meet (s : BitVec 2) (i : BitVec 21)
  /-- EXIT (R150): Each issuing thread ends, discarding its stack. -/
  | exit (s : BitVec 2)
  /-- TRAPL (R151): Raises the user-level cause TRAP for the whole issue set with a code. -/
  | trapl (s : BitVec 2) (i : BitVec 21)
  /-- BKPTL (R151): Halts a debugged group as a breakpoint, otherwise does nothing. -/
  | bkptl (s : BitVec 2) (i : BitVec 21)
  /-- NOP (R151): Has no effect. -/
  | nop (s : BitVec 2)
  /-- GADD (R156): Writes the 32-bit wrapping sum of two G registers. -/
  | gadd (s : BitVec 2) (d a b : BitVec 7)
  /-- GSUB (R156): Writes the 32-bit wrapping difference of two G registers. -/
  | gsub (s : BitVec 2) (d a b : BitVec 7)
  /-- GMUL (R156): Writes the low 32 bits of the product of two G registers. -/
  | gmul (s : BitVec 2) (d a b : BitVec 7)
  /-- GMULHI (R156): Writes the high 32 bits of the signed product of two G registers. -/
  | gmulhi (s : BitVec 2) (d a b : BitVec 7)
  /-- GNMULHI (R156): Writes the high 32 bits of the unsigned product of two G registers. -/
  | gnmulhi (s : BitVec 2) (d a b : BitVec 7)
  /-- GAND (R156): Writes the bitwise AND of two G registers. -/
  | gand (s : BitVec 2) (d a b : BitVec 7)
  /-- GOR (R156): Writes the bitwise OR of two G registers. -/
  | gor (s : BitVec 2) (d a b : BitVec 7)
  /-- GXOR (R156): Writes the bitwise XOR of two G registers. -/
  | gxor (s : BitVec 2) (d a b : BitVec 7)
  /-- GSHL (R156): Shifts a G register left by another mod 32. -/
  | gshl (s : BitVec 2) (d a b : BitVec 7)
  /-- GSHR (R156): Shifts a G register right logically by another mod 32. -/
  | gshr (s : BitVec 2) (d a b : BitVec 7)
  /-- GSAR (R156): Shifts a G register right arithmetically by another mod 32. -/
  | gsar (s : BitVec 2) (d a b : BitVec 7)
  /-- GMIN (R156): Writes the signed minimum of two G registers. -/
  | gmin (s : BitVec 2) (d a b : BitVec 7)
  /-- GMAX (R156): Writes the signed maximum of two G registers. -/
  | gmax (s : BitVec 2) (d a b : BitVec 7)
  /-- GNMIN (R156): Writes the unsigned minimum of two G registers. -/
  | gnmin (s : BitVec 2) (d a b : BitVec 7)
  /-- GNMAX (R156): Writes the unsigned maximum of two G registers. -/
  | gnmax (s : BitVec 2) (d a b : BitVec 7)
  /-- GSLT (R156): Writes 1 when one G register is signed-less than another. -/
  | gslt (s : BitVec 2) (d a b : BitVec 7)
  /-- GSLE (R156): Writes 1 when one G register is signed-less-or-equal to another. -/
  | gsle (s : BitVec 2) (d a b : BitVec 7)
  /-- GNSLT (R156): Writes 1 when one G register is unsigned-less than another. -/
  | gnslt (s : BitVec 2) (d a b : BitVec 7)
  /-- GNSLE (R156): Writes 1 when one G register is unsigned-less-or-equal to another. -/
  | gnsle (s : BitVec 2) (d a b : BitVec 7)
  /-- GEQ (R156): Writes 1 when two G registers are equal. -/
  | geq (s : BitVec 2) (d a b : BitVec 7)
  /-- GNE (R156): Writes 1 when two G registers differ. -/
  | gne (s : BitVec 2) (d a b : BitVec 7)
  /-- GSEL (R156): Writes A to D where D is non-zero, else B. -/
  | gsel (s : BitVec 2) (d a b : BitVec 7)
  /-- GADD64 (R157): Writes the 64-bit wrapping sum of two G pairs. -/
  | gadd64 (s : BitVec 2) (d a b : BitVec 7)
  /-- GSUB64 (R157): Writes the 64-bit wrapping difference of two G pairs. -/
  | gsub64 (s : BitVec 2) (d a b : BitVec 7)
  /-- GSHL64 (R157): Shifts a G pair left by a G register mod 64. -/
  | gshl64 (s : BitVec 2) (d a b : BitVec 7)
  /-- GSHR64 (R157): Shifts a G pair right logically by a G register mod 64. -/
  | gshr64 (s : BitVec 2) (d a b : BitVec 7)
  /-- GMADW (R157): Adds the signed 64-bit product of two G registers to a G pair. -/
  | gmadw (s : BitVec 2) (d a b : BitVec 7)
  /-- LBALLOT (R165): Writes a 64-bit mask of issuing lanes whose source is non-zero. -/
  | lballot (s : BitVec 2) (d a : BitVec 7)
  /-- LANY (R165): Writes 1 when some issuing lane's source is non-zero. -/
  | lany (s : BitVec 2) (d a : BitVec 7)
  /-- LALL (R165): Writes 1 when every issuing lane's source is non-zero. -/
  | lall (s : BitVec 2) (d a : BitVec 7)
  /-- LREAD (R165): Reads one thread's register, chosen by a G register, into a G register. -/
  | lread (s : BitVec 2) (d a b : BitVec 7)
  /-- LWRITE (R165): Writes a G register's value into one issuing lane's V register. -/
  | lwrite (s : BitVec 2) (d a b : BitVec 7)
  /-- LSUM (R165): Writes the wrapping integer sum of the issuing lanes' sources. -/
  | lsum (s : BitVec 2) (d a : BitVec 7)
  /-- LFSUM (R166): Writes the binary32 sum of the issuing lanes' sources in lane order, rounding each step. -/
  | lfsum (s : BitVec 2) (d a : BitVec 7)
  /-- LMAX (R165): Writes the signed maximum over the issuing lanes. -/
  | lmax (s : BitVec 2) (d a : BitVec 7)
  /-- LMIN (R165): Writes the signed minimum over the issuing lanes. -/
  | lmin (s : BitVec 2) (d a : BitVec 7)
  /-- LFMAX (R165): Writes the binary32 maximum over the issuing lanes in lane order. -/
  | lfmax (s : BitVec 2) (d a : BitVec 7)
  /-- LPOPC (R165): Writes the number of issuing lanes whose source is non-zero. -/
  | lpopc (s : BitVec 2) (d a : BitVec 7)
  /-- LFIRST (R165): Writes the least issuing lane whose source is non-zero, or all ones. -/
  | lfirst (s : BitVec 2) (d a : BitVec 7)
  /-- GFADD (R158): Writes the binary32 sum of two G registers. -/
  | gfadd (s : BitVec 2) (d a b : BitVec 7)
  /-- GFMUL (R158): Writes the binary32 product of two G registers. -/
  | gfmul (s : BitVec 2) (d a b : BitVec 7)
  /-- GFFMA (R158): Writes A times B plus D in binary32 with one rounding. -/
  | gffma (s : BitVec 2) (d a b : BitVec 7)
  /-- GFMIN (R158): Writes the binary32 minimum of two G registers. -/
  | gfmin (s : BitVec 2) (d a b : BitVec 7)
  /-- GFMAX (R158): Writes the binary32 maximum of two G registers. -/
  | gfmax (s : BitVec 2) (d a b : BitVec 7)
  /-- GFSLT (R158): Writes 1 when two G registers are ordered and A < B in binary32. -/
  | gfslt (s : BitVec 2) (d a b : BitVec 7)
  /-- GMOVI (R159): Writes the low 32 bits of the immediate to a G register. -/
  | gmovi (s : BitVec 2) (d : BitVec 7) (i : BitVec 14)
  /-- GADDI (R159): Adds a signed immediate to a G register. -/
  | gaddi (s : BitVec 2) (d a i : BitVec 7)
  /-- GANDI (R159): ANDs a signed immediate into a G register. -/
  | gandi (s : BitVec 2) (d a i : BitVec 7)
  /-- GORI (R159): ORs an unsigned immediate into a G register. -/
  | gori (s : BitVec 2) (d a i : BitVec 7)
  /-- GSHLI (R159): Shifts a G register left by a fixed count. -/
  | gshli (s : BitVec 2) (d a i : BitVec 7)
  /-- GSHRI (R159): Shifts a G register right logically by a fixed count. -/
  | gshri (s : BitVec 2) (d a i : BitVec 7)
  /-- GLUI (R159): Writes a 14-bit value into bits 31:18 of a G register, keeping its low bits. -/
  | glui (s : BitVec 2) (d : BitVec 7) (i : BitVec 14)
  /-- GRDS (R160): Reads a special register into a G register or pair. -/
  | grds (s : BitVec 2) (d : BitVec 7) (i : BitVec 14)
  /-- GWRS (R160): Writes a special register from a G register or pair. -/
  | gwrs (s : BitVec 2) (d : BitVec 7) (i : BitVec 14)
  /-- EXT (R58): Supplies the high bits of the follower's immediate and issues with it as one instruction. -/
  | ext (s : BitVec 2) (e : BitVec 21) (w : Word)
  /-- FENCE (R168): Orders the issuing threads' accesses on the named paths as a release, acquire or both at a scope. -/
  | fence (s k : BitVec 2) (p : BitVec 3) (h : BitVec 4)
  /-- BAR_WAIT (R170): Arrives at a team barrier and blocks until its phase completes. -/
  | barWait (s : BitVec 2) (d a : BitVec 7) (n : BitVec 3)
  /-- BAR_ARRIVE (R170): Arrives at a team barrier and returns at once. -/
  | barArrive (s : BitVec 2) (d a : BitVec 7) (n : BitVec 3)
  /-- WAIT (R175): Installs monitors for a wait block and blocks until its conditions hold or the timeout passes. -/
  | wait (s : BitVec 2) (d a b : BitVec 7)
  /-- YIELD (R176): Holds its issue set until the group is at a blocking point, where it may be evicted. -/
  | yield (s : BitVec 2)
  /-- GLD (R178): Loads a uniform value on the general path into G registers. -/
  | gld (s : BitVec 2) (d : BitVec 7) (a : BitVec 4) (z : BitVec 3) (i : BitVec 7)
  /-- GST (R178): Stores a uniform value from G registers. -/
  | gst (s : BitVec 2) (d : BitVec 7) (a : BitVec 4) (z : BitVec 3) (i : BitVec 7)
  /-- GLDK (R178): Loads a uniform value on the constant path. -/
  | gldk (s : BitVec 2) (d : BitVec 7) (a : BitVec 4) (z : BitVec 3) (i : BitVec 7)
  /-- GATOM (R179): Performs one uniform atomic operation at the word's home slice and returns the old value. -/
  | gatom (s : BitVec 2) (d : BitVec 7) (a : BitVec 4) (z : BitVec 3) (p : BitVec 4)
  /-- CPY (R180): Reads a copy command block from local store, checks and registers its ranges and posts it to a carter. -/
  | cpy (s : BitVec 2) (d a : BitVec 7)
  /-- CPYQ (R184): Posts a quantising copy from a binary32 tensor to an MX or BSF4 tensor. -/
  | cpyq (s : BitVec 2) (d a : BitVec 7)
  /-- CPYSTAT (R186): Writes the status of the carter command with a given ticket. -/
  | cpystat (s : BitVec 2) (d a : BitVec 7)
  /-- JPOST (R190): Releases at .dev and offers a launch card to a cluster, device or engine queue. -/
  | jpost (s : BitVec 2) (d a b : BitVec 7)
  /-- SEAL (R191): Seals an append page at its home slice and returns its tail. -/
  | sealPage (s : BitVec 2) (d a : BitVec 7)
  /-- TXBEGIN (R192): Opens the team's tile transaction under a ladder and chooses its rung. -/
  | txbegin (s : BitVec 2) (d a : BitVec 7) (l : BitVec 3)
  /-- TXCOMMIT (R193): Waits for the transaction's Loom commands, then commits, re-queues or raises ladder_exhausted by the monitors. -/
  | txcommit (s : BitVec 2) (d : BitVec 7)
  /-- TXCOMMIT_FORCE (R193): In a ladder_exhausted handler, commits the tripped transaction with FORCED. -/
  | txcommitForce (s : BitVec 2) (d : BitVec 7)
  /-- TXABORT (R194): Discards the transaction's log, shadows and deferred commands and restores the scratchpad. -/
  | txabort (s : BitVec 2)
  /-- TXSTAT (R195): Reads a monitor count or log usage of the open transaction. -/
  | txstat (s : BitVec 2) (d : BitVec 7) (e : BitVec 2)
  /-- TTLOAD (R196): Loads consecutive tensor table entries from a memory image into the team's table. -/
  | ttload (s : BitVec 2) (d a b : BitVec 7)
  /-- TTSET (R197): Writes one field of a tensor table entry. -/
  | ttset (s : BitVec 2) (f a b : BitVec 7)
  /-- SETPK (R198): Changes KEYPERM under a mask, limited by KEYMAX. -/
  | setpk (s : BitVec 2) (a b : BitVec 7)
  /-- GETPK (R199): Reads KEYPERM or KEYMAX into a G pair. -/
  | getpk (s : BitVec 2) (d : BitVec 7) (e : BitVec 1)
  /-- RDTIME (R200): Reads the device time counter in ns into a G pair. -/
  | rdtime (s : BitVec 2) (d : BitVec 7)
  /-- DIGEST (R201): Reads the issuing task's digest. -/
  | digest (s : BitVec 2) (d : BitVec 7)
  /-- DIGEST_FOLD (R201): Folds F of a G pair into the task digest and returns it. -/
  | digestFold (s : BitVec 2) (d a : BitVec 7)
  /-- GBRA (R202): Moves the whole issue set to the branch target. -/
  | gbra (s : BitVec 2) (i : BitVec 21)
  /-- GBNZ (R202): Branches the whole issue set when a G register is non-zero. -/
  | gbnz (s : BitVec 2) (c : BitVec 7) (i : BitVec 14)
  /-- GBZ (R202): Branches the whole issue set when a G register is zero. -/
  | gbz (s : BitVec 2) (c : BitVec 7) (i : BitVec 14)
  /-- GEXIT (R203): Ends every thread of the issue set. -/
  | gexit (s : BitVec 2)
  /-- TRAP (R204): Raises the user-level cause TRAP for the issue set with a code. -/
  | trap (s : BitVec 2) (i : BitVec 21)
  /-- TRAPRET (R219): Ends the trap handler, sending the handler's threads to TRAPPC and clearing HND. -/
  | trapret (s : BitVec 2)
  /-- BKPT (R204): Halts a debugged group as a breakpoint for the issue set. -/
  | bkpt (s : BitVec 2) (i : BitVec 21)
  /-- GNOP (R204): Has no effect. -/
  | gnop (s : BitVec 2)
  /-- MLOADB (R306): Posts a Loom command that loads one 64x64 panel of a tensor into a B slot. -/
  | mloadb (s : BitVec 2) (b : BitVec 5) (q : BitVec 4) (l : BitVec 1)
  /-- MLOOP (R307): Posts nk Loom steps of A against consecutive slots into an accumulator, added in ascending k. -/
  | mloop (s : BitVec 2) (c : BitVec 3) (q : BitVec 4) (l : BitVec 1) (b n : BitVec 5) (z : BitVec 1)
  /-- MLOOPG (R309): Posts an MLOOP ordered by graph tags instead of increments. -/
  | mloopg (s : BitVec 2) (c : BitVec 3) (q : BitVec 4) (l : BitVec 1) (b n : BitVec 5) (z : BitVec 1)
  /-- MFENCE (R313): Orders later Loom commands on the named accumulators and slots after earlier ones. -/
  | mfence (s : BitVec 2) (m : BitVec 8) (b h : BitVec 1)
  /-- MZERO (R310): Posts a Loom command that zeroes an accumulator. -/
  | mzero (s : BitVec 2) (c : BitVec 3)
  /-- MSTORE (R312): Posts a Loom command converting an accumulator into a tensor. -/
  | mstore (s : BitVec 2) (c : BitVec 3) (q : BitVec 4) (r : BitVec 3) (t : BitVec 1)
  /-- MREAD (R311): Reads one accumulator row segment into a V register of the issuing lanes. -/
  | mread (s : BitVec 2) (d : BitVec 7) (c : BitVec 3) (a : BitVec 7)
  /-- MWRITE (R311): Writes a V register of the issuing lanes into one accumulator row segment. -/
  | mwrite (s : BitVec 2) (d : BitVec 7) (c : BitVec 3) (a : BitVec 7)
  /-- MSTAT (R314): Reads the core's Loom busy state into a G register. -/
  | mstat (s : BitVec 2) (d : BitVec 7)
  /-- DEVICE_QUEUE_TAKE (R335): The dispatcher takes the next entry of the highest-priority enabled device queue and accepts or refuses its card. -/
  | deviceQueueTake
  /-- CLUSTER_QUEUE_TAKE (R336): The dispatcher takes a card from a cluster queue in posting order. -/
  | clusterQueueTake (cluster : Nat)
  /-- TEAM_PLACE (R343): The dispatcher places a whole team on a qualifying core or pair and starts its groups. -/
  | teamPlace (launch core : Nat)
  /-- GROUP_RESTORE (R30): An evicted group whose wake condition holds is restored to a core of its C-die. -/
  | groupRestore (group core : Nat)
  /-- PREEMPTION_REQUEST (R224): A pre-emption request names a group and waits for a blocking point outside handler and halt. -/
  | preemptionRequest (group : Nat)
  /-- GROUP_EVICT (R26): A group at a blocking point completes a FENCE FULL at .dev and has its state and wake conditions saved. -/
  | groupEvict (group : Nat)
  /-- PENDING_WRITE_LANDS (R63): A variable-latency result lands, its register is written and its pending bit cleared, or poison freezes the group. -/
  | pendingWriteLands (req lease : Nat)
  /-- SLICE_STORE_PERFORM (R269): A store is performed at its home slice and a completion time is returned. -/
  | sliceStorePerform (req part : Nat)
  /-- SLICE_ATOMIC_PERFORM (R139): An atomic or reduction request is performed indivisibly at the home slice in lane order. -/
  | sliceAtomicPerform (req : Nat)
  /-- SLICE_APPEND_PERFORM (R142): An append request places its lanes' records at the page tail or refuses them on a sealed page. -/
  | sliceAppendPerform (req : Nat)
  /-- SLICE_SEAL_PERFORM (R191): A seal request marks the page sealed at its home slice and returns its tail. -/
  | sliceSealPerform (req : Nat)
  /-- SLICE_FE_ACCESS (R254): An F/E access is performed at the home slice or held by a monitor, park record or polling. -/
  | sliceFeAccess (req : Nat)
  /-- LEASE_EXPIRY (R268): A cached copy's lease expires and the cache drops it. -/
  | leaseExpiry (copy : Nat)
  /-- GROUP_STARVED (R29): A group ready for 512 front-end clocks without a grant becomes starved. -/
  | groupStarved (group : Nat)
  /-- WAIT_TIMEOUT (R175): A WAIT's timeout passes and the WAIT ends with 0xFFFF_FFFF. -/
  | waitTimeout (group wait : Nat)
  /-- WAIT_POLL (R259): A polled WAIT condition is evaluated every 256 ref ticks. -/
  | waitPoll (group wait : Nat)
  /-- FE_POLL_TRY (R136): A polled F/E lane is tried at its home slice every 256 ref ticks. -/
  | fePollTry (req : Nat)
  /-- FE_TIMEOUT (R137): A waiting F/E lane's FEBUDGET runs out and fe_timeout is raised on the lanes still waiting. -/
  | feTimeout (req : Nat)
  /-- GATE_POLL (R341): A gate without a gate monitor is polled every 256 ref ticks until its word is full. -/
  | gatePoll (launch gate : Nat)
  /-- PLACEMENT_WAIT_EXPIRY (R345): A team waiting 100 us without a qualifying core causes pre-emption of lower-priority groups. -/
  | placementWaitExpiry (launch core : Nat)
  /-- LAUNCH_QUIET (R353): The quiet tree holds for 64 ref ticks and the launch is treated as ended. -/
  | launchQuiet (launch : Nat)
  /-- HALT_AT_BOUNDARY (R228): A group with HALTREQ set halts at its next instruction boundary. -/
  | haltAtBoundary (core slot : Nat)
  /-- CARTER_START (R183): A queued carter command starts on a free carter once no earlier overlapping range is held. -/
  | carterStart (cmd carter : Nat)
  /-- CARTER_PAYLOAD_COMPLETE (R183): Every payload write of a carter command is performed, its ranges are released and it reaches STATE 2. -/
  | carterPayloadComplete (carter : Nat)
  /-- CARTER_COMPLETION_WORD (R183): Once payload completion times pass, the carter writes and fills its completion word as a release. -/
  | carterCompletionWord (carter : Nat)
  /-- CARTER_POISON (R188): A carter that reads poisoned data freezes with STATE 3 and keeps its ranges. -/
  | carterPoison (carter : Nat)
  /-- LOOM_STEP_GRANT (R302): A free slot is granted to a ready Loom step by priority, age and k. -/
  | loomStepGrant (cmd k : Nat)
  /-- LOOM_COMMAND_RETIRE (R315): A Loom command's last effect is performed, its ranges and tags are released and it retires. -/
  | loomCommandRetire (cmd : Nat)
  /-- TX_PREEMPT_EXPIRY (R328): A pre-emption waiting 10,000 ref ticks on an open transaction ends it for replay at its rung. -/
  | txPreemptExpiry (group : Nat)
  /-- OVERFLOW_INTERVAL (R253): At the end of each 16 us interval the overflow store size moves by at most one step. -/
  | overflowInterval (core acc gain loss ovd : Nat)
  /-- HARDWARE_PREFETCH (R245): A core's own prefetch, scout or wrong-path access is made or dropped and counted in DROPPF. -/
  | hardwarePrefetch (group : Nat) (access : OwnAccess) (va : DWord) (lease : Nat)
  /-- REPLICA_DROP (R262): A die drops a replica of a sealed page at a time of its choosing. -/
  | replicaDrop (die page : Nat)
  /-- PEER_REQUEST_ARRIVE (R286): A request from a Weft peer is performed at this device's home slice. -/
  | peerRequestArrive (op : PeerOp)
  /-- PEER_TIMEOUT (R384): A peer request unanswered within 100,000 ref ticks is poisoned or dropped with record 0x45. -/
  | peerTimeout (req : Nat)
  /-- MYENT_READ (R383): A host read of 1-64 bytes is performed at the home slice or window. -/
  | myentRead (pa n : Nat)
  /-- MYENT_POSTED_WRITE (R383): A host posted write is performed in link order. -/
  | myentPostedWrite (pa : Nat) (data : List Byte)
  /-- MYENT_FETCH_ADD (R383): A host 8-byte fetch-add is performed at the home slice. -/
  | myentFetchAdd (pa : Nat) (add : DWord)
  /-- MYENT_COMPARE_AND_SWAP (R383): A host 8-byte compare-and-swap is performed at the home slice. -/
  | myentCompareAndSwap (pa : Nat) (cmp new : DWord)
  /-- QUEUE_TAIL_WRITE (R333): A host write to a device queue's TAIL publishes entries unless DEVPOST or overflow forbids it. -/
  | queueTailWrite (queue : Nat) (tail : Half)
  /-- QUEUE_ENABLE (R333): A write setting EN in a queue descriptor enables it only if the ring and context fields are valid. -/
  | queueEnable (queue : Nat) (flags : DWord)
  /-- KILL (R357): A write of a launch number starts its kill, ending its tasks and removing its unplaced teams. -/
  | kill (v : Word)
  /-- CARTREL (R377): A write of a frozen carter's number releases its registered ranges. -/
  | cartrel (v : Word)
  /-- RESDONE (R382): A host write of a launch number makes the dispatcher walk that launch's tables again. -/
  | resdone (v : Word)
  /-- FREEPG (R263): A write starts freeing an append page, checking its address. -/
  | freepg (die : Nat) (v : DWord)
  /-- FREE_PAGE_DONE (R263): Once no lease holds the page, replicas are invalidated, the tail word reset and DONE set. -/
  | freePageDone (die : Nat)
  /-- L2QUOTA (R247): A write sets the L2 way quotas, ignored whole if they sum above 16. -/
  | l2quota (die : Nat) (v : Word)
  /-- ASSAYCLR (R330): Writing 1 to CLEAR starts emptying the assay table. -/
  | assayclr (v : Word)
  /-- ASSAY_TABLE_EMPTY (R330): The assay table becomes empty and the device clears CLEAR. -/
  | assayTableEmpty
  /-- HALTREQ (R228): A GCTL write setting HALTREQ requests a halt of the group in that slot. -/
  | haltreq (core slot : Nat) (v : Word)
  /-- GROUP_RESUME (R230): Writing 1 to GSTAT.HALTED resumes the group, issuing its next instruction without comparators. -/
  | groupResume (core slot : Nat)
  /-- FROZEN_RELEASE (R223): Writing 1 to GSTAT.FROZEN discards a frozen group's state and frees its resources. -/
  | frozenRelease (core slot : Nat)
  /-- CLKCTL (R368): A write sets a cluster's clocks, requested pass count and current limit, or is ignored with BADW. -/
  | clkctl (by_ : Agent) (cluster : Nat) (v : Word)
  /-- CLOCK_CHANGE_APPLY (R369): A change of pass count, FE or ratio takes effect between instructions, holding issue up to 200 ns. -/
  | clockChangeApply (cluster : Nat)
  /-- DROOP_DETECT (R371): A detected droop raises the droop floor to P = 4 and stops new Loom step grants. -/
  | droopDetect (cluster : Nat)
  /-- DROOP_FLOOR_RELEASE (R371): 10 us after the last droop the droop floor falls to P = 1. -/
  | droopFloorRelease (cluster : Nat)
  /-- CURRENT_INTERVAL (R372): At the end of each 1 us current average the current floor may rise, or fall after 10 us below 90 percent. -/
  | currentInterval (cluster average : Nat)
  /-- THERMAL_LEVEL_CHANGE (R373): A cluster's junction temperature crosses a threshold and its thermal level halves or stops its lane clock. -/
  | thermalLevelChange (cluster celsius : Nat)
  /-- SMHB (R374): A write restarts the die's 10 ms Smithy watchdog and can clear EXPIRED. -/
  | smhb (by_ : Agent) (die : Nat) (v : Word)
  /-- SMCTL (R374): A write of UPD puts the die under or out of the safe table. -/
  | smctl (by_ : Agent) (die : Nat) (v : Word)
  /-- WATCHDOG_EXPIRY (R374): The Smithy watchdog runs out, setting EXPIRED and imposing the safe table. -/
  | watchdogExpiry (die : Nat)
  /-- RAIL_STEP_UP (R375): The 10 mV guard-band step completes, RAILUP is set and waiting MLOOPs are accepted. -/
  | railStepUp (cluster : Nat)
  /-- GUARD_BAND_DOWN (R375): 50 us after the cluster's last Loom step the guard-band step is dropped and RAILUP cleared. -/
  | guardBandDown (cluster : Nat)
  /-- MIGREQ (R376): A Smithy write asks the dispatcher to move an HC3 team, which is moved or dropped. -/
  | migreq (by_ : Agent) (die : Nat) (v : Word)
  /-- UE_SEND (R387): The engine takes a send card, checks it and sends its buffer to an endpoint. -/
  | ueSend (queue : Nat)
  /-- UE_TAGGED_SEND (R387): The engine takes a tagged send card and sends its buffer with a tag. -/
  | ueTaggedSend (queue : Nat)
  /-- UE_PUT (R387): The engine takes a put card and writes its buffer to remote memory. -/
  | uePut (queue : Nat)
  /-- UE_GET (R387): The engine takes a get card and reads remote memory into its buffer. -/
  | ueGet (queue : Nat)
  /-- UE_POST_TAGGED_RECEIVE (R387): The engine takes a card posting a tagged receive buffer. -/
  | uePostTaggedReceive (queue : Nat)
  /-- UE_POST_RECEIVE (R387): The engine takes a card posting a receive buffer. -/
  | uePostReceive (queue : Nat)
  /-- UE_PACKET_ARRIVE (R385): A transport packet arrives on a port and is matched to a posted receive or RMA. -/
  | uePacketArrive (packet : UePacket)
  /-- UE_CARD_COMPLETE (R387): An engine card completes and its completion word is written and filled as a release. -/
  | ueCardComplete (card : Nat) (outcome : UeOutcome)
  /-- CORRECTED_ERROR (R389): A correctable soft error is corrected and counted, sending record 0x46 under RAS. -/
  | correctedError (place : ErrorPlace)
  /-- UNCORRECTABLE_ERROR (R389): An uncorrectable error poisons the affected 8-byte words. -/
  | uncorrectableError (place : ErrorPlace)
  /-- PATROL_SCRUB (R388): The patrol scrub rewrites every sector of every stack once per 24 hours. -/
  | patrolScrub
  /-- RESET (R391): Reset starts the boot ROM, which checks and runs the stage A image. -/
  | reset
  /-- STAGE_A_READY (R391): Stage A completes, STAGE reads 1 and message vector 1 is sent, or FAIL is set. -/
  | stageAReady (fcode : Nat) (fwver : Word)
  /-- BOOTCTL (R391): Writing 1 to GOB starts stage B with the image at PA 0. -/
  | bootctl (v : DWord)
  /-- STAGE_B_COMPLETE (R391): Stage B finishes bring-up, STAGE reads 3 and the watchdog starts, or FAIL is set. -/
  | stageBComplete (fcode : Nat) (fwver : Word)
  /-- ATTCTL (R392): Writing 1 copies the nonce and starts building an attestation report. -/
  | attctl (v : Word)
  /-- ATTESTATION_REPORT_READY (R392): The signed report is ready, ATTCTL reads 2 and message vector 2 is sent. -/
  | attestationReportReady
  /-- REGISTER_WRITE (R250): A write to a register with no behaviour of its own sets its writable fields. -/
  | registerWrite (by_ : Agent) (pa : Nat) (data : List Byte)
  /-- RESERVED_SLOT (R56): A word in a reserved slot, or one that matches no defined form, issues and traps illegal_op with its detail. -/
  | reservedSlot (w : Word)
  /-- LOOM_STEP_RETIRE (R320): A granted Loom step ends on its slot, is added to the accumulator in k order and is counted by the monitors. -/
  | loomStepRetire (cmd k : Nat)
  /-- PEER_ACKNOWLEDGEMENT (R286): A peer's acknowledgement that a store has been performed arrives over Weft, letting .sys releases complete. -/
  | peerAcknowledgement (req : Nat)
  /-- HOST_ACKNOWLEDGEMENT (R288): The host's acknowledgement of a device store to the host aperture arrives over Myent, letting .sys releases and release flushes complete. -/
  | hostAcknowledgement (req : Nat)
  /-- LINK_LEVEL_RETRY (R384): A Weft flit that arrives with a bad CRC is retried at link level until it is accepted. -/
  | linkLevelRetry
deriving DecidableEq, Repr

end Sys2Proof
end

