-- ==== Sys2Proof/Machine/Operands.lean ====
section
/-! DEFINITION. The operand forms of the instruction words: register kinds and their legal codes (spec/03 R13, R38 to R41),
immediates (R36), latencies (R62), special registers (R42, R43) and the order in which a defective word is reported (R45). -/

namespace Sys2Proof

/-- The register kinds of R41, with the G quad of R177, R179 and R305 (`gq`) and the key pair of RAND (`key`, R50). -/
inductive RegKind where
  | v | w | q | g | h | gq | x | y | a | key
deriving DecidableEq, Repr

/-- A register operand: its kind, its code, and whether it is read and written. -/
structure Operand where
  kind : RegKind
  code : Nat
  rd : Bool
  wr : Bool
deriving DecidableEq, Repr

/-- A register that an operand names: V n of a lane, or G n of the group. -/
inductive Reg where
  | v (n : Nat) | g (n : Nat)
deriving DecidableEq, Repr

/-- How many consecutive registers an operand names (R40). -/
def RegKind.count : RegKind → Nat
  | .v | .g | .x | .y => 1
  | .w | .h | .a | .key => 2
  | .q | .gq => 4

/-- The first register of an operand (R38, R39, R40; RAND's key pair G(2k), R50). -/
def Operand.first (o : Operand) : Reg :=
  match o.kind with
  | .v | .w | .q => if o.code < 112 then .v o.code else .g (o.code - 112)
  | .g | .h | .gq => .g o.code
  | .x | .y => if o.code < 64 then .g o.code else .v (o.code - 64)
  | .a => .g (32 + 2 * o.code)
  | .key => .g (2 * o.code)

/-- The registers an operand names, the lowest first (R40). -/
def Operand.regs (o : Operand) : List Reg :=
  (List.range o.kind.count).map (fun k => match o.first with
    | .v n => .v (n + k)
    | .g n => .g (n + k))

/-- What the checks of an instruction word depend on: the group's width and register counts (R13), whether the launch is
speculative (R10), the Loom slots that exist for it (12, or 24 with a lent partner, R306), and whether the group is in its
trap handler (R205). -/
structure Shape where
  width : Nat
  vregs : Nat
  gregs : Nat
  spec : Bool
  slots : Nat
  handler : Bool
deriving DecidableEq, Repr

/-- An operand's code is legal and every register it names exists (R13, R38 to R41). -/
def Operand.ok (sh : Shape) (o : Operand) : Bool :=
  let n := o.kind.count
  match o.kind with
  | .v | .w | .q =>
    if o.code < 112 then o.code % n == 0 && decide (o.code + n ≤ sh.vregs) && decide (o.code + n ≤ 112)
    else !o.wr && o.code % n == 0 && decide (o.code + n ≤ 128) && decide (o.code - 112 + n ≤ sh.gregs)
  | .g | .h | .gq => o.code % n == 0 && decide (o.code + n ≤ 64) && decide (o.code + n ≤ sh.gregs)
  | .x => if o.code < 64 then decide (o.code < sh.gregs) else decide (o.code - 64 < sh.vregs)
  | .y => decide (64 ≤ o.code) && decide (o.code - 64 < sh.vregs)
  | .a => decide (33 + 2 * o.code < sh.gregs)
  | .key => decide (2 * o.code + 1 < sh.gregs)

/-- An operand that is only read. -/
def srcOp (k : RegKind) (c : Nat) : Operand := { kind := k, code := c, rd := true, wr := false }
/-- An operand that is only written. -/
def dstOp (k : RegKind) (c : Nat) : Operand := { kind := k, code := c, rd := false, wr := true }
/-- An operand that is read and written, "+" in R41. -/
def updOp (k : RegKind) (c : Nat) : Operand := { kind := k, code := c, rd := true, wr := true }

def vS (c : BitVec 7) : Operand := srcOp .v c.toNat
def vD (c : BitVec 7) : Operand := dstOp .v c.toNat
def vU (c : BitVec 7) : Operand := updOp .v c.toNat
def wS (c : BitVec 7) : Operand := srcOp .w c.toNat
def wD (c : BitVec 7) : Operand := dstOp .w c.toNat
def wU (c : BitVec 7) : Operand := updOp .w c.toNat
def gS (c : BitVec 7) : Operand := srcOp .g c.toNat
def gD (c : BitVec 7) : Operand := dstOp .g c.toNat
def gU (c : BitVec 7) : Operand := updOp .g c.toNat
def hS (c : BitVec 7) : Operand := srcOp .h c.toNat
def hD (c : BitVec 7) : Operand := dstOp .h c.toNat
def hU (c : BitVec 7) : Operand := updOp .h c.toNat
def qgU (c : BitVec 7) : Operand := updOp .gq c.toNat
def xS (c : BitVec 7) : Operand := srcOp .x c.toNat
def yD (c : BitVec 7) : Operand := dstOp .y c.toNat
def yS (c : BitVec 7) : Operand := srcOp .y c.toNat
def aS (c : BitVec 4) : Operand := srcOp .a c.toNat
def keyS (k : BitVec 5) : Operand := srcOp .key k.toNat
/-- The G quad of a Loom command, G(4q) to G(4q+3), read (R305). -/
def quadS (q : BitVec 4) : Operand := srcOp .gq (4 * q.toNat)
/-- The G quad of a Loom command that increments its row and column (R305). -/
def quadU (q : BitVec 4) : Operand := updOp .gq (4 * q.toNat)

/-- The kind of an FM data register by its size Z (R51). DESIGN CHOICE, log 132. -/
def sizeKind (z : BitVec 3) : RegKind := if z = 3#3 then .w else if z = 4#3 then .q else .v
/-- The kind of a G-set data register by its size Z (R177). -/
def gsizeKind (z : BitVec 3) : RegKind := if z = 3#3 then .h else if z = 4#3 then .gq else .g
/-- The 64-bit atomic types n64 and i64 (R51). -/
def type64 (z : BitVec 3) : Bool := z == 2#3 || z == 3#3
def sizeD (z : BitVec 3) (c : BitVec 7) : Operand := dstOp (sizeKind z) c.toNat
def sizeS (z : BitVec 3) (c : BitVec 7) : Operand := srcOp (sizeKind z) c.toNat
def appU (z : BitVec 3) (c : BitVec 7) : Operand := updOp (sizeKind z) c.toNat
def gsizeD (z : BitVec 3) (c : BitVec 7) : Operand := dstOp (gsizeKind z) c.toNat
def gsizeS (z : BitVec 3) (c : BitVec 7) : Operand := srcOp (gsizeKind z) c.toNat
/-- D of an atomic, by its type Z (R51). DESIGN CHOICE, log 132. -/
def typeU (z : BitVec 3) (c : BitVec 7) : Operand := updOp (if type64 z then .w else .v) c.toNat
def typeS (z : BitVec 3) (c : BitVec 7) : Operand := srcOp (if type64 z then .w else .v) c.toNat
/-- D of ATCAS, with the compare value and the new value (R51, R140). DESIGN CHOICE, log 132. -/
def casU (z : BitVec 3) (c : BitVec 7) : Operand := updOp (if type64 z then .q else .w) c.toNat

/-- One row of R42: the width of a special register in bits, and which of RDS, GRDS and GWRS may name it. -/
structure SpecialRow where
  bits : Nat
  rds : Bool
  grds : Bool
  gwrs : Bool
deriving DecidableEq, Repr

/-- The special registers by number (R42). -/
def specialRow (n : Nat) : Option SpecialRow :=
  match n with
  | 0x0000 => some ⟨32, true, false, false⟩
  | 0x0001 | 0x0002 | 0x0003 | 0x0004 | 0x0005 | 0x0006 | 0x0007 | 0x0008 | 0x0009 | 0x000A => some ⟨32, true, true, false⟩
  | 0x0010 | 0x0011 => some ⟨32, true, true, false⟩
  | 0x0020 => some ⟨32, true, true, true⟩
  | 0x0021 => some ⟨64, true, true, false⟩
  | 0x0022 => some ⟨64, true, true, true⟩
  | 0x0023 => some ⟨32, true, true, true⟩
  | 0x0030 => some ⟨64, false, true, true⟩
  | 0x0031 => some ⟨32, false, true, true⟩
  | 0x0032 => some ⟨64, false, true, false⟩
  | 0x0033 => some ⟨64, false, true, true⟩
  | 0x0034 => some ⟨32, false, true, false⟩
  | 0x0035 | 0x0036 => some ⟨64, false, true, false⟩
  | _ => none

/-- A special register of 64 bits: it is read into, or written from, a pair (R42). DESIGN CHOICE, log 133. -/
def specialWide (i : BitVec 14) : Bool :=
  match specialRow i.toNat with
  | some r => r.bits == 64
  | none => false

/-- The register operands of each instruction word, in the order D, A, B of the assembly (R46 to R55; R167 to R201; R305
to R314). The pair `ext` has those of its follower, which `execExt` reads from the follower itself. DESIGN CHOICE, log 134. -/
def Instr.operands : Instr → List Operand
  | .iadd _ d a b => [vD d, vS a, vS b]
  | .isub _ d a b => [vD d, vS a, vS b]
  | .imul _ d a b => [vD d, vS a, vS b]
  | .imulhi _ d a b => [vD d, vS a, vS b]
  | .nmulhi _ d a b => [vD d, vS a, vS b]
  | .imad _ d a b => [vU d, vS a, vS b]
  | .and _ d a b => [vD d, vS a, vS b]
  | .or _ d a b => [vD d, vS a, vS b]
  | .xor _ d a b => [vD d, vS a, vS b]
  | .andn _ d a b => [vD d, vS a, vS b]
  | .shl _ d a b => [vD d, vS a, vS b]
  | .shr _ d a b => [vD d, vS a, vS b]
  | .sar _ d a b => [vD d, vS a, vS b]
  | .rotl _ d a b => [vD d, vS a, vS b]
  | .imin _ d a b => [vD d, vS a, vS b]
  | .imax _ d a b => [vD d, vS a, vS b]
  | .nmin _ d a b => [vD d, vS a, vS b]
  | .nmax _ d a b => [vD d, vS a, vS b]
  | .islt _ d a b => [vD d, vS a, vS b]
  | .isle _ d a b => [vD d, vS a, vS b]
  | .nslt _ d a b => [vD d, vS a, vS b]
  | .nsle _ d a b => [vD d, vS a, vS b]
  | .ieq _ d a b => [vD d, vS a, vS b]
  | .ine _ d a b => [vD d, vS a, vS b]
  | .sel _ d a b => [vU d, vS a, vS b]
  | .fadd _ d a b => [vD d, vS a, vS b]
  | .fsub _ d a b => [vD d, vS a, vS b]
  | .fmul _ d a b => [vD d, vS a, vS b]
  | .ffma _ d a b => [vU d, vS a, vS b]
  | .fmin _ d a b => [vD d, vS a, vS b]
  | .fmax _ d a b => [vD d, vS a, vS b]
  | .fslt _ d a b => [vD d, vS a, vS b]
  | .fsle _ d a b => [vD d, vS a, vS b]
  | .fseq _ d a b => [vD d, vS a, vS b]
  | .fsne _ d a b => [vD d, vS a, vS b]
  | .fsun _ d a b => [vD d, vS a, vS b]
  | .fldexp _ d a b => [vD d, vS a, vS b]
  | .badd2 _ d a b => [vD d, vS a, vS b]
  | .bmul2 _ d a b => [vD d, vS a, vS b]
  | .bfma2 _ d a b => [vU d, vS a, vS b]
  | .bdot2 _ d a b => [vU d, vS a, vS b]
  | .iadd64 _ d a b => [wD d, wS a, wS b]
  | .isub64 _ d a b => [wD d, wS a, wS b]
  | .imadw _ d a b => [wU d, vS a, vS b]
  | .nmadw _ d a b => [wU d, vS a, vS b]
  | .shl64 _ d a b => [wD d, wS a, vS b]
  | .shr64 _ d a b => [wD d, wS a, vS b]
  | .shfl _ d a b => [vD d, vS a, vS b]
  | .shflx _ d a b => [vD d, vS a, vS b]
  | .shflu _ d a b => [vD d, vS a, vS b]
  | .shfld _ d a b => [vD d, vS a, vS b]
  | .iaddi _ d a _ => [vD d, vS a]
  | .andi _ d a _ => [vD d, vS a]
  | .ori _ d a _ => [vD d, vS a]
  | .xori _ d a _ => [vD d, vS a]
  | .shli _ d a _ => [vD d, vS a]
  | .shri _ d a _ => [vD d, vS a]
  | .sari _ d a _ => [vD d, vS a]
  | .rotli _ d a _ => [vD d, vS a]
  | .islti _ d a _ => [vD d, vS a]
  | .ieqi _ d a _ => [vD d, vS a]
  | .shl64i _ d a _ => [wD d, wS a]
  | .shr64i _ d a _ => [wD d, wS a]
  | .add64i _ d a _ => [wD d, wS a]
  | .not _ d a => [vD d, vS a]
  | .neg _ d a => [vD d, vS a]
  | .abs _ d a => [vD d, vS a]
  | .clz _ d a => [vD d, vS a]
  | .popc _ d a => [vD d, vS a]
  | .brev _ d a => [vD d, vS a]
  | .sext8 _ d a => [vD d, vS a]
  | .sext16 _ d a => [vD d, vS a]
  | .zext8 _ d a => [vD d, vS a]
  | .zext16 _ d a => [vD d, vS a]
  | .fneg _ d a => [vD d, vS a]
  | .fabs _ d a => [vD d, vS a]
  | .frcp _ d a => [vD d, vS a]
  | .frsq _ d a => [vD d, vS a]
  | .fsqrt _ d a => [vD d, vS a]
  | .fexp2 _ d a => [vD d, vS a]
  | .flog2 _ d a => [vD d, vS a]
  | .fsin _ d a => [vD d, vS a]
  | .fcos _ d a => [vD d, vS a]
  | .ftanh _ d a => [vD d, vS a]
  | .ferf _ d a => [vD d, vS a]
  | .ffloor _ d a => [vD d, vS a]
  | .fceil _ d a => [vD d, vS a]
  | .ftrunc _ d a => [vD d, vS a]
  | .frint _ d a => [vD d, vS a]
  | .cvtf _ d a _ _ => [vU d, vS a]
  | .cvtt _ d a _ => [vD d, vS a]
  | .cvti _ d a k _ => [if k = 4#4 ∨ k = 5#4 then wD d else vD d, if k = 6#4 ∨ k = 7#4 then wS a else vS a]
  | .pack _ d a _ _ => [vU d, vS a]
  | .unpk _ d a _ _ => [vD d, vS a]
  | .qcvt _ d a _ _ => [vU d, vS a]
  | .bmaxa _ d a _ => [vD d, vS a]
  | .scalef _ d a _ => [vD d, vS a]
  | .rand _ d a _ k => [vD d, vS a, keyS k]
  | .movi _ d _ => [vD d]
  | .rds _ d i => [if specialWide i then wD d else vD d]
  | .ld _ d o a z => [sizeD z d, vS o, aS a]
  | .lds _ d o a _ => [vD d, vS o, aS a]
  | .st _ d o a z => [sizeS z d, vS o, aS a]
  | .ldk _ d o a z => [sizeD z d, vS o, aS a]
  | .ldga _ d o a z => [sizeD z d, vS o, aS a]
  | .pref _ o a _ => [vS o, aS a]
  | .ldx _ d o _ z => [sizeD z d, wS o]
  | .stx _ d o _ z => [sizeS z d, wS o]
  | .ldl _ d o a z => [sizeD z d, vS o, aS a]
  | .stl _ d o a z => [sizeS z d, vS o, aS a]
  | .ldw _ d o a => [wD d, vS o, aS a]
  | .ldc _ d o a => [wD d, vS o, aS a]
  | .stf _ d o a => [wS d, vS o, aS a]
  | .stfs _ d o a => [wS d, vS o, aS a]
  | .feset _ d o a => [vS d, vS o, aS a]
  | .feget _ d o a => [vD d, vS o, aS a]
  | .atadd _ d o a z => [typeU z d, vS o, aS a]
  | .atmin _ d o a z => [typeU z d, vS o, aS a]
  | .atmax _ d o a z => [typeU z d, vS o, aS a]
  | .atand _ d o a z => [typeU z d, vS o, aS a]
  | .ator _ d o a z => [typeU z d, vS o, aS a]
  | .atxor _ d o a z => [typeU z d, vS o, aS a]
  | .atxch _ d o a z => [typeU z d, vS o, aS a]
  | .atcas _ d o a z => [casU z d, vS o, aS a]
  | .redadd _ d o a z => [typeS z d, vS o, aS a]
  | .redmin _ d o a z => [typeS z d, vS o, aS a]
  | .redmax _ d o a z => [typeS z d, vS o, aS a]
  | .redand _ d o a z => [typeS z d, vS o, aS a]
  | .redor _ d o a z => [typeS z d, vS o, aS a]
  | .redxor _ d o a z => [typeS z d, vS o, aS a]
  | .append _ d o a z => [appU z d, vS o, aS a]
  | .appendt _ d o a z => [appU z d, vS o, aS a]
  | .latadd _ d o a z => [typeU z d, vS o, aS a]
  | .latmin _ d o a z => [typeU z d, vS o, aS a]
  | .latmax _ d o a z => [typeU z d, vS o, aS a]
  | .latcas _ d o a z => [casU z d, vS o, aS a]
  | .bra _ _ => []
  | .bnz _ c _ => [vS c]
  | .bz _ c _ => [vS c]
  | .call _ _ => []
  | .callr _ a => [wS a]
  | .ret _ => []
  | .jmpr _ a => [wS a]
  | .meet _ _ => []
  | .exit _ => []
  | .trapl _ _ => []
  | .bkptl _ _ => []
  | .nop _ => []
  | .gadd _ d a b => [gD d, gS a, gS b]
  | .gsub _ d a b => [gD d, gS a, gS b]
  | .gmul _ d a b => [gD d, gS a, gS b]
  | .gmulhi _ d a b => [gD d, gS a, gS b]
  | .gnmulhi _ d a b => [gD d, gS a, gS b]
  | .gand _ d a b => [gD d, gS a, gS b]
  | .gor _ d a b => [gD d, gS a, gS b]
  | .gxor _ d a b => [gD d, gS a, gS b]
  | .gshl _ d a b => [gD d, gS a, gS b]
  | .gshr _ d a b => [gD d, gS a, gS b]
  | .gsar _ d a b => [gD d, gS a, gS b]
  | .gmin _ d a b => [gD d, gS a, gS b]
  | .gmax _ d a b => [gD d, gS a, gS b]
  | .gnmin _ d a b => [gD d, gS a, gS b]
  | .gnmax _ d a b => [gD d, gS a, gS b]
  | .gslt _ d a b => [gD d, gS a, gS b]
  | .gsle _ d a b => [gD d, gS a, gS b]
  | .gnslt _ d a b => [gD d, gS a, gS b]
  | .gnsle _ d a b => [gD d, gS a, gS b]
  | .geq _ d a b => [gD d, gS a, gS b]
  | .gne _ d a b => [gD d, gS a, gS b]
  | .gsel _ d a b => [gU d, gS a, gS b]
  | .gadd64 _ d a b => [hD d, hS a, hS b]
  | .gsub64 _ d a b => [hD d, hS a, hS b]
  | .gshl64 _ d a b => [hD d, hS a, gS b]
  | .gshr64 _ d a b => [hD d, hS a, gS b]
  | .gmadw _ d a b => [hU d, gS a, gS b]
  | .lballot _ d a => [hD d, xS a]
  | .lany _ d a => [gD d, xS a]
  | .lall _ d a => [gD d, xS a]
  | .lread _ d a b => [gD d, xS a, gS b]
  | .lwrite _ d a b => [yD d, gS a, gS b]
  | .lsum _ d a => [gD d, xS a]
  | .lfsum _ d a => [gD d, xS a]
  | .lmax _ d a => [gD d, xS a]
  | .lmin _ d a => [gD d, xS a]
  | .lfmax _ d a => [gD d, xS a]
  | .lpopc _ d a => [gD d, xS a]
  | .lfirst _ d a => [gD d, xS a]
  | .gfadd _ d a b => [gD d, gS a, gS b]
  | .gfmul _ d a b => [gD d, gS a, gS b]
  | .gffma _ d a b => [gU d, gS a, gS b]
  | .gfmin _ d a b => [gD d, gS a, gS b]
  | .gfmax _ d a b => [gD d, gS a, gS b]
  | .gfslt _ d a b => [gD d, gS a, gS b]
  | .gmovi _ d _ => [gD d]
  | .gaddi _ d a _ => [gD d, gS a]
  | .gandi _ d a _ => [gD d, gS a]
  | .gori _ d a _ => [gD d, gS a]
  | .gshli _ d a _ => [gD d, gS a]
  | .gshri _ d a _ => [gD d, gS a]
  | .glui _ d _ => [gU d]
  | .grds _ d i => [if specialWide i then hD d else gD d]
  | .gwrs _ d i => [if specialWide i then hS d else gS d]
  | .ext _ _ _ => []
  | .fence _ _ _ _ => []
  | .barWait _ d a _ => [gD d, gS a]
  | .barArrive _ d a _ => [gD d, gS a]
  | .wait _ d a b => [gD d, gS a, gS b]
  | .yield _ => []
  | .gld _ d a z _ => [gsizeD z d, aS a]
  | .gst _ d a z _ => [gsizeS z d, aS a]
  | .gldk _ d a z _ => [gsizeD z d, aS a]
  | .gatom _ d a z p => [if p = 7#4 then (if type64 z then qgU d else hU d) else if type64 z then hU d else gU d, aS a]
  | .cpy _ d a => [gD d, gS a]
  | .cpyq _ d a => [gD d, gS a]
  | .cpystat _ d a => [hD d, gS a]
  | .jpost _ d a b => [gD d, hS a, gS b]
  | .sealPage _ d a => [gD d, hS a]
  | .txbegin _ d a _ => [gD d, gS a]
  | .txcommit _ d => [gD d]
  | .txcommitForce _ d => [gD d]
  | .txabort _ => []
  | .txstat _ d _ => [gD d]
  | .ttload _ d a b => [gS d, hS a, gS b]
  | .ttset _ _ a b => [gS a, hS b]
  | .setpk _ a b => [hS a, hS b]
  | .getpk _ d _ => [hD d]
  | .rdtime _ d => [hD d]
  | .digest _ d => [hD d]
  | .digestFold _ d a => [hD d, hS a]
  | .gbra _ _ => []
  | .gbnz _ c _ => [gS c]
  | .gbz _ c _ => [gS c]
  | .gexit _ => []
  | .trap _ _ => []
  | .trapret _ => []
  | .bkpt _ _ => []
  | .gnop _ => []
  | .mloadb _ _ q _ => [quadU q]
  | .mloop _ _ q _ _ _ _ => [quadU q]
  | .mloopg _ _ q _ _ _ _ => [quadS q]
  | .mfence _ _ _ _ => []
  | .mzero _ _ => []
  | .mstore _ _ q _ _ => [quadU q]
  | .mread _ d _ a => [yD d, gS a]
  | .mwrite _ d _ a => [yS d, gS a]
  | .mstat _ d => [gD d]
  | _ => []

/-- The fixed latency of an instruction in issue cycles (R62); 0 where the latency is variable or nothing is written. -/
def Instr.latency : Instr → Nat
  | .iadd ..
  | .isub ..
  | .and ..
  | .or ..
  | .xor ..
  | .andn ..
  | .shl ..
  | .shr ..
  | .sar ..
  | .rotl ..
  | .imin ..
  | .imax ..
  | .nmin ..
  | .nmax ..
  | .islt ..
  | .isle ..
  | .nslt ..
  | .nsle ..
  | .ieq ..
  | .ine ..
  | .sel ..
  | .iadd64 ..
  | .isub64 ..
  | .shl64 ..
  | .shr64 ..
  | .iaddi ..
  | .andi ..
  | .ori ..
  | .xori ..
  | .shli ..
  | .shri ..
  | .sari ..
  | .rotli ..
  | .islti ..
  | .ieqi ..
  | .shl64i ..
  | .shr64i ..
  | .add64i ..
  | .not ..
  | .neg ..
  | .abs ..
  | .clz ..
  | .popc ..
  | .brev ..
  | .sext8 ..
  | .sext16 ..
  | .zext8 ..
  | .zext16 ..
  | .fneg ..
  | .fabs ..
  | .movi ..
  | .rds ..
  | .gadd ..
  | .gsub ..
  | .gand ..
  | .gor ..
  | .gxor ..
  | .gshl ..
  | .gshr ..
  | .gsar ..
  | .gmin ..
  | .gmax ..
  | .gnmin ..
  | .gnmax ..
  | .gslt ..
  | .gsle ..
  | .gnslt ..
  | .gnsle ..
  | .geq ..
  | .gne ..
  | .gsel ..
  | .gadd64 ..
  | .gsub64 ..
  | .gshl64 ..
  | .gshr64 ..
  | .gmovi ..
  | .gaddi ..
  | .gandi ..
  | .gori ..
  | .gshli ..
  | .gshri ..
  | .glui ..
  | .grds .. => 1
  | .imul ..
  | .imulhi ..
  | .nmulhi ..
  | .imad ..
  | .fadd ..
  | .fsub ..
  | .fmul ..
  | .fmin ..
  | .fmax ..
  | .fslt ..
  | .fsle ..
  | .fseq ..
  | .fsne ..
  | .fsun ..
  | .fldexp ..
  | .badd2 ..
  | .bmul2 ..
  | .ffma ..
  | .bfma2 ..
  | .bdot2 ..
  | .imadw ..
  | .nmadw ..
  | .ffloor ..
  | .fceil ..
  | .ftrunc ..
  | .frint ..
  | .cvtf ..
  | .pack ..
  | .cvtt ..
  | .unpk ..
  | .cvti ..
  | .gmul ..
  | .gmulhi ..
  | .gnmulhi ..
  | .gfadd ..
  | .gfmul ..
  | .gfmin ..
  | .gfmax ..
  | .gfslt ..
  | .gffma ..
  | .gmadw .. => 4
  | .qcvt ..
  | .scalef ..
  | .rand .. => 6
  | _ => 0

/-- The words of the G-set: bit 31 is 1 (R32). -/
def Instr.isG : Instr → Bool
  | .gadd ..
  | .gsub ..
  | .gmul ..
  | .gmulhi ..
  | .gnmulhi ..
  | .gand ..
  | .gor ..
  | .gxor ..
  | .gshl ..
  | .gshr ..
  | .gsar ..
  | .gmin ..
  | .gmax ..
  | .gnmin ..
  | .gnmax ..
  | .gslt ..
  | .gsle ..
  | .gnslt ..
  | .gnsle ..
  | .geq ..
  | .gne ..
  | .gfadd ..
  | .gfmul ..
  | .gfmin ..
  | .gfmax ..
  | .gfslt ..
  | .gsel ..
  | .gffma ..
  | .gadd64 ..
  | .gsub64 ..
  | .gshl64 ..
  | .gshr64 ..
  | .gmadw ..
  | .lballot ..
  | .lany ..
  | .lall ..
  | .lsum ..
  | .lfsum ..
  | .lmax ..
  | .lmin ..
  | .lfmax ..
  | .lpopc ..
  | .lfirst ..
  | .lread ..
  | .lwrite ..
  | .gmovi ..
  | .gaddi ..
  | .gandi ..
  | .gori ..
  | .gshli ..
  | .gshri ..
  | .glui ..
  | .grds ..
  | .gwrs ..
  | .ext ..
  | .fence ..
  | .barWait ..
  | .barArrive ..
  | .wait ..
  | .yield ..
  | .gld ..
  | .gldk ..
  | .gst ..
  | .gatom ..
  | .cpy ..
  | .cpyq ..
  | .cpystat ..
  | .jpost ..
  | .sealPage ..
  | .txbegin ..
  | .txcommit ..
  | .txcommitForce ..
  | .txstat ..
  | .mstat ..
  | .txabort ..
  | .ttload ..
  | .ttset ..
  | .setpk ..
  | .getpk ..
  | .rdtime ..
  | .digest ..
  | .digestFold ..
  | .gbra ..
  | .gexit ..
  | .trap ..
  | .trapret ..
  | .bkpt ..
  | .gnop ..
  | .mfence ..
  | .mzero ..
  | .gbnz ..
  | .gbz ..
  | .mloadb ..
  | .mloop ..
  | .mstore ..
  | .mloopg ..
  | .mread ..
  | .mwrite .. => true
  | _ => false

/-! ### Immediates (R36) -/

/-- How an I field is read: kinds s and z of R36, or a raw field of kind f or c. -/
inductive ImmKind where
  | s | z | raw
deriving DecidableEq, Repr

/-- The I field of a word: its kind and its width in bits, by SET, CL and OP (R46 to R55, R177). A word whose format has no
I field, and a word of a reserved slot, has none. An FJ word whose I has no kind shows it raw: DESIGN CHOICE, log 147. -/
def immField (w : Word) : Option (ImmKind × Nat) :=
  let cl := (w.extractLsb' 27 2).toNat
  let op := (w.extractLsb' 21 6).toNat
  if w.getLsbD 31 then
    match cl with
    | 1 =>
      if op = 0x00 then some (.s, 14)
      else if op = 0x01 ∨ op = 0x02 then some (.s, 7)
      else if op = 0x03 then some (.z, 7)
      else if op = 0x04 ∨ op = 0x05 then some (.raw, 7)
      else if op = 0x06 ∨ op = 0x08 ∨ op = 0x09 then some (.raw, 14)
      else if op = 0x3F then some (.raw, 21)
      else none
    | 2 => if op = 0x04 ∨ op = 0x05 ∨ op = 0x06 then some (.s, 7) else none
    | 3 =>
      if op = 0x00 then some (.s, 21)
      else if op = 0x01 ∨ op = 0x02 then some (.s, 14)
      else if op ≤ 0x07 then some (.raw, 21)
      else none
    | _ => none
  else
    match cl with
    | 1 =>
      if op = 0x00 ∨ op = 0x01 ∨ op = 0x08 ∨ op = 0x09 ∨ op = 0x0C then some (.s, 7)
      else if op = 0x02 ∨ op = 0x03 then some (.z, 7)
      else if op ≤ 0x0B ∨ (0x10 ≤ op ∧ op ≤ 0x1A) then some (.raw, 7)
      else if op = 0x20 then some (.s, 14)
      else if op = 0x21 then some (.raw, 14)
      else none
    | 3 =>
      if op = 0x00 ∨ op = 0x03 ∨ op = 0x07 then some (.s, 21)
      else if op = 0x01 ∨ op = 0x02 then some (.s, 14)
      else if op = 0x05 ∨ (0x08 ≤ op ∧ op ≤ 0x0B) then some (.raw, 21)
      else none
    | _ => none

/-- The payload of the EXT ahead of an instruction, if there is one. -/
abbrev Prefix := Option (BitVec 21)

/-- An immediate of kind s (R36): the field, under the payload of a prefix, sign-extended to 64 bits. -/
def immS {n : Nat} (p : Prefix) (i : BitVec n) : DWord :=
  match p with
  | none => i.signExtend 64
  | some e => (e ++ i).signExtend 64

/-- An immediate of kind z (R36). -/
def immZ {n : Nat} (p : Prefix) (i : BitVec n) : DWord :=
  match p with
  | none => i.zeroExtend 64
  | some e => (e ++ i).zeroExtend 64

/-- The immediate of a word as R44 shows it: formed under R36, or the raw field, or 0 where the format has no I field. -/
def immOfWord (p : Prefix) (w : Word) : DWord :=
  match immField w with
  | none => 0#64
  | some (.raw, n) => (w.extractLsb' 0 n).zeroExtend 64
  | some (.s, n) => immS p (w.extractLsb' 0 n)
  | some (.z, n) => immZ p (w.extractLsb' 0 n)

/-- A word that EXT may prefix: its I field is of kind s or z (R59). -/
def extendable (w : Word) : Bool :=
  match immField w with
  | some (.s, _) | some (.z, _) => true
  | _ => false

/-- TRAPF of a word (R44). -/
def trapF (p : Prefix) (w : Word) : DWord :=
  (immOfWord p w).extractLsb' 0 32 ++ w.extractLsb' 0 7 ++ w.extractLsb' 7 7 ++ w.extractLsb' 14 7
    ++ w.extractLsb' 21 6 ++ w.extractLsb' 27 2 ++ w.extractLsb' 29 2 ++ w.extractLsb' 31 1

/-- EXT itself: G-set CL01 OP 0x3F (R54). -/
def isExtWord (w : Word) : Bool := w.getLsbD 31 && w.extractLsb' 21 8 == 0x7F#8

/-! ### What the core checks in a word, in the order of R45 -/

/-- The slot of a word is defined by the opcode map (R46 to R55); R56 reserves every other. -/
def definedSlot (w : Word) : Bool :=
  let cl := (w.extractLsb' 27 2).toNat
  let op := (w.extractLsb' 21 6).toNat
  if w.getLsbD 31 then
    match cl with
    | 0 => decide (op ≤ 0x1A) || (decide (0x20 ≤ op) && decide (op ≤ 0x2B)) || (decide (0x30 ≤ op) && decide (op ≤ 0x35))
    | 1 => decide (op ≤ 0x06) || op == 0x08 || op == 0x09 || op == 0x3F
    | 2 => decide (op ≤ 0x16)
    | _ => decide (op ≤ 0x07) || (decide (0x10 ≤ op) && decide (op ≤ 0x18))
  else
    match cl with
    | 0 => decide (op ≤ 0x18) || (decide (0x20 ≤ op) && decide (op ≤ 0x35)) || (decide (0x38 ≤ op) && decide (op ≤ 0x3B))
    | 1 => decide (op ≤ 0x0C) || (decide (0x10 ≤ op) && decide (op ≤ 0x1A)) || op == 0x20 || op == 0x21
    | 2 => decide (op ≤ 0x23)
    | _ => decide (op ≤ 0x0B)

/-- Order 4 of R45 (detail 2): every register code is legal. -/
def regsOk (sh : Shape) (os : List Operand) : Bool := os.all (Operand.ok sh)

/-- The detail of a word that no row of the opcode table matches (R45): a reserved slot (1); a bad register code (2), size
code (3) or sub-operation (6) of a slot that the map defines; otherwise a reserved field that is not zero (4). -/
def reservedDetail (sh : Shape) (w : Word) : Nat :=
  let cl := (w.extractLsb' 27 2).toNat
  let op := (w.extractLsb' 21 6).toNat
  let d := w.extractLsb' 14 7
  let a := w.extractLsb' 7 7
  let m := w.extractLsb' 3 4
  if !definedSlot w then 1
  else if w.getLsbD 31 then 4
  else if cl = 2 ∧ 0x0A ≤ op ∧ op ≤ 0x0F then
    let dk := if op = 0x0A ∨ op = 0x0B then wD d else if op = 0x0C ∨ op = 0x0D then wS d else if op = 0x0E then vS d else vD d
    if regsOk sh [dk, vS a, aS m] then 3 else 2
  else if cl = 1 ∧ (op = 0x10 ∨ op = 0x11 ∨ op = 0x13 ∨ op = 0x19) then
    if regsOk sh [vD d, vS a] then 6 else 2
  else 4

/-- The legal Z codes of a form (R51, R177, R179), by the number of the greatest and the least. -/
def zIn (z : BitVec 3) (lo hi : Nat) : Bool := decide (lo ≤ z.toNat) && decide (z.toNat ≤ hi)

/-- Order 5 of R45 (detail 3): the size or type code is legal for the operation (R51, R132, R142, R177, R179). -/
def Instr.zOk : Instr → Bool
  | .ld _ _ _ _ z | .st _ _ _ _ z | .ldga _ _ _ _ z | .ldx _ _ _ _ z | .stx _ _ _ _ z | .ldl _ _ _ _ z | .stl _ _ _ _ z =>
    zIn z 0 4
  | .lds _ _ _ _ z => zIn z 0 1
  | .ldk _ _ _ _ z => zIn z 2 4
  | .pref _ _ _ z => zIn z 0 2
  | .atadd _ _ _ _ z | .atmin _ _ _ _ z | .atmax _ _ _ _ z | .redadd _ _ _ _ z | .redmin _ _ _ _ z | .redmax _ _ _ _ z
  | .latadd _ _ _ _ z | .latmin _ _ _ _ z | .latmax _ _ _ _ z => zIn z 0 5
  | .atand _ _ _ _ z | .ator _ _ _ _ z | .atxor _ _ _ _ z | .atxch _ _ _ _ z | .atcas _ _ _ _ z | .redand _ _ _ _ z
  | .redor _ _ _ _ z | .redxor _ _ _ _ z | .latcas _ _ _ _ z => zIn z 0 3
  | .append _ _ _ _ z | .appendt _ _ _ _ z => zIn z 2 4
  | .gld _ _ _ z _ | .gst _ _ _ z _ => zIn z 0 4
  | .gldk _ _ _ z _ => zIn z 2 4
  | .gatom _ _ _ z p => if 3 ≤ p.toNat ∧ p.toNat ≤ 7 then zIn z 0 3 else zIn z 0 5
  | _ => true

/-- The format codes that CVTF and CVTT accept (R49, R113). -/
def cvtFormatOk (f : BitVec 4) : Bool := decide (f.toNat ≤ 6) || f == 8#4 || f == 9#4
/-- The format codes that QCVT and SCALEF accept (R49). -/
def quantFormatOk (f : BitVec 4) : Bool := (decide (2 ≤ f.toNat) && decide (f.toNat ≤ 7)) || f == 10#4

/-- Order 6 of R45 (detail 6): immediates, sub-operations, formats, roundings, indices and special numbers in range. -/
def Instr.rangeOk (sh : Shape) : Instr → Bool
  | .shli _ _ _ i | .shri _ _ _ i | .sari _ _ _ i | .rotli _ _ _ i | .gshli _ _ _ i | .gshri _ _ _ i => decide (i.toNat ≤ 31)
  | .shl64i _ _ _ i | .shr64i _ _ _ i => decide (i.toNat ≤ 63)
  | .cvtf _ _ _ f r => cvtFormatOk f && decide (r.toNat ≤ 4)
  | .cvtt _ _ _ f => cvtFormatOk f
  | .qcvt _ _ _ f r => quantFormatOk f && decide (r.toNat ≤ 4)
  | .scalef _ _ _ f => quantFormatOk f
  | .cvti _ _ _ k r => decide (k.toNat ≤ 7) && decide (r.toNat ≤ 3)
  | .pack _ _ _ w e | .unpk _ _ _ w e => decide (w.toNat ≤ 2) && decide (e.toNat < 32 / 2 ^ (w.toNat + 2))
  | .bmaxa _ _ _ i => (i == 8#7 || i == 16#7 || i == 32#7) && decide (i.toNat ≤ sh.width)
  | .rds _ _ i | .grds _ _ i | .gwrs _ _ i => (specialRow i.toNat).isSome
  | .fence _ k p h => decide (k.toNat ≤ 2) && decide (p.toNat ≤ 5) && h != 0#4
  | .gatom _ _ _ _ p => decide (p.toNat ≤ 7)
  | .ttset _ f _ _ => decide (f.toNat ≤ 3)
  | .mloadb _ b _ _ => decide (b.toNat < sh.slots)
  | .mloop _ _ _ _ b n _ | .mloopg _ _ _ _ b n _ => decide (b.toNat + n.toNat < sh.slots)
  | .mstore _ _ _ r _ => decide (r.toNat ≤ 4)
  | .mfence _ m b _ => !(m == 0#8 && b == 0#1)
  | _ => true

/-- Order 7 of R45 (detail 7): the special register may be named by this instruction (R43). -/
def Instr.specialOk : Instr → Bool
  | .rds _ _ i => ((specialRow i.toNat).map (·.rds)).getD false
  | .grds _ _ i => ((specialRow i.toNat).map (·.grds)).getD false
  | .gwrs _ _ i => ((specialRow i.toNat).map (·.gwrs)).getD false
  | _ => true

/-- Order 8 of R45 (detail 8): the operation is enabled: TXBEGIN needs SPEC (R10, R192), TRAPRET a handler (R205). -/
def Instr.enabledOk (sh : Shape) : Instr → Bool
  | .txbegin .. => sh.spec
  | .trapret .. => sh.handler
  | _ => true

/-- The illegal_op detail that an instruction word raises at issue, if any, in the order of R45 (orders 1 and 3 to 8; order
2, the misplaced EXT, is found where an EXT pair is taken apart). -/
def illegalDetail (sh : Shape) (i : Instr) : Option Nat :=
  match i with
  | .reservedSlot w => some (reservedDetail sh w)
  | _ =>
    if !regsOk sh i.operands then some 2
    else if !i.zOk then some 3
    else if !i.rangeOk sh then some 6
    else if !i.specialOk then some 7
    else if !i.enabledOk sh then some 8
    else none

/-- The registers that an instruction reads at issue (R60). -/
def Instr.reads (i : Instr) : List Reg := (i.operands.filter (·.rd)).flatMap Operand.regs
/-- The registers that an instruction writes. -/
def Instr.writes (i : Instr) : List Reg := (i.operands.filter (·.wr)).flatMap Operand.regs

end Sys2Proof
end

