-- ==== Sys2Proof/WellFormed.lean ====
section
/-! DEFINITION. Which instructions and steps are well formed: a word that the checks of R45 pass in the widest group a card
can describe (spec/01 R9: 64 lanes, 112 V registers, 64 G registers; spec/16 R306: 24 slots), and a device step whose names
lie in the ranges of spec/00 R2, spec/10 R227, spec/18 R333 and spec/22 R386. -/

namespace Sys2Proof

/-- The widest group that a card can describe (R9), with lent Loom slots, speculation and an open handler. -/
def widestShape : Shape := { width := 64, vregs := 112, gregs := 64, spec := true, slots := 24, handler := true }

/-- A core number (R2). -/
def coreOk (c : Nat) : Bool := decide (c < 768)
/-- A cluster number (R2). -/
def clusterOk (c : Nat) : Bool := decide (c < 192)
/-- A die number (R2). -/
def dieOk (d : Nat) : Bool := decide (d < 4)
/-- A physical address of 48 bits (R233). -/
def paOk (pa : Nat) : Bool := decide (pa < 2 ^ 48)

/-- A well-formed instruction or step. -/
def Instr.wf (i : Instr) : Bool :=
  match i with
  | .ext s _ w => s == 0#2 && extendable w && !isExtWord w
  | .reservedSlot _ => false
  | .clusterQueueTake c => clusterOk c
  | .teamPlace _ c | .groupRestore _ c | .placementWaitExpiry _ c => coreOk c
  | .haltAtBoundary c q | .haltreq c q _ | .groupResume c q | .frozenRelease c q => coreOk c && decide (q < 16)
  | .carterStart _ c | .carterPayloadComplete c | .carterCompletionWord c | .carterPoison c => decide (c < 32)
  | .overflowInterval c _ _ _ _ => coreOk c
  | .replicaDrop d _ | .freepg d _ | .freePageDone d | .l2quota d _ | .smhb _ d _ | .smctl _ d _ | .watchdogExpiry d
  | .migreq _ d _ => dieOk d
  | .myentRead pa n => paOk pa && decide (1 ≤ n) && decide (n ≤ 64)
  | .myentPostedWrite pa data => paOk pa && decide (1 ≤ data.length) && decide (data.length ≤ 64)
  | .myentFetchAdd pa _ | .myentCompareAndSwap pa _ _ => paOk pa && pa % 8 == 0
  | .queueTailWrite q _ | .queueEnable q _ => decide (q < 64)
  | .clkctl _ c _ | .clockChangeApply c | .droopDetect c | .droopFloorRelease c | .currentInterval c _
  | .thermalLevelChange c _ | .railStepUp c | .guardBandDown c => clusterOk c
  | .ueSend q | .ueTaggedSend q | .uePut q | .ueGet q | .uePostTaggedReceive q | .uePostReceive q => decide (q < 8)
  | .registerWrite _ pa _ => paOk pa
  | i => (illegalDetail widestShape i).isNone

end Sys2Proof
end

