-- ==== Sys2Proof/Decode.lean ====
section
/-! DEFINITION. The instruction words: the decoder, total on any word and on any bytes, and after it the encoder, both
written from the encoding tables of spec/03_encoding_rules.md (R32 to R55), spec/08_group_instructions.md (R167 to R201)
and spec/16_loom_rules.md (R306 to R314). -/

namespace Sys2Proof

/-- The stall count S, bits [30:29] (R32). -/
def fS (w : Word) : BitVec 2 := w.extractLsb' 29 2
/-- The class CL, bits [28:27] (R32). -/
def fCL (w : Word) : BitVec 2 := w.extractLsb' 27 2
/-- The operation OP, bits [26:21] (R32). -/
def fOP (w : Word) : BitVec 6 := w.extractLsb' 21 6
/-- Body bits [20:14]: D, or C of format FB (R34). -/
def fD (w : Word) : BitVec 7 := w.extractLsb' 14 7
/-- Body bits [13:7]: A, or O of format FM (R34). -/
def fA (w : Word) : BitVec 7 := w.extractLsb' 7 7
/-- Body bits [6:0]: B, or I of format FI (R34). -/
def fB (w : Word) : BitVec 7 := w.extractLsb' 0 7
/-- Body bits [13:0]: I of formats FL and FB (R34). -/
def fI14 (w : Word) : BitVec 14 := w.extractLsb' 0 14
/-- Body bits [20:0]: I of format FJ (R34). -/
def fI21 (w : Word) : BitVec 21 := w.extractLsb' 0 21
/-- Body bits [6:3]: A of format FM, or a format or kind code (R34, R49, R50). -/
def fM (w : Word) : BitVec 4 := w.extractLsb' 3 4
/-- Body bits [2:0]: Z of format FM, or a rounding code (R34, R49). -/
def fZ (w : Word) : BitVec 3 := w.extractLsb' 0 3

/-- L-set CL00 (R46): the instruction whose OP is `op`, if the word matches a defined form. -/
def decodeL00 (op : Nat) (w : Word) : Option Instr :=
  match op with
  | 0x00 => some (.iadd (fS w) (fD w) (fA w) (fB w))
  | 0x01 => some (.isub (fS w) (fD w) (fA w) (fB w))
  | 0x02 => some (.imul (fS w) (fD w) (fA w) (fB w))
  | 0x03 => some (.imulhi (fS w) (fD w) (fA w) (fB w))
  | 0x04 => some (.nmulhi (fS w) (fD w) (fA w) (fB w))
  | 0x05 => some (.imad (fS w) (fD w) (fA w) (fB w))
  | 0x06 => some (.and (fS w) (fD w) (fA w) (fB w))
  | 0x07 => some (.or (fS w) (fD w) (fA w) (fB w))
  | 0x08 => some (.xor (fS w) (fD w) (fA w) (fB w))
  | 0x09 => some (.andn (fS w) (fD w) (fA w) (fB w))
  | 0x0A => some (.shl (fS w) (fD w) (fA w) (fB w))
  | 0x0B => some (.shr (fS w) (fD w) (fA w) (fB w))
  | 0x0C => some (.sar (fS w) (fD w) (fA w) (fB w))
  | 0x0D => some (.rotl (fS w) (fD w) (fA w) (fB w))
  | 0x0E => some (.imin (fS w) (fD w) (fA w) (fB w))
  | 0x0F => some (.imax (fS w) (fD w) (fA w) (fB w))
  | 0x10 => some (.nmin (fS w) (fD w) (fA w) (fB w))
  | 0x11 => some (.nmax (fS w) (fD w) (fA w) (fB w))
  | 0x12 => some (.islt (fS w) (fD w) (fA w) (fB w))
  | 0x13 => some (.isle (fS w) (fD w) (fA w) (fB w))
  | 0x14 => some (.nslt (fS w) (fD w) (fA w) (fB w))
  | 0x15 => some (.nsle (fS w) (fD w) (fA w) (fB w))
  | 0x16 => some (.ieq (fS w) (fD w) (fA w) (fB w))
  | 0x17 => some (.ine (fS w) (fD w) (fA w) (fB w))
  | 0x18 => some (.sel (fS w) (fD w) (fA w) (fB w))
  | 0x20 => some (.fadd (fS w) (fD w) (fA w) (fB w))
  | 0x21 => some (.fsub (fS w) (fD w) (fA w) (fB w))
  | 0x22 => some (.fmul (fS w) (fD w) (fA w) (fB w))
  | 0x23 => some (.ffma (fS w) (fD w) (fA w) (fB w))
  | 0x24 => some (.fmin (fS w) (fD w) (fA w) (fB w))
  | 0x25 => some (.fmax (fS w) (fD w) (fA w) (fB w))
  | 0x26 => some (.fslt (fS w) (fD w) (fA w) (fB w))
  | 0x27 => some (.fsle (fS w) (fD w) (fA w) (fB w))
  | 0x28 => some (.fseq (fS w) (fD w) (fA w) (fB w))
  | 0x29 => some (.fsne (fS w) (fD w) (fA w) (fB w))
  | 0x2A => some (.fsun (fS w) (fD w) (fA w) (fB w))
  | 0x2B => some (.fldexp (fS w) (fD w) (fA w) (fB w))
  | 0x2C => some (.badd2 (fS w) (fD w) (fA w) (fB w))
  | 0x2D => some (.bmul2 (fS w) (fD w) (fA w) (fB w))
  | 0x2E => some (.bfma2 (fS w) (fD w) (fA w) (fB w))
  | 0x2F => some (.bdot2 (fS w) (fD w) (fA w) (fB w))
  | 0x30 => some (.iadd64 (fS w) (fD w) (fA w) (fB w))
  | 0x31 => some (.isub64 (fS w) (fD w) (fA w) (fB w))
  | 0x32 => some (.imadw (fS w) (fD w) (fA w) (fB w))
  | 0x33 => some (.nmadw (fS w) (fD w) (fA w) (fB w))
  | 0x34 => some (.shl64 (fS w) (fD w) (fA w) (fB w))
  | 0x35 => some (.shr64 (fS w) (fD w) (fA w) (fB w))
  | 0x38 => some (.shfl (fS w) (fD w) (fA w) (fB w))
  | 0x39 => some (.shflx (fS w) (fD w) (fA w) (fB w))
  | 0x3A => some (.shflu (fS w) (fD w) (fA w) (fB w))
  | 0x3B => some (.shfld (fS w) (fD w) (fA w) (fB w))
  | _ => none

/-- L-set CL01 (R47 to R50): the instruction whose OP is `op`, if the word matches a defined form. -/
def decodeL01 (op : Nat) (w : Word) : Option Instr :=
  match op with
  | 0x00 => some (.iaddi (fS w) (fD w) (fA w) (fB w))
  | 0x01 => some (.andi (fS w) (fD w) (fA w) (fB w))
  | 0x02 => some (.ori (fS w) (fD w) (fA w) (fB w))
  | 0x03 => some (.xori (fS w) (fD w) (fA w) (fB w))
  | 0x04 => some (.shli (fS w) (fD w) (fA w) (fB w))
  | 0x05 => some (.shri (fS w) (fD w) (fA w) (fB w))
  | 0x06 => some (.sari (fS w) (fD w) (fA w) (fB w))
  | 0x07 => some (.rotli (fS w) (fD w) (fA w) (fB w))
  | 0x08 => some (.islti (fS w) (fD w) (fA w) (fB w))
  | 0x09 => some (.ieqi (fS w) (fD w) (fA w) (fB w))
  | 0x0A => some (.shl64i (fS w) (fD w) (fA w) (fB w))
  | 0x0B => some (.shr64i (fS w) (fD w) (fA w) (fB w))
  | 0x0C => some (.add64i (fS w) (fD w) (fA w) (fB w))
  | 0x10 => if w.extractLsb' 0 7 = 0#7 then some (.not (fS w) (fD w) (fA w)) else if w.extractLsb' 0 7 = 1#7 then some (.neg (fS w) (fD w) (fA w)) else if w.extractLsb' 0 7 = 2#7 then some (.abs (fS w) (fD w) (fA w)) else if w.extractLsb' 0 7 = 3#7 then some (.clz (fS w) (fD w) (fA w)) else if w.extractLsb' 0 7 = 4#7 then some (.popc (fS w) (fD w) (fA w)) else if w.extractLsb' 0 7 = 5#7 then some (.brev (fS w) (fD w) (fA w)) else if w.extractLsb' 0 7 = 6#7 then some (.sext8 (fS w) (fD w) (fA w)) else if w.extractLsb' 0 7 = 7#7 then some (.sext16 (fS w) (fD w) (fA w)) else if w.extractLsb' 0 7 = 8#7 then some (.zext8 (fS w) (fD w) (fA w)) else if w.extractLsb' 0 7 = 9#7 then some (.zext16 (fS w) (fD w) (fA w)) else none
  | 0x11 => if w.extractLsb' 0 7 = 0#7 then some (.fneg (fS w) (fD w) (fA w)) else if w.extractLsb' 0 7 = 1#7 then some (.fabs (fS w) (fD w) (fA w)) else if w.extractLsb' 0 7 = 2#7 then some (.frcp (fS w) (fD w) (fA w)) else if w.extractLsb' 0 7 = 3#7 then some (.frsq (fS w) (fD w) (fA w)) else if w.extractLsb' 0 7 = 4#7 then some (.fsqrt (fS w) (fD w) (fA w)) else if w.extractLsb' 0 7 = 5#7 then some (.fexp2 (fS w) (fD w) (fA w)) else if w.extractLsb' 0 7 = 6#7 then some (.flog2 (fS w) (fD w) (fA w)) else if w.extractLsb' 0 7 = 7#7 then some (.fsin (fS w) (fD w) (fA w)) else if w.extractLsb' 0 7 = 8#7 then some (.fcos (fS w) (fD w) (fA w)) else if w.extractLsb' 0 7 = 9#7 then some (.ftanh (fS w) (fD w) (fA w)) else if w.extractLsb' 0 7 = 10#7 then some (.ferf (fS w) (fD w) (fA w)) else if w.extractLsb' 0 7 = 11#7 then some (.ffloor (fS w) (fD w) (fA w)) else if w.extractLsb' 0 7 = 12#7 then some (.fceil (fS w) (fD w) (fA w)) else if w.extractLsb' 0 7 = 13#7 then some (.ftrunc (fS w) (fD w) (fA w)) else if w.extractLsb' 0 7 = 14#7 then some (.frint (fS w) (fD w) (fA w)) else none
  | 0x12 => some (.cvtf (fS w) (fD w) (fA w) (fM w) (fZ w))
  | 0x13 => if w.extractLsb' 0 3 = 0#3 then some (.cvtt (fS w) (fD w) (fA w) (fM w)) else none
  | 0x14 => some (.cvti (fS w) (fD w) (fA w) (fM w) (fZ w))
  | 0x15 => if w.extractLsb' 3 2 = 0#2 then some (.pack (fS w) (fD w) (fA w) (w.extractLsb' 5 2) (fZ w)) else none
  | 0x16 => if w.extractLsb' 3 2 = 0#2 then some (.unpk (fS w) (fD w) (fA w) (w.extractLsb' 5 2) (fZ w)) else none
  | 0x17 => some (.qcvt (fS w) (fD w) (fA w) (fM w) (fZ w))
  | 0x18 => some (.bmaxa (fS w) (fD w) (fA w) (fB w))
  | 0x19 => if w.extractLsb' 0 3 = 0#3 then some (.scalef (fS w) (fD w) (fA w) (fM w)) else none
  | 0x1A => some (.rand (fS w) (fD w) (fA w) (w.extractLsb' 5 2) (w.extractLsb' 0 5))
  | 0x20 => some (.movi (fS w) (fD w) (fI14 w))
  | 0x21 => some (.rds (fS w) (fD w) (fI14 w))
  | _ => none

/-- L-set CL10 (R51): the instruction whose OP is `op`, if the word matches a defined form. -/
def decodeL10 (op : Nat) (w : Word) : Option Instr :=
  match op with
  | 0x00 => some (.ld (fS w) (fD w) (fA w) (fM w) (fZ w))
  | 0x01 => some (.lds (fS w) (fD w) (fA w) (fM w) (fZ w))
  | 0x02 => some (.st (fS w) (fD w) (fA w) (fM w) (fZ w))
  | 0x03 => some (.ldk (fS w) (fD w) (fA w) (fM w) (fZ w))
  | 0x04 => some (.ldga (fS w) (fD w) (fA w) (fM w) (fZ w))
  | 0x05 => if w.extractLsb' 14 7 = 0#7 then some (.pref (fS w) (fA w) (fM w) (fZ w)) else none
  | 0x06 => some (.ldx (fS w) (fD w) (fA w) (fM w) (fZ w))
  | 0x07 => some (.stx (fS w) (fD w) (fA w) (fM w) (fZ w))
  | 0x08 => some (.ldl (fS w) (fD w) (fA w) (fM w) (fZ w))
  | 0x09 => some (.stl (fS w) (fD w) (fA w) (fM w) (fZ w))
  | 0x0A => if w.extractLsb' 0 3 = 3#3 then some (.ldw (fS w) (fD w) (fA w) (fM w)) else none
  | 0x0B => if w.extractLsb' 0 3 = 3#3 then some (.ldc (fS w) (fD w) (fA w) (fM w)) else none
  | 0x0C => if w.extractLsb' 0 3 = 3#3 then some (.stf (fS w) (fD w) (fA w) (fM w)) else none
  | 0x0D => if w.extractLsb' 0 3 = 3#3 then some (.stfs (fS w) (fD w) (fA w) (fM w)) else none
  | 0x0E => if w.extractLsb' 0 3 = 3#3 then some (.feset (fS w) (fD w) (fA w) (fM w)) else none
  | 0x0F => if w.extractLsb' 0 3 = 3#3 then some (.feget (fS w) (fD w) (fA w) (fM w)) else none
  | 0x10 => some (.atadd (fS w) (fD w) (fA w) (fM w) (fZ w))
  | 0x11 => some (.atmin (fS w) (fD w) (fA w) (fM w) (fZ w))
  | 0x12 => some (.atmax (fS w) (fD w) (fA w) (fM w) (fZ w))
  | 0x13 => some (.atand (fS w) (fD w) (fA w) (fM w) (fZ w))
  | 0x14 => some (.ator (fS w) (fD w) (fA w) (fM w) (fZ w))
  | 0x15 => some (.atxor (fS w) (fD w) (fA w) (fM w) (fZ w))
  | 0x16 => some (.atxch (fS w) (fD w) (fA w) (fM w) (fZ w))
  | 0x17 => some (.atcas (fS w) (fD w) (fA w) (fM w) (fZ w))
  | 0x18 => some (.redadd (fS w) (fD w) (fA w) (fM w) (fZ w))
  | 0x19 => some (.redmin (fS w) (fD w) (fA w) (fM w) (fZ w))
  | 0x1A => some (.redmax (fS w) (fD w) (fA w) (fM w) (fZ w))
  | 0x1B => some (.redand (fS w) (fD w) (fA w) (fM w) (fZ w))
  | 0x1C => some (.redor (fS w) (fD w) (fA w) (fM w) (fZ w))
  | 0x1D => some (.redxor (fS w) (fD w) (fA w) (fM w) (fZ w))
  | 0x1E => some (.append (fS w) (fD w) (fA w) (fM w) (fZ w))
  | 0x1F => some (.appendt (fS w) (fD w) (fA w) (fM w) (fZ w))
  | 0x20 => some (.latadd (fS w) (fD w) (fA w) (fM w) (fZ w))
  | 0x21 => some (.latmin (fS w) (fD w) (fA w) (fM w) (fZ w))
  | 0x22 => some (.latmax (fS w) (fD w) (fA w) (fM w) (fZ w))
  | 0x23 => some (.latcas (fS w) (fD w) (fA w) (fM w) (fZ w))
  | _ => none

/-- L-set CL11 (R52): the instruction whose OP is `op`, if the word matches a defined form. -/
def decodeL11 (op : Nat) (w : Word) : Option Instr :=
  match op with
  | 0x00 => some (.bra (fS w) (fI21 w))
  | 0x01 => some (.bnz (fS w) (fD w) (fI14 w))
  | 0x02 => some (.bz (fS w) (fD w) (fI14 w))
  | 0x03 => some (.call (fS w) (fI21 w))
  | 0x04 => if w.extractLsb' 14 7 = 0#7 ∧ w.extractLsb' 0 7 = 0#7 then some (.callr (fS w) (fA w)) else none
  | 0x05 => if w.extractLsb' 0 21 = 0#21 then some (.ret (fS w)) else none
  | 0x06 => if w.extractLsb' 14 7 = 0#7 ∧ w.extractLsb' 0 7 = 0#7 then some (.jmpr (fS w) (fA w)) else none
  | 0x07 => some (.meet (fS w) (fI21 w))
  | 0x08 => if w.extractLsb' 0 21 = 0#21 then some (.exit (fS w)) else none
  | 0x09 => some (.trapl (fS w) (fI21 w))
  | 0x0A => some (.bkptl (fS w) (fI21 w))
  | 0x0B => if w.extractLsb' 0 21 = 0#21 then some (.nop (fS w)) else none
  | _ => none

/-- G-set CL00 (R53): the instruction whose OP is `op`, if the word matches a defined form. -/
def decodeG00 (op : Nat) (w : Word) : Option Instr :=
  match op with
  | 0x00 => some (.gadd (fS w) (fD w) (fA w) (fB w))
  | 0x01 => some (.gsub (fS w) (fD w) (fA w) (fB w))
  | 0x02 => some (.gmul (fS w) (fD w) (fA w) (fB w))
  | 0x03 => some (.gmulhi (fS w) (fD w) (fA w) (fB w))
  | 0x04 => some (.gnmulhi (fS w) (fD w) (fA w) (fB w))
  | 0x05 => some (.gand (fS w) (fD w) (fA w) (fB w))
  | 0x06 => some (.gor (fS w) (fD w) (fA w) (fB w))
  | 0x07 => some (.gxor (fS w) (fD w) (fA w) (fB w))
  | 0x08 => some (.gshl (fS w) (fD w) (fA w) (fB w))
  | 0x09 => some (.gshr (fS w) (fD w) (fA w) (fB w))
  | 0x0A => some (.gsar (fS w) (fD w) (fA w) (fB w))
  | 0x0B => some (.gmin (fS w) (fD w) (fA w) (fB w))
  | 0x0C => some (.gmax (fS w) (fD w) (fA w) (fB w))
  | 0x0D => some (.gnmin (fS w) (fD w) (fA w) (fB w))
  | 0x0E => some (.gnmax (fS w) (fD w) (fA w) (fB w))
  | 0x0F => some (.gslt (fS w) (fD w) (fA w) (fB w))
  | 0x10 => some (.gsle (fS w) (fD w) (fA w) (fB w))
  | 0x11 => some (.gnslt (fS w) (fD w) (fA w) (fB w))
  | 0x12 => some (.gnsle (fS w) (fD w) (fA w) (fB w))
  | 0x13 => some (.geq (fS w) (fD w) (fA w) (fB w))
  | 0x14 => some (.gne (fS w) (fD w) (fA w) (fB w))
  | 0x15 => some (.gsel (fS w) (fD w) (fA w) (fB w))
  | 0x16 => some (.gadd64 (fS w) (fD w) (fA w) (fB w))
  | 0x17 => some (.gsub64 (fS w) (fD w) (fA w) (fB w))
  | 0x18 => some (.gshl64 (fS w) (fD w) (fA w) (fB w))
  | 0x19 => some (.gshr64 (fS w) (fD w) (fA w) (fB w))
  | 0x1A => some (.gmadw (fS w) (fD w) (fA w) (fB w))
  | 0x20 => if w.extractLsb' 0 7 = 0#7 then some (.lballot (fS w) (fD w) (fA w)) else none
  | 0x21 => if w.extractLsb' 0 7 = 0#7 then some (.lany (fS w) (fD w) (fA w)) else none
  | 0x22 => if w.extractLsb' 0 7 = 0#7 then some (.lall (fS w) (fD w) (fA w)) else none
  | 0x23 => some (.lread (fS w) (fD w) (fA w) (fB w))
  | 0x24 => some (.lwrite (fS w) (fD w) (fA w) (fB w))
  | 0x25 => if w.extractLsb' 0 7 = 0#7 then some (.lsum (fS w) (fD w) (fA w)) else none
  | 0x26 => if w.extractLsb' 0 7 = 0#7 then some (.lfsum (fS w) (fD w) (fA w)) else none
  | 0x27 => if w.extractLsb' 0 7 = 0#7 then some (.lmax (fS w) (fD w) (fA w)) else none
  | 0x28 => if w.extractLsb' 0 7 = 0#7 then some (.lmin (fS w) (fD w) (fA w)) else none
  | 0x29 => if w.extractLsb' 0 7 = 0#7 then some (.lfmax (fS w) (fD w) (fA w)) else none
  | 0x2A => if w.extractLsb' 0 7 = 0#7 then some (.lpopc (fS w) (fD w) (fA w)) else none
  | 0x2B => if w.extractLsb' 0 7 = 0#7 then some (.lfirst (fS w) (fD w) (fA w)) else none
  | 0x30 => some (.gfadd (fS w) (fD w) (fA w) (fB w))
  | 0x31 => some (.gfmul (fS w) (fD w) (fA w) (fB w))
  | 0x32 => some (.gffma (fS w) (fD w) (fA w) (fB w))
  | 0x33 => some (.gfmin (fS w) (fD w) (fA w) (fB w))
  | 0x34 => some (.gfmax (fS w) (fD w) (fA w) (fB w))
  | 0x35 => some (.gfslt (fS w) (fD w) (fA w) (fB w))
  | _ => none

/-- G-set CL01 (R54): the instruction whose OP is `op`, if the word matches a defined form. -/
def decodeG01 (op : Nat) (w : Word) : Option Instr :=
  match op with
  | 0x00 => some (.gmovi (fS w) (fD w) (fI14 w))
  | 0x01 => some (.gaddi (fS w) (fD w) (fA w) (fB w))
  | 0x02 => some (.gandi (fS w) (fD w) (fA w) (fB w))
  | 0x03 => some (.gori (fS w) (fD w) (fA w) (fB w))
  | 0x04 => some (.gshli (fS w) (fD w) (fA w) (fB w))
  | 0x05 => some (.gshri (fS w) (fD w) (fA w) (fB w))
  | 0x06 => some (.glui (fS w) (fD w) (fI14 w))
  | 0x08 => some (.grds (fS w) (fD w) (fI14 w))
  | 0x09 => some (.gwrs (fS w) (fD w) (fI14 w))
  | _ => none

/-- G-set CL10 (R55): the instruction whose OP is `op`, if the word matches a defined form. -/
def decodeG10 (op : Nat) (w : Word) : Option Instr :=
  match op with
  | 0x00 => if w.extractLsb' 0 12 = 0#12 then some (.fence (fS w) (w.extractLsb' 19 2) (w.extractLsb' 16 3) (w.extractLsb' 12 4)) else none
  | 0x01 => if w.extractLsb' 3 4 = 0#4 then some (.barWait (fS w) (fD w) (fA w) (fZ w)) else if w.extractLsb' 3 4 = 8#4 then some (.barArrive (fS w) (fD w) (fA w) (fZ w)) else none
  | 0x02 => some (.wait (fS w) (fD w) (fA w) (fB w))
  | 0x03 => if w.extractLsb' 0 21 = 0#21 then some (.yield (fS w)) else none
  | 0x04 => some (.gld (fS w) (fD w) (w.extractLsb' 10 4) (w.extractLsb' 7 3) (fB w))
  | 0x05 => some (.gst (fS w) (fD w) (w.extractLsb' 10 4) (w.extractLsb' 7 3) (fB w))
  | 0x06 => some (.gldk (fS w) (fD w) (w.extractLsb' 10 4) (w.extractLsb' 7 3) (fB w))
  | 0x07 => if w.extractLsb' 0 3 = 0#3 then some (.gatom (fS w) (fD w) (w.extractLsb' 10 4) (w.extractLsb' 7 3) (fM w)) else none
  | 0x08 => if w.extractLsb' 0 7 = 0#7 then some (.cpy (fS w) (fD w) (fA w)) else none
  | 0x09 => if w.extractLsb' 0 7 = 0#7 then some (.cpyq (fS w) (fD w) (fA w)) else none
  | 0x0A => if w.extractLsb' 0 7 = 0#7 then some (.cpystat (fS w) (fD w) (fA w)) else none
  | 0x0B => some (.jpost (fS w) (fD w) (fA w) (fB w))
  | 0x0C => if w.extractLsb' 0 7 = 0#7 then some (.sealPage (fS w) (fD w) (fA w)) else none
  | 0x0D => if w.extractLsb' 3 4 = 0#4 then some (.txbegin (fS w) (fD w) (fA w) (fZ w)) else none
  | 0x0E => if w.extractLsb' 0 14 = 0#14 then some (.txcommit (fS w) (fD w)) else if w.extractLsb' 0 14 = 1#14 then some (.txcommitForce (fS w) (fD w)) else none
  | 0x0F => if w.extractLsb' 0 21 = 0#21 then some (.txabort (fS w)) else none
  | 0x10 => if w.extractLsb' 2 12 = 0#12 then some (.txstat (fS w) (fD w) (w.extractLsb' 0 2)) else none
  | 0x11 => some (.ttload (fS w) (fD w) (fA w) (fB w))
  | 0x12 => some (.ttset (fS w) (fD w) (fA w) (fB w))
  | 0x13 => if w.extractLsb' 14 7 = 0#7 then some (.setpk (fS w) (fA w) (fB w)) else none
  | 0x14 => if w.extractLsb' 1 13 = 0#13 then some (.getpk (fS w) (fD w) (w.extractLsb' 0 1)) else none
  | 0x15 => if w.extractLsb' 0 14 = 0#14 then some (.rdtime (fS w) (fD w)) else none
  | 0x16 => if w.extractLsb' 0 14 = 0#14 then some (.digest (fS w) (fD w)) else if w.extractLsb' 0 7 = 1#7 then some (.digestFold (fS w) (fD w) (fA w)) else none
  | _ => none

/-- G-set CL11 (R55 and R306 to R314): the instruction whose OP is `op`, if the word matches a defined form. -/
def decodeG11 (op : Nat) (w : Word) : Option Instr :=
  match op with
  | 0x00 => some (.gbra (fS w) (fI21 w))
  | 0x01 => some (.gbnz (fS w) (fD w) (fI14 w))
  | 0x02 => some (.gbz (fS w) (fD w) (fI14 w))
  | 0x03 => if w.extractLsb' 0 21 = 0#21 then some (.gexit (fS w)) else none
  | 0x04 => some (.trap (fS w) (fI21 w))
  | 0x05 => if w.extractLsb' 0 21 = 0#21 then some (.trapret (fS w)) else none
  | 0x06 => some (.bkpt (fS w) (fI21 w))
  | 0x07 => if w.extractLsb' 0 21 = 0#21 then some (.gnop (fS w)) else none
  | 0x10 => if w.extractLsb' 0 11 = 0#11 then some (.mloadb (fS w) (w.extractLsb' 16 5) (w.extractLsb' 12 4) (w.extractLsb' 11 1)) else none
  | 0x11 => if w.extractLsb' 0 2 = 0#2 then some (.mloop (fS w) (w.extractLsb' 18 3) (w.extractLsb' 14 4) (w.extractLsb' 13 1) (w.extractLsb' 8 5) (w.extractLsb' 3 5) (w.extractLsb' 2 1)) else none
  | 0x12 => if w.extractLsb' 0 2 = 0#2 then some (.mloopg (fS w) (w.extractLsb' 18 3) (w.extractLsb' 14 4) (w.extractLsb' 13 1) (w.extractLsb' 8 5) (w.extractLsb' 3 5) (w.extractLsb' 2 1)) else none
  | 0x13 => if w.extractLsb' 0 11 = 0#11 then some (.mfence (fS w) (w.extractLsb' 13 8) (w.extractLsb' 12 1) (w.extractLsb' 11 1)) else none
  | 0x14 => if w.extractLsb' 0 18 = 0#18 then some (.mzero (fS w) (w.extractLsb' 18 3)) else none
  | 0x15 => if w.extractLsb' 12 2 = 0#2 ∧ w.extractLsb' 0 8 = 0#8 then some (.mstore (fS w) (w.extractLsb' 18 3) (w.extractLsb' 14 4) (w.extractLsb' 9 3) (w.extractLsb' 8 1)) else none
  | 0x16 => if w.extractLsb' 0 4 = 0#4 then some (.mread (fS w) (fD w) (w.extractLsb' 11 3) (w.extractLsb' 4 7)) else none
  | _ => none

/-- The instruction of a word of every defined form but three: EXT, which takes its follower with it (`decodePair`), and MWRITE
and MSTAT (`decodeWord`). -/
def decodeDefined (w : Word) : Option Instr :=
  if w.extractLsb' 31 1 = 0#1 then
    match (fCL w).toNat with
    | 0 => decodeL00 (fOP w).toNat w
    | 1 => decodeL01 (fOP w).toNat w
    | 2 => decodeL10 (fOP w).toNat w
    | _ => decodeL11 (fOP w).toNat w
  else
    match (fCL w).toNat with
    | 0 => decodeG00 (fOP w).toNat w
    | 1 => decodeG01 (fOP w).toNat w
    | 2 => decodeG10 (fOP w).toNat w
    | _ => decodeG11 (fOP w).toNat w

/-- The word is MWRITE, G-set CL11 OP 0x17 with bits [3:0] zero (R311). -/
def isMwriteWord (w : Word) : Bool := w.extractLsb' 21 8 == 0xD7#8 && w.getLsbD 31 && w.extractLsb' 0 4 == 0#4

/-- The word is MSTAT, G-set CL11 OP 0x18 with bits [13:0] zero (R314). -/
def isMstatWord (w : Word) : Bool := w.extractLsb' 21 8 == 0xD8#8 && w.getLsbD 31 && w.extractLsb' 0 14 == 0#14

/-- The instruction that one word holds; a word that matches no row of the opcode table is `reservedSlot` (R35, R56). An EXT
word is decoded with its follower by `decodePair`. This function is marked noncomputable only because Lean's runtime has no
room for an inductive's constructor past the 244th that carries data; the kernel evaluates it like any other, and `step`
reaches the same instructions through `decodeDefined`. -/
noncomputable def decodeWord (w : Word) : Instr :=
  match decodeDefined w with
  | some i => i
  | none =>
    if isMwriteWord w then .mwrite (fS w) (fD w) (w.extractLsb' 11 3) (w.extractLsb' 4 7)
    else if isMstatWord w then .mstat (fS w) (fD w)
    else .reservedSlot w

/-- The instruction at a word: an EXT word takes its follower with it (R58), whatever the follower is. -/
noncomputable def decodePair (w follower : Word) : Instr :=
  if isExtWord w then .ext (fS w) (fI21 w) follower else decodeWord w

/-- Why bytes hold no instruction. -/
inductive DecodeError where
  /-- Fewer than the four bytes of a word are given (R33). -/
  | noWord
  /-- The word is EXT and fewer than the four bytes of its follower are given (R58). -/
  | noFollower
deriving DecidableEq, Repr

/-- A little-endian word of four bytes (R33). -/
def wordOfBytes (b0 b1 b2 b3 : Byte) : Word := b3 ++ b2 ++ b1 ++ b0

/-- The four bytes of a word, lowest address first. -/
def bytesOfWord (w : Word) : List Byte :=
  [w.extractLsb' 0 8, w.extractLsb' 8 8, w.extractLsb' 16 8, w.extractLsb' 24 8]

/-- Decode the first instruction of a list of bytes and give the rest of the list. -/
noncomputable def decodeBytes : List Byte → Except DecodeError (Instr × List Byte)
  | b0 :: b1 :: b2 :: b3 :: rest =>
    let w := wordOfBytes b0 b1 b2 b3
    if isExtWord w then
      match rest with
      | c0 :: c1 :: c2 :: c3 :: rest' => .ok (.ext (fS w) (fI21 w) (wordOfBytes c0 c1 c2 c3), rest')
      | _ => .error .noFollower
    else .ok (decodeWord w, rest)
  | _ => .error .noWord

/-- The instruction the decoder reads from the bits of a table row: the first word is bits [31:0], a follower bits
[63:32], and every bit above `nbits` is 0. A row without a word (`nbits` = 0) gives none. -/
noncomputable def decodeTableWord (nbits w : Nat) : Option Instr :=
  if nbits = 0 then none
  else
    let v := w % 2 ^ nbits
    match decodeBytes (bytesOfWord (BitVec.ofNat 32 v) ++ bytesOfWord (BitVec.ofNat 32 (v / 2 ^ 32))) with
    | .ok (i, _) => some i
    | .error _ => none

/-- A word from its fields (R32). -/
def mkWord (set : BitVec 1) (s cl : BitVec 2) (op : BitVec 6) (body : BitVec 21) : Word :=
  set ++ s ++ cl ++ op ++ body

/-- The word of an instruction: of an EXT pair the follower's word (TRAPWORD, R58), of a step of the device none. -/
def wordOf : Instr → Word
  | .iadd s d a b => mkWord 0#1 s 0#2 0x00#6 (d ++ a ++ b)
  | .isub s d a b => mkWord 0#1 s 0#2 0x01#6 (d ++ a ++ b)
  | .imul s d a b => mkWord 0#1 s 0#2 0x02#6 (d ++ a ++ b)
  | .imulhi s d a b => mkWord 0#1 s 0#2 0x03#6 (d ++ a ++ b)
  | .nmulhi s d a b => mkWord 0#1 s 0#2 0x04#6 (d ++ a ++ b)
  | .imad s d a b => mkWord 0#1 s 0#2 0x05#6 (d ++ a ++ b)
  | .and s d a b => mkWord 0#1 s 0#2 0x06#6 (d ++ a ++ b)
  | .or s d a b => mkWord 0#1 s 0#2 0x07#6 (d ++ a ++ b)
  | .xor s d a b => mkWord 0#1 s 0#2 0x08#6 (d ++ a ++ b)
  | .andn s d a b => mkWord 0#1 s 0#2 0x09#6 (d ++ a ++ b)
  | .shl s d a b => mkWord 0#1 s 0#2 0x0A#6 (d ++ a ++ b)
  | .shr s d a b => mkWord 0#1 s 0#2 0x0B#6 (d ++ a ++ b)
  | .sar s d a b => mkWord 0#1 s 0#2 0x0C#6 (d ++ a ++ b)
  | .rotl s d a b => mkWord 0#1 s 0#2 0x0D#6 (d ++ a ++ b)
  | .imin s d a b => mkWord 0#1 s 0#2 0x0E#6 (d ++ a ++ b)
  | .imax s d a b => mkWord 0#1 s 0#2 0x0F#6 (d ++ a ++ b)
  | .nmin s d a b => mkWord 0#1 s 0#2 0x10#6 (d ++ a ++ b)
  | .nmax s d a b => mkWord 0#1 s 0#2 0x11#6 (d ++ a ++ b)
  | .islt s d a b => mkWord 0#1 s 0#2 0x12#6 (d ++ a ++ b)
  | .isle s d a b => mkWord 0#1 s 0#2 0x13#6 (d ++ a ++ b)
  | .nslt s d a b => mkWord 0#1 s 0#2 0x14#6 (d ++ a ++ b)
  | .nsle s d a b => mkWord 0#1 s 0#2 0x15#6 (d ++ a ++ b)
  | .ieq s d a b => mkWord 0#1 s 0#2 0x16#6 (d ++ a ++ b)
  | .ine s d a b => mkWord 0#1 s 0#2 0x17#6 (d ++ a ++ b)
  | .sel s d a b => mkWord 0#1 s 0#2 0x18#6 (d ++ a ++ b)
  | .fadd s d a b => mkWord 0#1 s 0#2 0x20#6 (d ++ a ++ b)
  | .fsub s d a b => mkWord 0#1 s 0#2 0x21#6 (d ++ a ++ b)
  | .fmul s d a b => mkWord 0#1 s 0#2 0x22#6 (d ++ a ++ b)
  | .ffma s d a b => mkWord 0#1 s 0#2 0x23#6 (d ++ a ++ b)
  | .fmin s d a b => mkWord 0#1 s 0#2 0x24#6 (d ++ a ++ b)
  | .fmax s d a b => mkWord 0#1 s 0#2 0x25#6 (d ++ a ++ b)
  | .fslt s d a b => mkWord 0#1 s 0#2 0x26#6 (d ++ a ++ b)
  | .fsle s d a b => mkWord 0#1 s 0#2 0x27#6 (d ++ a ++ b)
  | .fseq s d a b => mkWord 0#1 s 0#2 0x28#6 (d ++ a ++ b)
  | .fsne s d a b => mkWord 0#1 s 0#2 0x29#6 (d ++ a ++ b)
  | .fsun s d a b => mkWord 0#1 s 0#2 0x2A#6 (d ++ a ++ b)
  | .fldexp s d a b => mkWord 0#1 s 0#2 0x2B#6 (d ++ a ++ b)
  | .badd2 s d a b => mkWord 0#1 s 0#2 0x2C#6 (d ++ a ++ b)
  | .bmul2 s d a b => mkWord 0#1 s 0#2 0x2D#6 (d ++ a ++ b)
  | .bfma2 s d a b => mkWord 0#1 s 0#2 0x2E#6 (d ++ a ++ b)
  | .bdot2 s d a b => mkWord 0#1 s 0#2 0x2F#6 (d ++ a ++ b)
  | .iadd64 s d a b => mkWord 0#1 s 0#2 0x30#6 (d ++ a ++ b)
  | .isub64 s d a b => mkWord 0#1 s 0#2 0x31#6 (d ++ a ++ b)
  | .imadw s d a b => mkWord 0#1 s 0#2 0x32#6 (d ++ a ++ b)
  | .nmadw s d a b => mkWord 0#1 s 0#2 0x33#6 (d ++ a ++ b)
  | .shl64 s d a b => mkWord 0#1 s 0#2 0x34#6 (d ++ a ++ b)
  | .shr64 s d a b => mkWord 0#1 s 0#2 0x35#6 (d ++ a ++ b)
  | .shfl s d a b => mkWord 0#1 s 0#2 0x38#6 (d ++ a ++ b)
  | .shflx s d a b => mkWord 0#1 s 0#2 0x39#6 (d ++ a ++ b)
  | .shflu s d a b => mkWord 0#1 s 0#2 0x3A#6 (d ++ a ++ b)
  | .shfld s d a b => mkWord 0#1 s 0#2 0x3B#6 (d ++ a ++ b)
  | .iaddi s d a i => mkWord 0#1 s 1#2 0x00#6 (d ++ a ++ i)
  | .andi s d a i => mkWord 0#1 s 1#2 0x01#6 (d ++ a ++ i)
  | .ori s d a i => mkWord 0#1 s 1#2 0x02#6 (d ++ a ++ i)
  | .xori s d a i => mkWord 0#1 s 1#2 0x03#6 (d ++ a ++ i)
  | .shli s d a i => mkWord 0#1 s 1#2 0x04#6 (d ++ a ++ i)
  | .shri s d a i => mkWord 0#1 s 1#2 0x05#6 (d ++ a ++ i)
  | .sari s d a i => mkWord 0#1 s 1#2 0x06#6 (d ++ a ++ i)
  | .rotli s d a i => mkWord 0#1 s 1#2 0x07#6 (d ++ a ++ i)
  | .islti s d a i => mkWord 0#1 s 1#2 0x08#6 (d ++ a ++ i)
  | .ieqi s d a i => mkWord 0#1 s 1#2 0x09#6 (d ++ a ++ i)
  | .shl64i s d a i => mkWord 0#1 s 1#2 0x0A#6 (d ++ a ++ i)
  | .shr64i s d a i => mkWord 0#1 s 1#2 0x0B#6 (d ++ a ++ i)
  | .add64i s d a i => mkWord 0#1 s 1#2 0x0C#6 (d ++ a ++ i)
  | .not s d a => mkWord 0#1 s 1#2 0x10#6 (d ++ a ++ 0#7)
  | .neg s d a => mkWord 0#1 s 1#2 0x10#6 (d ++ a ++ 1#7)
  | .abs s d a => mkWord 0#1 s 1#2 0x10#6 (d ++ a ++ 2#7)
  | .clz s d a => mkWord 0#1 s 1#2 0x10#6 (d ++ a ++ 3#7)
  | .popc s d a => mkWord 0#1 s 1#2 0x10#6 (d ++ a ++ 4#7)
  | .brev s d a => mkWord 0#1 s 1#2 0x10#6 (d ++ a ++ 5#7)
  | .sext8 s d a => mkWord 0#1 s 1#2 0x10#6 (d ++ a ++ 6#7)
  | .sext16 s d a => mkWord 0#1 s 1#2 0x10#6 (d ++ a ++ 7#7)
  | .zext8 s d a => mkWord 0#1 s 1#2 0x10#6 (d ++ a ++ 8#7)
  | .zext16 s d a => mkWord 0#1 s 1#2 0x10#6 (d ++ a ++ 9#7)
  | .fneg s d a => mkWord 0#1 s 1#2 0x11#6 (d ++ a ++ 0#7)
  | .fabs s d a => mkWord 0#1 s 1#2 0x11#6 (d ++ a ++ 1#7)
  | .frcp s d a => mkWord 0#1 s 1#2 0x11#6 (d ++ a ++ 2#7)
  | .frsq s d a => mkWord 0#1 s 1#2 0x11#6 (d ++ a ++ 3#7)
  | .fsqrt s d a => mkWord 0#1 s 1#2 0x11#6 (d ++ a ++ 4#7)
  | .fexp2 s d a => mkWord 0#1 s 1#2 0x11#6 (d ++ a ++ 5#7)
  | .flog2 s d a => mkWord 0#1 s 1#2 0x11#6 (d ++ a ++ 6#7)
  | .fsin s d a => mkWord 0#1 s 1#2 0x11#6 (d ++ a ++ 7#7)
  | .fcos s d a => mkWord 0#1 s 1#2 0x11#6 (d ++ a ++ 8#7)
  | .ftanh s d a => mkWord 0#1 s 1#2 0x11#6 (d ++ a ++ 9#7)
  | .ferf s d a => mkWord 0#1 s 1#2 0x11#6 (d ++ a ++ 10#7)
  | .ffloor s d a => mkWord 0#1 s 1#2 0x11#6 (d ++ a ++ 11#7)
  | .fceil s d a => mkWord 0#1 s 1#2 0x11#6 (d ++ a ++ 12#7)
  | .ftrunc s d a => mkWord 0#1 s 1#2 0x11#6 (d ++ a ++ 13#7)
  | .frint s d a => mkWord 0#1 s 1#2 0x11#6 (d ++ a ++ 14#7)
  | .cvtf s d a f r => mkWord 0#1 s 1#2 0x12#6 (d ++ a ++ f ++ r)
  | .cvtt s d a f => mkWord 0#1 s 1#2 0x13#6 (d ++ a ++ f ++ 0#3)
  | .cvti s d a k r => mkWord 0#1 s 1#2 0x14#6 (d ++ a ++ k ++ r)
  | .pack s d a w e => mkWord 0#1 s 1#2 0x15#6 (d ++ a ++ w ++ 0#2 ++ e)
  | .unpk s d a w e => mkWord 0#1 s 1#2 0x16#6 (d ++ a ++ w ++ 0#2 ++ e)
  | .qcvt s d a f r => mkWord 0#1 s 1#2 0x17#6 (d ++ a ++ f ++ r)
  | .bmaxa s d a i => mkWord 0#1 s 1#2 0x18#6 (d ++ a ++ i)
  | .scalef s d a f => mkWord 0#1 s 1#2 0x19#6 (d ++ a ++ f ++ 0#3)
  | .rand s d a e k => mkWord 0#1 s 1#2 0x1A#6 (d ++ a ++ e ++ k)
  | .movi s d i => mkWord 0#1 s 1#2 0x20#6 (d ++ i)
  | .rds s d i => mkWord 0#1 s 1#2 0x21#6 (d ++ i)
  | .ld s d o a z => mkWord 0#1 s 2#2 0x00#6 (d ++ o ++ a ++ z)
  | .lds s d o a z => mkWord 0#1 s 2#2 0x01#6 (d ++ o ++ a ++ z)
  | .st s d o a z => mkWord 0#1 s 2#2 0x02#6 (d ++ o ++ a ++ z)
  | .ldk s d o a z => mkWord 0#1 s 2#2 0x03#6 (d ++ o ++ a ++ z)
  | .ldga s d o a z => mkWord 0#1 s 2#2 0x04#6 (d ++ o ++ a ++ z)
  | .pref s o a z => mkWord 0#1 s 2#2 0x05#6 (0#7 ++ o ++ a ++ z)
  | .ldx s d o a z => mkWord 0#1 s 2#2 0x06#6 (d ++ o ++ a ++ z)
  | .stx s d o a z => mkWord 0#1 s 2#2 0x07#6 (d ++ o ++ a ++ z)
  | .ldl s d o a z => mkWord 0#1 s 2#2 0x08#6 (d ++ o ++ a ++ z)
  | .stl s d o a z => mkWord 0#1 s 2#2 0x09#6 (d ++ o ++ a ++ z)
  | .ldw s d o a => mkWord 0#1 s 2#2 0x0A#6 (d ++ o ++ a ++ 3#3)
  | .ldc s d o a => mkWord 0#1 s 2#2 0x0B#6 (d ++ o ++ a ++ 3#3)
  | .stf s d o a => mkWord 0#1 s 2#2 0x0C#6 (d ++ o ++ a ++ 3#3)
  | .stfs s d o a => mkWord 0#1 s 2#2 0x0D#6 (d ++ o ++ a ++ 3#3)
  | .feset s d o a => mkWord 0#1 s 2#2 0x0E#6 (d ++ o ++ a ++ 3#3)
  | .feget s d o a => mkWord 0#1 s 2#2 0x0F#6 (d ++ o ++ a ++ 3#3)
  | .atadd s d o a z => mkWord 0#1 s 2#2 0x10#6 (d ++ o ++ a ++ z)
  | .atmin s d o a z => mkWord 0#1 s 2#2 0x11#6 (d ++ o ++ a ++ z)
  | .atmax s d o a z => mkWord 0#1 s 2#2 0x12#6 (d ++ o ++ a ++ z)
  | .atand s d o a z => mkWord 0#1 s 2#2 0x13#6 (d ++ o ++ a ++ z)
  | .ator s d o a z => mkWord 0#1 s 2#2 0x14#6 (d ++ o ++ a ++ z)
  | .atxor s d o a z => mkWord 0#1 s 2#2 0x15#6 (d ++ o ++ a ++ z)
  | .atxch s d o a z => mkWord 0#1 s 2#2 0x16#6 (d ++ o ++ a ++ z)
  | .atcas s d o a z => mkWord 0#1 s 2#2 0x17#6 (d ++ o ++ a ++ z)
  | .redadd s d o a z => mkWord 0#1 s 2#2 0x18#6 (d ++ o ++ a ++ z)
  | .redmin s d o a z => mkWord 0#1 s 2#2 0x19#6 (d ++ o ++ a ++ z)
  | .redmax s d o a z => mkWord 0#1 s 2#2 0x1A#6 (d ++ o ++ a ++ z)
  | .redand s d o a z => mkWord 0#1 s 2#2 0x1B#6 (d ++ o ++ a ++ z)
  | .redor s d o a z => mkWord 0#1 s 2#2 0x1C#6 (d ++ o ++ a ++ z)
  | .redxor s d o a z => mkWord 0#1 s 2#2 0x1D#6 (d ++ o ++ a ++ z)
  | .append s d o a z => mkWord 0#1 s 2#2 0x1E#6 (d ++ o ++ a ++ z)
  | .appendt s d o a z => mkWord 0#1 s 2#2 0x1F#6 (d ++ o ++ a ++ z)
  | .latadd s d o a z => mkWord 0#1 s 2#2 0x20#6 (d ++ o ++ a ++ z)
  | .latmin s d o a z => mkWord 0#1 s 2#2 0x21#6 (d ++ o ++ a ++ z)
  | .latmax s d o a z => mkWord 0#1 s 2#2 0x22#6 (d ++ o ++ a ++ z)
  | .latcas s d o a z => mkWord 0#1 s 2#2 0x23#6 (d ++ o ++ a ++ z)
  | .bra s i => mkWord 0#1 s 3#2 0x00#6 (i)
  | .bnz s c i => mkWord 0#1 s 3#2 0x01#6 (c ++ i)
  | .bz s c i => mkWord 0#1 s 3#2 0x02#6 (c ++ i)
  | .call s i => mkWord 0#1 s 3#2 0x03#6 (i)
  | .callr s a => mkWord 0#1 s 3#2 0x04#6 (0#7 ++ a ++ 0#7)
  | .ret s => mkWord 0#1 s 3#2 0x05#6 (0#21)
  | .jmpr s a => mkWord 0#1 s 3#2 0x06#6 (0#7 ++ a ++ 0#7)
  | .meet s i => mkWord 0#1 s 3#2 0x07#6 (i)
  | .exit s => mkWord 0#1 s 3#2 0x08#6 (0#21)
  | .trapl s i => mkWord 0#1 s 3#2 0x09#6 (i)
  | .bkptl s i => mkWord 0#1 s 3#2 0x0A#6 (i)
  | .nop s => mkWord 0#1 s 3#2 0x0B#6 (0#21)
  | .gadd s d a b => mkWord 1#1 s 0#2 0x00#6 (d ++ a ++ b)
  | .gsub s d a b => mkWord 1#1 s 0#2 0x01#6 (d ++ a ++ b)
  | .gmul s d a b => mkWord 1#1 s 0#2 0x02#6 (d ++ a ++ b)
  | .gmulhi s d a b => mkWord 1#1 s 0#2 0x03#6 (d ++ a ++ b)
  | .gnmulhi s d a b => mkWord 1#1 s 0#2 0x04#6 (d ++ a ++ b)
  | .gand s d a b => mkWord 1#1 s 0#2 0x05#6 (d ++ a ++ b)
  | .gor s d a b => mkWord 1#1 s 0#2 0x06#6 (d ++ a ++ b)
  | .gxor s d a b => mkWord 1#1 s 0#2 0x07#6 (d ++ a ++ b)
  | .gshl s d a b => mkWord 1#1 s 0#2 0x08#6 (d ++ a ++ b)
  | .gshr s d a b => mkWord 1#1 s 0#2 0x09#6 (d ++ a ++ b)
  | .gsar s d a b => mkWord 1#1 s 0#2 0x0A#6 (d ++ a ++ b)
  | .gmin s d a b => mkWord 1#1 s 0#2 0x0B#6 (d ++ a ++ b)
  | .gmax s d a b => mkWord 1#1 s 0#2 0x0C#6 (d ++ a ++ b)
  | .gnmin s d a b => mkWord 1#1 s 0#2 0x0D#6 (d ++ a ++ b)
  | .gnmax s d a b => mkWord 1#1 s 0#2 0x0E#6 (d ++ a ++ b)
  | .gslt s d a b => mkWord 1#1 s 0#2 0x0F#6 (d ++ a ++ b)
  | .gsle s d a b => mkWord 1#1 s 0#2 0x10#6 (d ++ a ++ b)
  | .gnslt s d a b => mkWord 1#1 s 0#2 0x11#6 (d ++ a ++ b)
  | .gnsle s d a b => mkWord 1#1 s 0#2 0x12#6 (d ++ a ++ b)
  | .geq s d a b => mkWord 1#1 s 0#2 0x13#6 (d ++ a ++ b)
  | .gne s d a b => mkWord 1#1 s 0#2 0x14#6 (d ++ a ++ b)
  | .gsel s d a b => mkWord 1#1 s 0#2 0x15#6 (d ++ a ++ b)
  | .gadd64 s d a b => mkWord 1#1 s 0#2 0x16#6 (d ++ a ++ b)
  | .gsub64 s d a b => mkWord 1#1 s 0#2 0x17#6 (d ++ a ++ b)
  | .gshl64 s d a b => mkWord 1#1 s 0#2 0x18#6 (d ++ a ++ b)
  | .gshr64 s d a b => mkWord 1#1 s 0#2 0x19#6 (d ++ a ++ b)
  | .gmadw s d a b => mkWord 1#1 s 0#2 0x1A#6 (d ++ a ++ b)
  | .lballot s d a => mkWord 1#1 s 0#2 0x20#6 (d ++ a ++ 0#7)
  | .lany s d a => mkWord 1#1 s 0#2 0x21#6 (d ++ a ++ 0#7)
  | .lall s d a => mkWord 1#1 s 0#2 0x22#6 (d ++ a ++ 0#7)
  | .lread s d a b => mkWord 1#1 s 0#2 0x23#6 (d ++ a ++ b)
  | .lwrite s d a b => mkWord 1#1 s 0#2 0x24#6 (d ++ a ++ b)
  | .lsum s d a => mkWord 1#1 s 0#2 0x25#6 (d ++ a ++ 0#7)
  | .lfsum s d a => mkWord 1#1 s 0#2 0x26#6 (d ++ a ++ 0#7)
  | .lmax s d a => mkWord 1#1 s 0#2 0x27#6 (d ++ a ++ 0#7)
  | .lmin s d a => mkWord 1#1 s 0#2 0x28#6 (d ++ a ++ 0#7)
  | .lfmax s d a => mkWord 1#1 s 0#2 0x29#6 (d ++ a ++ 0#7)
  | .lpopc s d a => mkWord 1#1 s 0#2 0x2A#6 (d ++ a ++ 0#7)
  | .lfirst s d a => mkWord 1#1 s 0#2 0x2B#6 (d ++ a ++ 0#7)
  | .gfadd s d a b => mkWord 1#1 s 0#2 0x30#6 (d ++ a ++ b)
  | .gfmul s d a b => mkWord 1#1 s 0#2 0x31#6 (d ++ a ++ b)
  | .gffma s d a b => mkWord 1#1 s 0#2 0x32#6 (d ++ a ++ b)
  | .gfmin s d a b => mkWord 1#1 s 0#2 0x33#6 (d ++ a ++ b)
  | .gfmax s d a b => mkWord 1#1 s 0#2 0x34#6 (d ++ a ++ b)
  | .gfslt s d a b => mkWord 1#1 s 0#2 0x35#6 (d ++ a ++ b)
  | .gmovi s d i => mkWord 1#1 s 1#2 0x00#6 (d ++ i)
  | .gaddi s d a i => mkWord 1#1 s 1#2 0x01#6 (d ++ a ++ i)
  | .gandi s d a i => mkWord 1#1 s 1#2 0x02#6 (d ++ a ++ i)
  | .gori s d a i => mkWord 1#1 s 1#2 0x03#6 (d ++ a ++ i)
  | .gshli s d a i => mkWord 1#1 s 1#2 0x04#6 (d ++ a ++ i)
  | .gshri s d a i => mkWord 1#1 s 1#2 0x05#6 (d ++ a ++ i)
  | .glui s d i => mkWord 1#1 s 1#2 0x06#6 (d ++ i)
  | .grds s d i => mkWord 1#1 s 1#2 0x08#6 (d ++ i)
  | .gwrs s d i => mkWord 1#1 s 1#2 0x09#6 (d ++ i)
  | .fence s k p h => mkWord 1#1 s 2#2 0x00#6 (k ++ p ++ h ++ 0#12)
  | .barWait s d a n => mkWord 1#1 s 2#2 0x01#6 (d ++ a ++ 0#4 ++ n)
  | .barArrive s d a n => mkWord 1#1 s 2#2 0x01#6 (d ++ a ++ 8#4 ++ n)
  | .wait s d a b => mkWord 1#1 s 2#2 0x02#6 (d ++ a ++ b)
  | .yield s => mkWord 1#1 s 2#2 0x03#6 (0#21)
  | .gld s d a z i => mkWord 1#1 s 2#2 0x04#6 (d ++ a ++ z ++ i)
  | .gst s d a z i => mkWord 1#1 s 2#2 0x05#6 (d ++ a ++ z ++ i)
  | .gldk s d a z i => mkWord 1#1 s 2#2 0x06#6 (d ++ a ++ z ++ i)
  | .gatom s d a z p => mkWord 1#1 s 2#2 0x07#6 (d ++ a ++ z ++ p ++ 0#3)
  | .cpy s d a => mkWord 1#1 s 2#2 0x08#6 (d ++ a ++ 0#7)
  | .cpyq s d a => mkWord 1#1 s 2#2 0x09#6 (d ++ a ++ 0#7)
  | .cpystat s d a => mkWord 1#1 s 2#2 0x0A#6 (d ++ a ++ 0#7)
  | .jpost s d a b => mkWord 1#1 s 2#2 0x0B#6 (d ++ a ++ b)
  | .sealPage s d a => mkWord 1#1 s 2#2 0x0C#6 (d ++ a ++ 0#7)
  | .txbegin s d a l => mkWord 1#1 s 2#2 0x0D#6 (d ++ a ++ 0#4 ++ l)
  | .txcommit s d => mkWord 1#1 s 2#2 0x0E#6 (d ++ 0#14)
  | .txcommitForce s d => mkWord 1#1 s 2#2 0x0E#6 (d ++ 1#14)
  | .txabort s => mkWord 1#1 s 2#2 0x0F#6 (0#21)
  | .txstat s d e => mkWord 1#1 s 2#2 0x10#6 (d ++ 0#12 ++ e)
  | .ttload s d a b => mkWord 1#1 s 2#2 0x11#6 (d ++ a ++ b)
  | .ttset s f a b => mkWord 1#1 s 2#2 0x12#6 (f ++ a ++ b)
  | .setpk s a b => mkWord 1#1 s 2#2 0x13#6 (0#7 ++ a ++ b)
  | .getpk s d e => mkWord 1#1 s 2#2 0x14#6 (d ++ 0#13 ++ e)
  | .rdtime s d => mkWord 1#1 s 2#2 0x15#6 (d ++ 0#14)
  | .digest s d => mkWord 1#1 s 2#2 0x16#6 (d ++ 0#14)
  | .digestFold s d a => mkWord 1#1 s 2#2 0x16#6 (d ++ a ++ 1#7)
  | .gbra s i => mkWord 1#1 s 3#2 0x00#6 (i)
  | .gbnz s c i => mkWord 1#1 s 3#2 0x01#6 (c ++ i)
  | .gbz s c i => mkWord 1#1 s 3#2 0x02#6 (c ++ i)
  | .gexit s => mkWord 1#1 s 3#2 0x03#6 (0#21)
  | .trap s i => mkWord 1#1 s 3#2 0x04#6 (i)
  | .trapret s => mkWord 1#1 s 3#2 0x05#6 (0#21)
  | .bkpt s i => mkWord 1#1 s 3#2 0x06#6 (i)
  | .gnop s => mkWord 1#1 s 3#2 0x07#6 (0#21)
  | .mloadb s b q l => mkWord 1#1 s 3#2 0x10#6 (b ++ q ++ l ++ 0#11)
  | .mloop s c q l b n z => mkWord 1#1 s 3#2 0x11#6 (c ++ q ++ l ++ b ++ n ++ z ++ 0#2)
  | .mloopg s c q l b n z => mkWord 1#1 s 3#2 0x12#6 (c ++ q ++ l ++ b ++ n ++ z ++ 0#2)
  | .mfence s m b h => mkWord 1#1 s 3#2 0x13#6 (m ++ b ++ h ++ 0#11)
  | .mzero s c => mkWord 1#1 s 3#2 0x14#6 (c ++ 0#18)
  | .mstore s c q r t => mkWord 1#1 s 3#2 0x15#6 (c ++ q ++ 0#2 ++ r ++ t ++ 0#8)
  | .mread s d c a => mkWord 1#1 s 3#2 0x16#6 (d ++ c ++ a ++ 0#4)
  | .mwrite s d c a => mkWord 1#1 s 3#2 0x17#6 (d ++ c ++ a ++ 0#4)
  | .mstat s d => mkWord 1#1 s 3#2 0x18#6 (d ++ 0#14)
  | .ext _ _ w => w
  | .reservedSlot w => w
  | .deviceQueueTake => 0#32
  | .clusterQueueTake _ => 0#32
  | .teamPlace _ _ => 0#32
  | .groupRestore _ _ => 0#32
  | .preemptionRequest _ => 0#32
  | .groupEvict _ => 0#32
  | .pendingWriteLands _ _ => 0#32
  | .sliceStorePerform _ _ => 0#32
  | .sliceAtomicPerform _ => 0#32
  | .sliceAppendPerform _ => 0#32
  | .sliceSealPerform _ => 0#32
  | .sliceFeAccess _ => 0#32
  | .leaseExpiry _ => 0#32
  | .groupStarved _ => 0#32
  | .waitTimeout _ _ => 0#32
  | .waitPoll _ _ => 0#32
  | .fePollTry _ => 0#32
  | .feTimeout _ => 0#32
  | .gatePoll _ _ => 0#32
  | .placementWaitExpiry _ _ => 0#32
  | .launchQuiet _ => 0#32
  | .haltAtBoundary _ _ => 0#32
  | .carterStart _ _ => 0#32
  | .carterPayloadComplete _ => 0#32
  | .carterCompletionWord _ => 0#32
  | .carterPoison _ => 0#32
  | .loomStepGrant _ _ => 0#32
  | .loomCommandRetire _ => 0#32
  | .txPreemptExpiry _ => 0#32
  | .overflowInterval _ _ _ _ _ => 0#32
  | .hardwarePrefetch _ _ _ _ => 0#32
  | .replicaDrop _ _ => 0#32
  | .peerRequestArrive _ => 0#32
  | .peerTimeout _ => 0#32
  | .myentRead _ _ => 0#32
  | .myentPostedWrite _ _ => 0#32
  | .myentFetchAdd _ _ => 0#32
  | .myentCompareAndSwap _ _ _ => 0#32
  | .queueTailWrite _ _ => 0#32
  | .queueEnable _ _ => 0#32
  | .kill _ => 0#32
  | .cartrel _ => 0#32
  | .resdone _ => 0#32
  | .freepg _ _ => 0#32
  | .freePageDone _ => 0#32
  | .l2quota _ _ => 0#32
  | .assayclr _ => 0#32
  | .assayTableEmpty => 0#32
  | .haltreq _ _ _ => 0#32
  | .groupResume _ _ => 0#32
  | .frozenRelease _ _ => 0#32
  | .clkctl _ _ _ => 0#32
  | .clockChangeApply _ => 0#32
  | .droopDetect _ => 0#32
  | .droopFloorRelease _ => 0#32
  | .currentInterval _ _ => 0#32
  | .thermalLevelChange _ _ => 0#32
  | .smhb _ _ _ => 0#32
  | .smctl _ _ _ => 0#32
  | .watchdogExpiry _ => 0#32
  | .railStepUp _ => 0#32
  | .guardBandDown _ => 0#32
  | .migreq _ _ _ => 0#32
  | .ueSend _ => 0#32
  | .ueTaggedSend _ => 0#32
  | .uePut _ => 0#32
  | .ueGet _ => 0#32
  | .uePostTaggedReceive _ => 0#32
  | .uePostReceive _ => 0#32
  | .uePacketArrive _ => 0#32
  | .ueCardComplete _ _ => 0#32
  | .correctedError _ => 0#32
  | .uncorrectableError _ => 0#32
  | .patrolScrub => 0#32
  | .reset => 0#32
  | .stageAReady _ _ => 0#32
  | .bootctl _ => 0#32
  | .stageBComplete _ _ => 0#32
  | .attctl _ => 0#32
  | .attestationReportReady => 0#32
  | .registerWrite _ _ _ => 0#32
  | .loomStepRetire _ _ => 0#32
  | .peerAcknowledgement _ => 0#32
  | .hostAcknowledgement _ => 0#32
  | .linkLevelRetry => 0#32

/-- The words of an instruction: one, two for an EXT pair, none for a step of the device. -/
def encode : Instr → List Word
  | .ext s e w => [mkWord 1#1 s 1#2 0x3F#6 e, w]
  | .deviceQueueTake => []
  | .clusterQueueTake _ => []
  | .teamPlace _ _ => []
  | .groupRestore _ _ => []
  | .preemptionRequest _ => []
  | .groupEvict _ => []
  | .pendingWriteLands _ _ => []
  | .sliceStorePerform _ _ => []
  | .sliceAtomicPerform _ => []
  | .sliceAppendPerform _ => []
  | .sliceSealPerform _ => []
  | .sliceFeAccess _ => []
  | .leaseExpiry _ => []
  | .groupStarved _ => []
  | .waitTimeout _ _ => []
  | .waitPoll _ _ => []
  | .fePollTry _ => []
  | .feTimeout _ => []
  | .gatePoll _ _ => []
  | .placementWaitExpiry _ _ => []
  | .launchQuiet _ => []
  | .haltAtBoundary _ _ => []
  | .carterStart _ _ => []
  | .carterPayloadComplete _ => []
  | .carterCompletionWord _ => []
  | .carterPoison _ => []
  | .loomStepGrant _ _ => []
  | .loomCommandRetire _ => []
  | .txPreemptExpiry _ => []
  | .overflowInterval _ _ _ _ _ => []
  | .hardwarePrefetch _ _ _ _ => []
  | .replicaDrop _ _ => []
  | .peerRequestArrive _ => []
  | .peerTimeout _ => []
  | .myentRead _ _ => []
  | .myentPostedWrite _ _ => []
  | .myentFetchAdd _ _ => []
  | .myentCompareAndSwap _ _ _ => []
  | .queueTailWrite _ _ => []
  | .queueEnable _ _ => []
  | .kill _ => []
  | .cartrel _ => []
  | .resdone _ => []
  | .freepg _ _ => []
  | .freePageDone _ => []
  | .l2quota _ _ => []
  | .assayclr _ => []
  | .assayTableEmpty => []
  | .haltreq _ _ _ => []
  | .groupResume _ _ => []
  | .frozenRelease _ _ => []
  | .clkctl _ _ _ => []
  | .clockChangeApply _ => []
  | .droopDetect _ => []
  | .droopFloorRelease _ => []
  | .currentInterval _ _ => []
  | .thermalLevelChange _ _ => []
  | .smhb _ _ _ => []
  | .smctl _ _ _ => []
  | .watchdogExpiry _ => []
  | .railStepUp _ => []
  | .guardBandDown _ => []
  | .migreq _ _ _ => []
  | .ueSend _ => []
  | .ueTaggedSend _ => []
  | .uePut _ => []
  | .ueGet _ => []
  | .uePostTaggedReceive _ => []
  | .uePostReceive _ => []
  | .uePacketArrive _ => []
  | .ueCardComplete _ _ => []
  | .correctedError _ => []
  | .uncorrectableError _ => []
  | .patrolScrub => []
  | .reset => []
  | .stageAReady _ _ => []
  | .bootctl _ => []
  | .stageBComplete _ _ => []
  | .attctl _ => []
  | .attestationReportReady => []
  | .registerWrite _ _ _ => []
  | .loomStepRetire _ _ => []
  | .peerAcknowledgement _ => []
  | .hostAcknowledgement _ => []
  | .linkLevelRetry => []
  | i => [wordOf i]

/-- The bytes of an instruction as memory holds them (R33). -/
def encodeBytes (i : Instr) : List Byte := (encode i).flatMap bytesOfWord

end Sys2Proof
end

