-- ==== Sys2Proof/Machine/Table.lean ====
section
/-! DEFINITION. Tables of plain data: a list of key and value pairs with strictly rising keys. `Tab` keeps records that may
be absent; `Sparse` reads a default where nothing is listed and lists no entry equal to that default, so that equal contents
are equal lists (memory, register files, accumulators). -/

namespace Sys2Proof.Machine

/-- A table: pairs of a key and a value, keys strictly rising. -/
abbrev Tab (α : Type) := List (Nat × α)

/-- The entry at a key. -/
def Tab.get? {α : Type} : Tab α → Nat → Option α
  | [], _ => none
  | (k, v) :: t, n => if k = n then some v else Tab.get? t n

/-- Put a value at a key, keeping the keys rising. -/
def Tab.put {α : Type} : Tab α → Nat → α → Tab α
  | [], n, x => [(n, x)]
  | (k, v) :: t, n, x =>
    if n < k then (n, x) :: (k, v) :: t
    else if n = k then (n, x) :: t
    else (k, v) :: Tab.put t n x

/-- Remove a key. -/
def Tab.del {α : Type} : Tab α → Nat → Tab α
  | [], _ => []
  | (k, v) :: t, n => if k = n then Tab.del t n else (k, v) :: Tab.del t n

/-- The value at a key, or a default. -/
def Tab.getD {α : Type} (t : Tab α) (n : Nat) (d : α) : α := (Tab.get? t n).getD d

/-- Change the entry at a key, if there is one. -/
def Tab.modify {α : Type} (t : Tab α) (n : Nat) (f : α → α) : Tab α :=
  match Tab.get? t n with
  | some v => Tab.put t n (f v)
  | none => t

/-- The keys in rising order. -/
def Tab.keys {α : Type} (t : Tab α) : List Nat := t.map (fun e => e.1)

/-- The values in the order of their keys. -/
def Tab.values {α : Type} (t : Tab α) : List α := t.map (fun e => e.2)

/-- The keys rise strictly. -/
def Tab.sorted {α : Type} : Tab α → Bool
  | [] => true
  | [_] => true
  | (k, _) :: (k', v') :: t => decide (k < k') && Tab.sorted ((k', v') :: t)

/-- Read a sparse table: `d` where nothing is listed. -/
def Sparse.get {α : Type} (d : α) (t : Tab α) (n : Nat) : α := (Tab.get? t n).getD d

/-- Write a sparse table; writing the default removes the entry. -/
def Sparse.set {α : Type} [DecidableEq α] (d : α) (t : Tab α) (n : Nat) (x : α) : Tab α :=
  if x = d then Tab.del t n else Tab.put t n x

/-- The `k` values of a sparse table whose keys are at or above `n`, from key `n` on. -/
def Sparse.dense {α : Type} (d : α) : Nat → Nat → Tab α → List α
  | 0, _, _ => []
  | k + 1, n, [] => d :: Sparse.dense d k (n + 1) []
  | k + 1, n, (m, v) :: t => if m = n then v :: Sparse.dense d k (n + 1) t else d :: Sparse.dense d k (n + 1) ((m, v) :: t)

/-- The `k` values of a sparse table from a key on. -/
def Sparse.segment {α : Type} (d : α) (t : Tab α) (n k : Nat) : List α := Sparse.dense d k n (t.filter (fun e => decide (n ≤ e.1)))

/-- Replace the values of a sparse table from a key on. -/
def Sparse.fill {α : Type} [DecidableEq α] (d : α) (t : Tab α) (n : Nat) (xs : List α) : Tab α :=
  t.filter (fun e => decide (e.1 < n)) ++ (xs.zipIdx.map (fun x => (n + x.2, x.1))).filter (fun e => decide (e.2 ≠ d))
    ++ t.filter (fun e => decide (n + xs.length ≤ e.1))

/-- The canonical form of a sparse table: keys strictly rising and no entry equal to the default. -/
def Sparse.wf {α : Type} [DecidableEq α] (d : α) (t : Tab α) : Bool :=
  Tab.sorted t && t.all (fun e => decide (e.2 ≠ d))

/-- A set of naturals as a strictly rising list. -/
abbrev NatSet := List Nat

/-- Put a member. -/
def NatSet.ins : NatSet → Nat → NatSet
  | [], n => [n]
  | k :: t, n => if n < k then n :: k :: t else if n = k then k :: t else k :: NatSet.ins t n

/-- Remove a member. -/
def NatSet.del : NatSet → Nat → NatSet
  | [], _ => []
  | k :: t, n => if k = n then NatSet.del t n else k :: NatSet.del t n

/-- Membership. -/
def NatSet.mem (t : NatSet) (n : Nat) : Bool := t.any (fun k => k == n)

/-- The members rise strictly. -/
def NatSet.sorted : NatSet → Bool
  | [] => true
  | [_] => true
  | k :: k' :: t => decide (k < k') && NatSet.sorted (k' :: t)

/-- Change the element at a place of a list, if there is one. -/
def listModify {α : Type} : List α → Nat → (α → α) → List α
  | [], _, _ => []
  | x :: t, 0, f => f x :: t
  | x :: t, n + 1, f => x :: listModify t n f

/-- Change every element of a list with its place. -/
def listMapIdx {α β : Type} (f : Nat → α → β) : Nat → List α → List β
  | _, [] => []
  | n, x :: t => f n x :: listMapIdx f (n + 1) t

/-- The first place of a list whose element satisfies a test. -/
def listFindIdx {α : Type} (p : α → Bool) : Nat → List α → Option Nat
  | _, [] => none
  | n, x :: t => if p x then some n else listFindIdx p (n + 1) t

end Sys2Proof.Machine
end

