-- ==== Sys2Proof/Machine/State.lean ====
section
/-! DEFINITION. The state of the ZH-6400, as plain data: everything spec/ gives the machine (INVENTORY.md lists it rule by
rule), the agenda that says which agent acts next, and the counters of the model's own. -/

namespace Sys2Proof.Machine

/-! ### Threads and groups (spec/01, spec/10) -/

/-- Why a live thread does not issue, beyond being held (R15). -/
inductive Wait where
  /-- It may issue. -/
  | run
  /-- Its issue set stopped at the blocking point with this number in the group's list (R25). -/
  | block (id : Nat)
  /-- Its own F/E access has not been performed (R136), or a slice has not answered its APPEND or STFS (R210). -/
  | slice
deriving DecidableEq, Repr

/-- An entry of the call and meeting stack (R19), 64 bits. -/
abbrev StackEntry := DWord

/-- A thread: one lane of a group (R7, R12, R15, R16, R19, R21, R23, R161). -/
structure Thread where
  /-- It has not ended. -/
  live : Bool
  pc : DWord
  /-- The meeting register. -/
  meet : DWord
  /-- The meeting depth. -/
  md : Nat
  /-- The core's own record of the meeting values pushed, the latest first (R16, R23). -/
  record : List DWord
  /-- The on-chip entries, the top first, at most four (R19). -/
  stack : List StackEntry
  /-- How many entries lie spilled in memory (R21). -/
  spilled : Nat
  /-- It owes a release pop (R23). -/
  owes : Bool
  wait : Wait
  febudget : Word
  /-- V0 to V111; an unlisted register holds 0. -/
  v : Tab Word
  /-- Requests in flight whose stored value this thread has read early (R270, R272). -/
  early : NatSet
  /-- Device time until which some cache may still serve an older value of what this thread has read (R272). -/
  seen : Nat
deriving DecidableEq, Repr

/-- A thread at group start (R12), and the default where no thread is. -/
def Thread.start (entry : DWord) (live : Bool) : Thread :=
  { live := live, pc := entry, meet := noMeeting, md := 0, record := [], stack := [], spilled := 0, owes := false, wait := .run,
    febudget := 0x0098_9680#32, v := [], early := [], seen := 0 }

/-- How a condition of a WAIT, or a waiting F/E access, is watched (R256 to R259). -/
inductive Watch where
  /-- On its way to the home slice. -/
  | flying
  /-- Held by a condition monitor at the home slice, installed as the `seq`-th. -/
  | monitor (seq : Nat)
  /-- Held by record `idx` of the launch's park pool. -/
  | parked (idx : Nat)
  /-- Tried every 256 ref ticks; `next` is the device time of the next try. -/
  | polled (next : Nat)
  /-- Performed with this result while its group was halted: the wake is recorded, and acted on after the resume (R230). -/
  | done (w : DWord)
deriving DecidableEq, Repr

/-- An entry of a wait block (R173) with the place of its word. -/
structure WaitEntry where
  kind : Nat
  addr : DWord
  cmp : Nat
  size8 : Bool
  value : DWord
  /-- Physical address of the word of kinds 1 and 2. -/
  pa : Nat
  watch : Watch
deriving DecidableEq, Repr

/-- What an issue set stopped at (R25). -/
inductive BlockKind where
  /-- WAIT (R175): its entries, ANY, the device time at which its timeout falls due, and the result register. -/
  | wait (entries : List WaitEntry) (any : Bool) (deadline : Option Nat) (dest : Nat)
  /-- BAR (R170): the barrier, the phase and the result register. -/
  | bar (n : Nat) (phase : BitVec 31) (dest : Nat)
  /-- A load served from a peer device or the host: the request awaited. -/
  | load (req : Nat)
  /-- YIELD (R25). -/
  | yield
  /-- What its threads waited for has come while the handler of other threads was open: they go on after TRAPRET (R218). -/
  | over
deriving DecidableEq, Repr

/-- A blocked issue set: its threads keep the PC of the blocking instruction and go on at `next`. `woken` is the result of a wake event that
was recorded while the group was halted (R230). -/
structure Block where
  lanes : LaneSet
  next : DWord
  kind : BlockKind
  woken : Option Word := none
deriving DecidableEq, Repr

/-- An outstanding fixed-latency write (R61, R64, R65): the register, the issue cycle at which it is due, and the values
before the write, by lane (lane 0 for a G register). -/
structure Due where
  reg : Reg
  due : Nat
  old : Tab Word
deriving DecidableEq, Repr

/-- What is left of an APPEND whose pages a slice has not all answered (R142, R210). -/
structure AppendJob where
  /-- Requests of the instruction not yet answered. -/
  left : Nat
  /-- The issue set, the instruction's address, the address after it, its word and prefix. -/
  lanes : LaneSet
  pc : DWord
  next : DWord
  word : Word
  pfx : Prefix
  /-- Lanes whose page was sealed, and the address each of them named. -/
  sealed : Tab DWord
deriving DecidableEq, Repr

/-- A pre-emption request that waits (R224, R328): the device time at which it came. -/
structure Preempt where
  since : Nat
deriving DecidableEq, Repr

/-- Where a group is (R20, R26): resident in a slot of a core, or evicted from a core. -/
inductive Place where
  | resident (core slot : Nat)
  | evicted (core : Nat)
deriving DecidableEq, Repr

/-- A group (R7, R12, R16, R61 to R66, R210 to R225). -/
structure Group where
  launch : Nat
  /-- The number of its team in the table of teams. -/
  team : Nat
  /-- GROUPID. -/
  gid : Nat
  width : Nat
  vregs : Nat
  gregs : Nat
  place : Place
  seat : Nat
  /-- Row of V0, datapath position in units of 16, and word index of G0 (R249). -/
  vrow : Nat
  vcol : Nat
  grow : Nat
  threads : List Thread
  /-- G0 to G63; an unlisted register holds 0. -/
  g : Tab Word
  /-- The rotation pointer (R16). -/
  rot : DWord
  /-- The current issue set; no lane when there is none (R16). -/
  cur : LaneSet
  /-- Issue cycles since group start, stall counts included (R61). -/
  cycle : Nat
  dues : List Due
  trapvec : DWord
  /-- CODE, DETAIL and PFX of TRAPCAUSE, bits [16:0]; HND is `handler` (R212). -/
  trapcause : BitVec 17
  handler : Bool
  /-- CODE of the cause for which the handler was last entered (R193, R217), which GWRS does not change. -/
  entered : Nat
  traplanes : LaneSet
  trappc : DWord
  trapword : Word
  trapf : DWord
  trapaddr : DWord
  /-- The threads of the open handler (R217). -/
  hset : LaneSet
  /-- STALLCHK bit 0 (R65). -/
  stallchk : Bool
  keyperm : DWord
  srkey : DWord
  frozen : Bool
  halted : Bool
  /-- The next issue tests no comparator (R230). -/
  resumed : Bool
  /-- It halts at its next instruction boundary as a team freeze (R231). -/
  teamhalt : Bool
  preempt : Option Preempt
  blocks : Tab Block
  append : Option AppendJob
  /-- Device time since which it is resident, and since which it is ready without a grant (R29). -/
  residentSince : Nat
  readySince : Nat
  starved : Bool
  /-- While it is evicted: the 8-byte words of its saved registers that are poisoned (R389), as `Group.regWords` numbers them. -/
  badRegs : NatSet := []
  /-- What of its wait without a grant lies before `readySince`, in ns times FE as it was then (R29). -/
  readyClocks : Nat := 0
deriving DecidableEq, Repr

/-! ### Teams, transactions and launches (spec/16, spec/18) -/

/-- A barrier of a team (R169 to R171). -/
structure Barrier where
  phase : BitVec 31
  arrived : Nat
  expect : Nat
  /-- The highest GROUPID among the wait-form arrivals of the phase (R171). -/
  highWait : Option Nat
deriving DecidableEq, Repr

/-- A barrier at team start (R169). -/
def Barrier.start : Barrier := { phase := 0#31, arrived := 0, expect := 0, highWait := none }

/-- What a logged store does at commit (R128, R322, R324). -/
inductive LogOp where
  | write (bytes : List Byte)
  /-- An MSTORE's write of an aligned 8-byte word, with none for the bytes it keeps. -/
  | masked (bytes : List (Option Byte))
  | reduce (op : AtomOp) (ty : BitVec 3) (x : DWord)
  | fill (data : DWord)
  /-- The place of an MSTORE's words, command `cmd`, which are found as it retires (R322). -/
  | tile (cmd : Nat)
deriving DecidableEq, Repr

/-- An entry of the store log. -/
structure LogEntry where
  /-- Core of the group that made the access, its group and its lane (none for a G-set or Loom store). -/
  core : Nat
  group : Nat
  lane : Option Nat
  pa : Nat
  va : DWord
  op : LogOp
deriving DecidableEq, Repr

/-- A shadow copy of a 4 KiB scratchpad or lent segment (R323): the core whose overflow store holds it, the core and offset
of the segment in that core's window, its bytes and their poison. -/
structure Shadow where
  holder : Nat
  core : Nat
  lrf : Bool
  base : Nat
  bytes : List Byte
  /-- Its poisoned 8-byte words, 0 to 511 (R389). -/
  bad : NatSet := []
deriving DecidableEq, Repr

/-- An open tile transaction (R192 to R195, R318 to R322). -/
structure Tx where
  /-- A number that no other transaction has. -/
  id : Nat
  ladder : Nat
  tile : Nat
  rung : Nat
  top : Nat
  range : Nat
  cancel : Nat
  rtrip : Bool
  ctrip : Bool
  log : List LogEntry
  /-- The threads, by group, that have read a value of the log (R272, R280). -/
  readers : Tab LaneSet := []
  /-- Log bytes reserved or used in the overflow store of each core (R252, R322). -/
  logBytes : Tab Nat
  shadows : List Shadow
deriving DecidableEq, Repr

/-- The replay record of a task (R318, R325). -/
structure Replay where
  ladder : Nat
  tile : Nat
  rung : Nat
  top : Nat
deriving DecidableEq, Repr

/-- The status of a carter command as its team holds it (R186). -/
structure CpyStatus where
  ticket : Word
  state : Nat
  poison : Bool
  clamp : Nat
deriving DecidableEq, Repr

/-- A team, that is a task (R7, R12, R251, R318). -/
structure Team where
  launch : Nat
  /-- TEAMID. -/
  teamid : Nat
  /-- The core (the even core of a pair) and the odd core under PAIR; SPBASE on each, in 4 KiB units. -/
  core : Nat
  odd : Option Nat
  spbase : Nat
  spodd : Nat
  /-- While every group of the team is evicted: the bytes of its scratchpad on each of its cores, saved with it (R24, R26). -/
  saved : Option (Tab Byte × Tab Byte)
  /-- The poisoned 8-byte words of those saved scratchpads, by their place in each (R389). -/
  savedBad : NatSet × NatSet := ([], [])
  bars : List Barrier
  /-- The tensor table: the entries with VALID 1 (R293, R297). -/
  tensors : Tab (BitVec 512)
  tx : Option Tx
  replay : Option Replay
  /-- The next carter ticket (R180). -/
  ticket : Word
  /-- The finished commands whose status is still held, the latest first, at most 16 (R186). -/
  finished : List CpyStatus
  digest : DWord
deriving DecidableEq, Repr

/-- A task that waits to be run again (R325). -/
structure ReplayTask where
  teamid : Nat
  /-- The number the task has in the table of teams, which its replay keeps: its tickets, its statuses and its digest stay there. -/
  team : Nat
  replay : Replay
deriving DecidableEq, Repr

/-- A declared range (R240). -/
structure DeclRange where
  base : DWord
  len : DWord
  rd : Bool
  wr : Bool
  fetch : Bool
deriving DecidableEq, Repr

/-- An extent of a launch (R241). -/
structure Extent where
  va : Nat
  pa : Nat
  len : Nat
  append : Bool
  /-- Size in bytes of the pages of an append extent (R238). -/
  page : Nat
  qc : Nat
  key : Nat
  rd : Bool
  wr : Bool
  fetch : Bool
deriving DecidableEq, Repr

/-- A gate of an accepted card (R341). -/
structure Gate where
  pa : Nat
  resolved : Bool
  watch : Watch
deriving DecidableEq, Repr

/-- How far a launch has come (R338 to R354). -/
inductive Phase where
  /-- Its walk waits for a page to be made resident (R241, R382). -/
  | residency
  /-- Its gates have not all resolved (R341). -/
  | gated
  /-- Its teams may be placed. -/
  | running
  /-- Its completion word has been written, or it was refused. -/
  | ended
deriving DecidableEq, Repr

/-- A launch (R338). -/
structure Launch where
  /-- PA of its context's descriptor, CTXID, KEYMAX and DEBUG as read at acceptance (R235, R332). -/
  ctx : Nat
  ctxid : Nat
  keymax : DWord
  debug : Bool
  card : BitVec 1024
  /-- The card's virtual address. -/
  cardVa : Nat
  args : List Word
  /-- Effective priority (R335). -/
  prio : Nat
  /-- PA of its ring entry, if it has one (R334, R337). -/
  ring : Option Nat
  hflush : Bool
  /-- The posting launch and the cluster whose queue held the card (R336, R339, R343). -/
  parent : Option Nat
  cluster : Option Nat
  phase : Phase
  ranges : List DeclRange
  extents : List Extent
  /-- It holds a lease; the launch whose lease it inherited (R339, R242). -/
  leased : Bool
  heir : Option Nat
  gates : List Gate
  ladders : List (BitVec 1024)
  tensors : Tab (BitVec 512)
  /-- The shape values of a bucket launch (R352). -/
  shapes : List Word
  /-- The next TEAMID to place, and the DET order: the wave that each logical core places next (R343, R359). -/
  nextTeam : Nat
  waves : Tab Nat
  homes : Tab Nat
  /-- Tasks that wait to be run again. -/
  replays : List ReplayTask
  /-- Since when its next team waits with no core qualifying, and whether groups have been asked to leave for it (R345). -/
  waitSince : Nat
  asked : Bool
  /-- The digests of the tasks that have ended (R360). -/
  digests : Tab DWord
  multiw : Nat
  reexec : Bool
  froze : Bool
  /-- No further team starts: killed (2) or aborted on a freeze (1), the FAIL code (R222, R355, R357). -/
  fail : Option Nat
  /-- Device time since which the quiet tree holds (R353). -/
  quietSince : Option Nat
  /-- Requests in flight whose value threads that have gone read early, and the time until which a cache may serve an older value of
  what they read (R272): its completion word is released after them. -/
  early : NatSet
  seen : Nat
deriving DecidableEq, Repr

/-! ### Requests, copies and engine commands (spec/12, spec/14, spec/08, spec/16) -/

/-- A register write that lands (R63): of one lane's V register, or of a G register. -/
structure RegWrite where
  lane : Option Nat
  reg : Nat
  val : Word
deriving DecidableEq, Repr

/-- One lane's part of a load; the lane is absent for a G-set load. -/
structure LoadPart where
  lane : Option Nat
  reg : Nat
  va : DWord
  pa : Nat
  size : Nat
  signed : Bool
deriving DecidableEq, Repr

/-- A store of at most eight bytes of one aligned 8-byte word, performed whole (R126). -/
structure StorePart where
  lane : Option Nat
  va : DWord
  pa : Nat
  bytes : List Byte
deriving DecidableEq, Repr

/-- A carter's or the Loom's write of an aligned 8-byte word, performed whole (R183, R315): its eight bytes, none for one that it keeps. -/
structure WordPut where
  va : DWord
  pa : Nat
  bytes : List (Option Byte)
deriving DecidableEq, Repr

/-- One lane's operand of an atomic (R138, R140). -/
structure AtomLane where
  lane : Option Nat
  x : DWord
  new : DWord
deriving DecidableEq, Repr

/-- One lane's record of an append (R142). -/
structure AppendRec where
  lane : Nat
  va : DWord
  bytes : List Byte
deriving DecidableEq, Repr

/-- One lane of an STFS (R135). -/
structure FillLane where
  lane : Nat
  va : DWord
  pa : Nat
  data : DWord
deriving DecidableEq, Repr

/-- What a request in flight asks (R63, R135 to R142, R191, R269, R281). -/
inductive ReqKind where
  /-- A result that has been found and has not landed. -/
  | value (ws : List RegWrite)
  | load (path : Path) (parts : List LoadPart)
  | store (parts : List StorePart)
  /-- An atomic or, with no result register, a reduction on one word. -/
  | atomic (op : AtomOp) (ty : BitVec 3) (va : DWord) (pa : Nat) (ops : List AtomLane) (reg : Option Nat)
  /-- An append to one page: APPENDT, the page's base and size, the records, the result register. -/
  | append (trial : Bool) (base size : Nat) (bytes : Nat) (recs : List AppendRec) (reg : Nat)
  | seal (base : Nat) (reg : Nat)
  /-- One lane of LDW, LDC, STF, FESET or FEGET. -/
  | fe (kind : FeKind) (lane : Nat) (va : DWord) (pa : Nat) (data : DWord) (reg : Nat) (watch : Watch)
  | stfs (lanes : List FillLane)
  /-- The log of a committed transaction, in order, with the result for G[D] (R193, R281). -/
  | commit (entries : List LogEntry) (reg : Nat) (result : Word)
deriving DecidableEq, Repr

/-- A request in flight. -/
structure Req where
  /-- The number of the issuing group, its launch and team, the threads in whose program order it stands, and its core. -/
  group : Nat
  launch : Nat
  team : Nat
  lanes : LaneSet
  core : Nat
  /-- Device time of issue. -/
  time : Nat
  /-- The instruction's address, word and prefix, for a stop found after issue (R137, R210). -/
  pc : DWord
  word : Word
  pfx : Prefix
  /-- Registers whose pending bit it holds (R63). -/
  dest : List Reg
  /-- The result does not land before this device time (R281), and completion time of what has been performed (R269). -/
  notBefore : Nat
  /-- Performed writes whose acknowledgement by the host or by a peer is outstanding (R266, R286, R288). -/
  hostAck : Bool
  peerAck : Bool
  kind : ReqKind
  /-- The other threads, by group, whose stores a commit carries (R271, R281). -/
  others : Tab LaneSet := []
  /-- A word of an atomic, FEGET or FESET whose instruction has passed its last check: every lane of it is performed (R100). -/
  sure : Bool := false
deriving DecidableEq, Repr

/-- A cached copy of a 128-byte line; peer copies carry no lease (R287). `bad` lists its 8-byte words, 0 to 15, that an error in the cache
has poisoned (R389). -/
structure Copy where
  holder : Holder
  path : Path
  line : Nat
  data : List Byte
  expiry : Nat
  bad : NatSet := []
deriving DecidableEq, Repr

/-- A piece of a physical range: virtual address (or the window address itself), physical address, bytes. -/
structure Seg where
  va : Nat
  pa : Nat
  len : Nat
deriving DecidableEq, Repr

/-- A carter command (R180 to R188). -/
structure Cmd where
  launch : Nat
  team : Nat
  /-- The issuing group: its number, GROUPID, core. -/
  group : Nat
  gid : Nat
  core : Nat
  die : Nat
  ticket : Word
  quant : Bool
  block : BitVec 512
  /-- Physical pieces of the source and destination ranges, scale areas included. -/
  src : List Seg
  dst : List Seg
  /-- PA of the completion word. -/
  compw : Nat
  /-- STATE of R186. -/
  state : Nat
  poison : Bool
  clamp : Nat
  carter : Option Nat
  /-- CPYQ: the destination bytes found in its two passes, with their addresses (R185). -/
  out : List WordPut
  /-- Payload words performed, by index, and the latest completion time. -/
  performed : NatSet
  complete : Nat
  hostAck : Bool
  peerAck : Bool
  /-- Its completion word is still to be written. -/
  compDue : Bool
  /-- CPYQ: the entries of its two tensors as it issued. -/
  srcT : BitVec 512
  dstT : BitVec 512
  /-- It was deferred by a transaction that has committed (R187). -/
  deferred : Bool := false
  /-- Device time at which it started or last performed a word, from which its peer's answer is awaited (R384). -/
  since : Nat := 0
deriving DecidableEq, Repr

/-- What a Loom command does (R306 to R313). -/
inductive LoomOp where
  | loadb (slot : Nat) (tensor : BitVec 512) (row col : Nat)
  | loop (acc slot nk : Nat) (zero : Bool) (tensor : BitVec 512) (row col : Nat)
  | zero (acc : Nat)
  | store (acc : Nat) (tensor : BitVec 512) (row col round : Nat) (int : Bool)
  | read (acc row col reg : Nat)
  | write (acc row col : Nat) (vals : List (Nat × Word))
deriving DecidableEq, Repr

/-- What a granted Loom step has read (R302, R307): whether it adds in i32, whether it met poison, the exact sums by 64·i + n, and
its counts for the monitors (R320, R321). -/
structure LoomStep where
  int : Bool
  poison : Bool
  sums : List Val
  extreme : Nat
  cancel : Nat
deriving DecidableEq, Repr

/-- A Loom command that has not retired (R301). -/
structure Loom where
  launch : Nat
  team : Nat
  group : Nat
  lanes : LaneSet
  core : Nat
  prio : Nat
  op : LoomOp
  /-- Commands that must have retired before it starts: recorded tag predecessors and MFENCEs (R309, R313). -/
  after : NatSet
  tag : Option Nat
  /-- MLOOP (not MLOOPG): ordered with MLOOPs of equal shape (R316). -/
  ordered : Bool
  /-- Steps fetched and not granted, with the number of grants of the core's Loom that have passed each over (R302). -/
  fetched : Tab Nat := []
  /-- Steps granted and not retired, and the next step to be added (R302, R307, R315). -/
  granted : Tab LoomStep
  nextStep : Nat
  /-- Memory pieces read and written (R303). -/
  src : List Seg
  dst : List Seg
  /-- The transaction in which it was issued (R193, R320, R322). -/
  tx : Option Nat
  /-- MSTORE: the words it writes, once it has read its accumulator; those performed, and their latest completion time (R315). -/
  out : Option (List WordPut)
  performed : NatSet
  complete : Nat
deriving DecidableEq, Repr

/-- An MFENCE in force on a core: the commands that name a masked resource and were issued before it (R313). -/
structure LoomFence where
  mask : BitVec 8
  slots : Bool
  earlier : NatSet
deriving DecidableEq, Repr

/-! ### Cores, clusters, dies and the device -/

/-- A slot of a Loom (R290): its words by 64·n + j, its format (ELEM and SCALING), its band scale, and the words whose elements were
poisoned when they were loaded (R304). `inK` and `inN` say how far the panel lay inside its tensor's extents: beyond them an element is zero
whatever the band scale (R92, R295). -/
structure Slot where
  words : Tab Half
  inK : Nat
  inN : Nat
  elem : Nat
  scaling : Nat
  band : Half
  bad : NatSet
deriving DecidableEq, Repr

/-- A slot that is zero, with format BF16 and band scale 0 (R292, R348). -/
def Slot.zero : Slot := { words := [], inK := 64, inN := 64, elem := 1, scaling := 0, band := 0#16, bad := [] }

/-- A PC comparator or a data comparator (R227, R228); MASK is unused in a PC comparator. -/
structure Comparator where
  addr : DWord
  mask : DWord
  lanes : LaneSet
  ctrl : Word
deriving DecidableEq, Repr

/-- A comparator after reset (R227). -/
def Comparator.zero : Comparator := { addr := 0, mask := 0, lanes := 0, ctrl := 0 }

/-- The debug registers of a resident slot (R227, R228), but for HALTED and FROZEN, which the group holds. -/
structure DebugSlot where
  sstep : Bool
  frzteam : Bool
  haltreq : Bool
  reason : Nat
  comp : Nat
  lanes : LaneSet
  pc : DWord
deriving DecidableEq, Repr

/-- The debug registers of a slot after reset. -/
def DebugSlot.zero : DebugSlot :=
  { sstep := false, frzteam := false, haltreq := false, reason := 0, comp := 0, lanes := 0, pc := 0 }

/-- A core (R248, R252, R253, R289, R292, R348, R390). -/
structure Core where
  /-- The bytes of the local store, by offset; an unlisted byte reads 0 (log 2). -/
  lstore : Tab Byte
  /-- The words of the register files that no resident group holds, by window offset / 4 (R248, R249). -/
  lrf : Tab Word
  grf : Tab Word
  /-- Accumulator words, by 4096·k + 64·i + n. -/
  acc : Tab Word
  slots : Tab Slot
  /-- The Loom launch that holds the claim (R292). -/
  claim : Option Nat
  /-- Graph tags outstanding, each with the command that holds it (R309). -/
  tags : Tab Nat
  fences : List LoomFence
  /-- A group's next instruction waits for these commands, by group (MFENCE.hold, R313). -/
  holds : Tab NatSet
  /-- The launch it is dark for, and that launch's lit core (R348). -/
  dark : Option (Nat × Nat)
  /-- Size of the overflow store in 32 KiB units, and the number of the last 1,600-ref-tick interval that it was set for (R253). -/
  ov : Nat
  ovInterval : Nat
  qclamp : DWord
  droppf : DWord
  fedrop : DWord
  cesram : DWord
  uesram : DWord
  pcs : List Comparator
  datas : List Comparator
  debugSlots : List DebugSlot
deriving DecidableEq, Repr

/-- A core after reset. DESIGN CHOICE, log 2. -/
def Core.reset : Core :=
  { lstore := [], lrf := [], grf := [], acc := [], slots := [], claim := none, tags := [], fences := [], holds := [], dark := none,
    ov := 0, ovInterval := 0, qclamp := 0, droppf := 0, fedrop := 0, cesram := 0, uesram := 0,
    pcs := List.replicate 4 Comparator.zero, datas := List.replicate 4 Comparator.zero,
    debugSlots := List.replicate 16 DebugSlot.zero }

/-- An entry of a cluster queue (R336). -/
structure ClusterEntry where
  card : DWord
  valid : Bool
  taken : Bool
  ctxid : Nat
  parent : Nat
  /-- PA of the poster's context descriptor, and the posting order. -/
  ctx : Nat
  order : Nat
deriving DecidableEq, Repr

/-- An empty cluster-queue entry. -/
def ClusterEntry.empty : ClusterEntry :=
  { card := 0, valid := false, taken := false, ctxid := 0, parent := 0, ctx := 0, order := 0 }

/-- A cluster: clocks, floors, guard band, queue (R336, R368 to R375). -/
structure Cluster where
  clkctl : Word
  feeff : Nat
  rateff : Nat
  peff : Nat
  drpev : Bool
  badw : Bool
  /-- Device time of the last droop, while its floor is in force (R371). -/
  droop : Option Nat
  /-- PREQ as it was when the safe table last began, in force until that ends (R374). -/
  preq : Nat
  /-- The current floor in PREQ's code and the run of 1 µs intervals below 90 % of CLIMIT (R372). -/
  cfloor : Nat
  below : Nat
  /-- The number of the last 1 µs interval whose average has been taken (R372). -/
  curInterval : Nat := 0
  thermal : Nat
  /-- The guard band is raised; a core has asked for it; the last step's end (R375). -/
  railup : Bool
  railreq : Bool
  lastStep : Nat
  queue : List ClusterEntry
deriving DecidableEq, Repr

/-- A cluster after reset (R368, R370): the safe table is in force (R374). -/
def Cluster.reset : Cluster :=
  { clkctl := 0x00A0_0158#32, feeff := 24, rateff := 1, peff := 1, drpev := false, badw := false, droop := none, preq := 1, cfloor := 0,
    below := 0, thermal := 0, railup := false, railreq := false, lastStep := 0, queue := List.replicate 8 ClusterEntry.empty }

/-- A die's memory page (R247, R260, R262, R263, R374, R376, R390). -/
structure Die where
  l2quota : Word
  tailtab : DWord
  replbase : DWord
  replsize : DWord
  freepg : DWord
  freeBusy : Bool
  freeDone : Bool
  freeBad : Bool
  freeGen : Word
  smhb : Word
  /-- Device time of the last write to SMHB; the watchdog runs since the end of stage B (R374). -/
  smhbTime : Nat
  upd : Bool
  expired : Bool
  migreq : Word
  migBusy : Bool
  migDone : Bool
  migDrop : Bool
  cehbm : DWord
  uehbm : DWord
  /-- Sealed pages copied into the die's replica pool, by the PA of their first byte: the PA of each copy and its size (R262). -/
  replicas : Tab (Nat × Nat)
deriving DecidableEq, Repr

/-- A die after reset. -/
def Die.reset : Die :=
  { l2quota := 0x0404_0404#32, tailtab := 0, replbase := 0, replsize := 0, freepg := 0, freeBusy := false, freeDone := false,
    freeBad := false, freeGen := 0, smhb := 0, smhbTime := 0, upd := false, expired := false, migreq := 0x000F_FC00#32,
    migBusy := false, migDone := false, migDrop := false, cehbm := 0, uehbm := 0, replicas := [] }

/-- A device queue descriptor (R333). -/
structure Queue where
  base : DWord
  ctx : DWord
  log2n : Nat
  prio : Nat
  en : Bool
  devpost : Bool
  hflush : Bool
  tail : Half
  head : Half
  /-- The posting launch of each entry that JPOST appended (R337, R339), by index. -/
  parents : Tab Nat
deriving DecidableEq, Repr

/-- A device queue descriptor after reset. -/
def Queue.reset : Queue :=
  { base := 0, ctx := 0, log2n := 0, prio := 0, en := false, devpost := false, hflush := false, tail := 0, head := 0, parents := [] }

/-- A way of the assay table (R329), the most recently used first in its set. -/
structure AssayWay where
  ctx : Nat
  entry : DWord
  ladder : Nat
  rung : Nat
  calm : Nat
deriving DecidableEq, Repr

/-- A carter (R180, R183, R188): the command it performs or, frozen, holds. -/
structure Carter where
  cmd : Option Nat
  frozen : Bool
deriving DecidableEq, Repr

/-- A card of the Ultra Ethernet engine (R386, R387). -/
structure UeCard where
  queue : Nat
  launch : Nat
  card : BitVec 1024
  /-- Physical pieces of the local buffer and PA of the completion word. -/
  buf : List Seg
  compw : Nat
  /-- Bytes received so far. -/
  received : Nat
  truncated : Bool
  filled : Bool
  /-- Latest completion time of the payload written, and whether its acknowledgements are outstanding (R387). -/
  complete : Nat
  hostAck : Bool
  peerAck : Bool
deriving DecidableEq, Repr

/-- A packet that the engine has sent to the fabric (R385, R386): the card it belongs to (0 for an answer), the operation and the ports, the
fabric address and the job ID of the endpoint, delivery mode, tag, remote key and offset, the length, and the payload. -/
structure Packet where
  card : Nat
  op : Nat
  ports : Nat
  address : BitVec 128
  job : Nat
  deliv : Nat
  tag : DWord
  rkey : Word
  roff : DWord
  len : Nat
  data : List Byte
deriving DecidableEq, Repr

/-- A card in a queue of the Ultra Ethernet engine (R386): its number in the order of posting, the posting launch and its address. -/
structure Posted where
  order : Nat
  launch : Nat
  card : DWord
deriving DecidableEq, Repr

/-- The Ultra Ethernet engine (R385 to R387). -/
structure Engine where
  /-- Queued cards of the eight queues, the oldest first. -/
  queues : List (List Posted)
  /-- Cards in progress or posted receives, by number, in posting order. -/
  cards : Tab UeCard
  /-- Packets sent to the fabric, the latest first. -/
  sent : List Packet
deriving DecidableEq, Repr

/-- Start-up and attestation (R391, R392). -/
structure Boot where
  stage : Nat
  fail : Bool
  fcode : Nat
  fwver : Word
  fwverA : Word
  gob : Bool
  len : Word
  nonce : List Byte
  attctl : Nat
  attBusy : Bool
  attNonce : List Byte
  report : List Byte
  stageBHash : Option (BitVec 512)
deriving DecidableEq, Repr

/-- What the host has been sent and what it last read (R380, R383). -/
structure HostLink where
  /-- Message vectors with their argument, the latest first. -/
  messages : List (Nat × Nat)
  /-- The bytes of the last read, and the old value of the last fetch-add or compare-and-swap. -/
  reply : List Byte
  old : DWord
  /-- The bytes of the last answer to a Weft peer (R286). -/
  peerReply : List Byte
deriving DecidableEq, Repr

/-- Which agent acts next. -/
inductive Choice where
  /-- Pipe `g` of a core (true: the G-set pipe) grants a group by R29, which issues. -/
  | issue (core : Nat) (g : Bool)
  /-- A step of the device that has no instruction word. -/
  | event (i : Instr)
  /-- The device time advances by so many ns. -/
  | pass (ns : Nat)
  /-- An agent outside the device changes memory beyond this device's links: host memory or a peer's memory. -/
  | outside (cells : List Host.Cell)
  /-- The F/E bit of a peer's word is set by an agent outside: filled (true) or emptied. -/
  | outsideFill (pa : Nat) (full : Bool)
  /-- A peer that is present ceases to answer requests (true), or answers them again (R384). -/
  | peerSilence (peer : Nat) (on : Bool)
deriving DecidableEq, Repr

/-- The machine. -/
structure State where
  /-- Device time in ns (R200). -/
  time : Nat
  /-- Local HBM, and host and peer memory as this device reaches it, by physical address (R233); log 1. -/
  mem : List Host.Cell
  /-- Full words, by PA / 8; watched sectors, by PA / 64; poisoned words, by PA / 8 (R254, R389). -/
  full : NatSet
  watched : NatSet
  poison : NatSet
  /-- Requests in flight, in order of issue. -/
  reqs : Tab Req
  copies : Tab Copy
  /-- The latest expiry of every lease granted on a line, by PA / 128, while it has not passed (R269). -/
  leases : Tab Nat
  groups : Tab Group
  teams : Tab Team
  launches : Tab Launch
  cmds : Tab Cmd
  looms : Tab Loom
  cores : Tab Core
  clusters : Tab Cluster
  dies : Tab Die
  queues : Tab Queue
  /-- The queue served last at each QPRIO, for the round robin among its equals (R335, R336): device queue 0 to 63, or 64 plus a cluster. -/
  lastQueue : Tab Nat
  /-- The next launch number (R338). -/
  nextLaunch : Nat
  /-- The assay table by set, and ASSAYCLR.CLEAR (R329, R330). -/
  assay : Tab (List AssayWay)
  assayclr : Bool
  killLaunch : Word
  killBusy : Bool
  killDone : Bool
  killBad : Bool
  /-- MODE bits [4:0] (R377). -/
  mode : BitVec 5
  /-- SELF and SIZE - 1 (R384). -/
  weftSelf : Nat
  weftSize : Nat
  /-- The peers that are present and give no answer (R384). -/
  silent : NatSet
  carters : Tab Carter
  /-- The last team that wrote a line of a DET launch, by line: launch and TEAMID (R362). -/
  lineTags : Tab (Nat × Nat)
  engine : Engine
  boot : Boot
  host : HostLink
  /-- The model's own: the agenda, the group that exec acts on, the counter of free values and the next number. -/
  agenda : List Choice
  turn : Nat
  free : Nat
  uid : Nat
deriving DecidableEq, Repr

/-- The reasons a step can stop the model. -/
inductive Fault where
  /-- `exec` was given an instruction word while no group stands at the turn with an issue set that may issue: the grouping
  hardware (R16) never issues then, so no step raises it; only a direct call of `exec` in such a state does. Safe. -/
  | noIssueSet
deriving DecidableEq, Repr

/-- The reasons the model refuses an instruction. -/
inductive Refusal where
  /-- The instruction has no meaning in the model yet: raised by `exec`'s own arms. Safe. -/
  | notModelled (mnemonic : String)
deriving DecidableEq, Repr

/-- The engine after reset: eight empty queues. -/
def Engine.reset : Engine := { queues := List.replicate 8 [], cards := [], sent := [] }

/-- Start-up registers after reset (R391, R392). -/
def Boot.reset : Boot :=
  { stage := 0, fail := false, fcode := 0, fwver := 0, fwverA := 0, gob := false, len := 0, nonce := List.replicate 64 0#8,
    attctl := 0, attBusy := false, attNonce := [], report := [], stageBHash := none }

/-- The machine right after reset: in the boot ROM (R391), no card, no group, every register at its reset value. -/
def State.reset : State :=
  { time := 0, mem := [], full := [], watched := [], poison := [], reqs := [], copies := [], leases := [], groups := [], teams := [],
    launches := [], cmds := [], looms := [], cores := [], clusters := [], dies := [], queues := [], lastQueue := [],
    nextLaunch := 1, assay := [], assayclr := false, killLaunch := 0, killBusy := false, killDone := false, killBad := false,
    mode := 0, weftSelf := 0, weftSize := 1, silent := [], carters := [], lineTags := [], engine := Engine.reset, boot := Boot.reset,
    host := { messages := [], reply := [], old := 0, peerReply := [] }, agenda := [], turn := 0, free := 0, uid := 1 }

end Sys2Proof.Machine
end

