-- ==== Sys2Proof/Machine/Base.lean ====
section
/-! DEFINITION. The plain operations over the state: its tables, the fields of a launch card (spec/01 R9, R10), memory bytes, poison and peers,
the bytes of requests in flight, the fault ring (spec/22 R378 to R381), registers, and the choice of the next issue set (spec/01 R15, R16). -/

namespace Sys2Proof.Machine

/-! ### Tables of the state -/

/-- What a lookup gives where no such team, launch or group exists; no reachable state looks one up. -/
def Team.empty : Team :=
  { launch := 0, teamid := 0, core := 0, odd := none, spbase := 0, spodd := 0, saved := none, bars := List.replicate 8 Barrier.start,
    tensors := [], tx := none, replay := none, ticket := 1, finished := [], digest := 0 }

/-- See `Team.empty`. -/
def Launch.empty : Launch :=
  { ctx := 0, ctxid := 0, keymax := 0, debug := false, card := 0, cardVa := 0, args := [], prio := 0, ring := none, hflush := false,
    parent := none, cluster := none, phase := .ended, ranges := [], extents := [], leased := false, heir := none, gates := [],
    ladders := [], tensors := [], shapes := [], nextTeam := 0, waves := [], homes := [], replays := [], waitSince := 0, asked := false,
    digests := [], multiw := 0, reexec := false, froze := false, fail := none, quietSince := none, early := [], seen := 0 }

def State.core (s : State) (c : Nat) : Core := Tab.getD s.cores c Core.reset
def State.setCore (s : State) (c : Nat) (x : Core) : State := { s with cores := Tab.put s.cores c x }
def State.modCore (s : State) (c : Nat) (f : Core → Core) : State := s.setCore c (f (s.core c))
def State.cluster (s : State) (c : Nat) : Cluster := Tab.getD s.clusters c Cluster.reset
def State.modCluster (s : State) (c : Nat) (f : Cluster → Cluster) : State :=
  { s with clusters := Tab.put s.clusters c (f (s.cluster c)) }
def State.die (s : State) (d : Nat) : Die := Tab.getD s.dies d Die.reset
def State.modDie (s : State) (d : Nat) (f : Die → Die) : State := { s with dies := Tab.put s.dies d (f (s.die d)) }
def State.queue (s : State) (q : Nat) : Queue := Tab.getD s.queues q Queue.reset
def State.modQueue (s : State) (q : Nat) (f : Queue → Queue) : State := { s with queues := Tab.put s.queues q (f (s.queue q)) }
def State.carter (s : State) (c : Nat) : Carter := Tab.getD s.carters c { cmd := none, frozen := false }
def State.setCarter (s : State) (c : Nat) (x : Carter) : State := { s with carters := Tab.put s.carters c x }
def State.team (s : State) (t : Nat) : Team := Tab.getD s.teams t Team.empty
def State.modTeam (s : State) (t : Nat) (f : Team → Team) : State := { s with teams := Tab.modify s.teams t f }
def State.launch (s : State) (l : Nat) : Launch := Tab.getD s.launches l Launch.empty
def State.modLaunch (s : State) (l : Nat) (f : Launch → Launch) : State := { s with launches := Tab.modify s.launches l f }
def State.modGroup (s : State) (g : Nat) (f : Group → Group) : State := { s with groups := Tab.modify s.groups g f }
def State.setGroup (s : State) (g : Nat) (x : Group) : State := { s with groups := Tab.put s.groups g x }
/-- Put a request in flight under the next number. -/
def State.addReq (s : State) (r : Req) : State := { s with reqs := Tab.put s.reqs s.uid r, uid := s.uid + 1 }
def State.modReq (s : State) (n : Nat) (f : Req → Req) : State := { s with reqs := Tab.modify s.reqs n f }
def State.delReq (s : State) (n : Nat) : State := { s with reqs := Tab.del s.reqs n }
def State.modCmd (s : State) (n : Nat) (f : Cmd → Cmd) : State := { s with cmds := Tab.modify s.cmds n f }
def State.modLoom (s : State) (n : Nat) (f : Loom → Loom) : State := { s with looms := Tab.modify s.looms n f }

/-- Cluster and die of a core (R331). -/
def clusterOf (core : Nat) : Nat := core / 4
def dieOf (core : Nat) : Nat := core / 192
/-- The pair partner of a core (R20, R331): cores 2p and 2p+1. -/
def partnerOf (core : Nat) : Nat := if core % 2 = 0 then core + 1 else core - 1
/-- The parity of a core (R331): cores 0 and 3 of a cluster have parity 0, cores 1 and 2 parity 1. -/
def parityOf (core : Nat) : Nat := (core % 4 % 2 + core % 4 / 2) % 2

/-- The core a group is on, or was evicted from. -/
def Group.core (g : Group) : Nat :=
  match g.place with
  | .resident c _ => c
  | .evicted c => c

/-- A group is in a slot of a core. -/
def Group.resident (g : Group) : Bool :=
  match g.place with
  | .resident _ _ => true
  | .evicted _ => false

/-- The group in a resident slot of a core, with its number. -/
def State.slotGroup (s : State) (core slot : Nat) : Option (Nat × Group) :=
  s.groups.find? (fun e => e.2.place == .resident core slot)

/-- The groups resident on a core, with their numbers. -/
def State.residents (s : State) (core : Nat) : List (Nat × Group) :=
  s.groups.filter (fun e => match e.2.place with
    | .resident c _ => c == core
    | .evicted _ => false)

/-! ### Fields of a launch card (R9, R10) -/

/-- `w` bits of a wide record from bit `lo`. -/
def bitsAt {n : Nat} (x : BitVec n) (lo w : Nat) : Nat := (x.extractLsb' lo w).toNat

def Launch.entry (l : Launch) : DWord := l.card.extractLsb' 0 64
def Launch.width (l : Launch) : Nat := 16 * 2 ^ bitsAt l.card 64 8
def Launch.heat (l : Launch) : Nat := bitsAt l.card 72 8
def Launch.det (l : Launch) : Bool := l.card.getLsbD 80
def Launch.spec (l : Launch) : Bool := l.card.getLsbD 81
def Launch.pair (l : Launch) : Bool := l.card.getLsbD 82
def Launch.aof (l : Launch) : Bool := l.card.getLsbD 83
def Launch.priv (l : Launch) : Nat := bitsAt l.card 84 2
def Launch.vregs (l : Launch) : Nat := bitsAt l.card 96 8
def Launch.gregs (l : Launch) : Nat := bitsAt l.card 104 8
def Launch.gpt (l : Launch) : Nat := bitsAt l.card 112 8
def Launch.nranges (l : Launch) : Nat := bitsAt l.card 120 8
def Launch.nteams (l : Launch) : Nat := bitsAt l.card 128 32
def Launch.nlog (l : Launch) : Nat := bitsAt l.card 160 16
def Launch.nwaves (l : Launch) : Nat := bitsAt l.card 176 16
def Launch.ttab (l : Launch) : Nat := bitsAt l.card 256 64
def Launch.scratch (l : Launch) : Nat := bitsAt l.card 384 8
def Launch.ovmin (l : Launch) : Nat := bitsAt l.card 392 8
def Launch.ovmax (l : Launch) : Nat := bitsAt l.card 400 8
def Launch.parksz (l : Launch) : Nat := bitsAt l.card 416 32
def Launch.park (l : Launch) : Nat := bitsAt l.card 448 64
def Launch.stack (l : Launch) : Nat := bitsAt l.card 512 64
def Launch.stksz (l : Launch) : Nat := bitsAt l.card 576 16
def Launch.compw (l : Launch) : Nat := bitsAt l.card 768 64
def Launch.compv (l : Launch) : DWord := l.card.extractLsb' 832 64

/-! ### Bytes of memory -/

/-- What a byte that nothing has written reads as (log 1). -/
def memDefault : Byte := 0#8

/-- One byte of memory. -/
def State.byte (s : State) (pa : Nat) : Byte := Sparse.get memDefault s.mem pa

/-- Write one byte of memory, keeping the canonical form. -/
def State.setByte (s : State) (pa : Nat) (b : Byte) : State := { s with mem := Sparse.set memDefault s.mem pa b }

/-- Memory is in its canonical form. -/
def memWf (m : List Host.Cell) : Bool := Sparse.wf memDefault m

/-- Bytes from an address, the lowest first. -/
def State.bytes (s : State) (pa n : Nat) : List Byte := (List.range n).map (fun k => s.byte (pa + k))

/-- Write bytes from an address. -/
def State.setBytes (s : State) (pa : Nat) : List Byte → State
  | [] => s
  | b :: t => State.setBytes (s.setByte pa b) (pa + 1) t

/-- The little-endian value of bytes (R5). -/
def leNat : List Byte → Nat
  | [] => 0
  | b :: t => b.toNat + 256 * leNat t

/-- `n` bytes of a value, little-endian. -/
def leBytes (n v : Nat) : List Byte := (List.range n).map (fun k => BitVec.ofNat 8 (v / 256 ^ k))

/-- A little-endian value in memory. -/
def State.read (s : State) (pa n : Nat) : Nat := leNat (s.bytes pa n)

/-- The aperture of a physical address (R233): 0 local HBM, 1 peer, 2 on-chip, 3 host. -/
def aperture (pa : Nat) : Nat := pa / 2 ^ 46 % 4
/-- Populated local HBM (R233); until stage B completes only stack 0 of die 0, 64 GiB (R391). -/
def State.populated (s : State) (pa : Nat) : Bool :=
  if s.boot.stage < 3 then decide (pa < 2 ^ 36) else decide (pa < 2 ^ 39)
/-- The die of a local address and its home slice, 0 to 255 over the device (R234). -/
def homeDie (pa : Nat) : Nat := pa / 2 ^ 37 % 4
def homeSlice (pa : Nat) : Nat := 64 * homeDie pa + (pa / 2 ^ 7 ^^^ pa / 2 ^ 13 ^^^ pa / 2 ^ 19) % 64

/-- The F/E bit of the 8-byte word that holds an address (R254). -/
def State.isFull (s : State) (pa : Nat) : Bool := NatSet.mem s.full (pa / 8)
def State.setFull (s : State) (pa : Nat) (f : Bool) : State :=
  { s with full := if f then NatSet.ins s.full (pa / 8) else NatSet.del s.full (pa / 8) }
/-- Poison of the 8-byte words that bytes from `pa` touch (R389). -/
def State.poisoned (s : State) (pa n : Nat) : Bool :=
  (List.range ((pa + n - 1) / 8 - pa / 8 + 1)).any (fun k => NatSet.mem s.poison (pa / 8 + k))

/-- A store that writes all 8 bytes of a poisoned word clears the poison (R389). -/
def clearPoison (pa n : Nat) (s : State) : State :=
  { s with poison := s.poison.filter (fun w => !(decide (pa ≤ 8 * w) && decide (8 * w + 8 ≤ pa + n))) }

/-- Bytes are written to memory at their home. -/
def State.poke (s : State) (pa : Nat) (bytes : List Byte) : State := clearPoison pa bytes.length (s.setBytes pa bytes)

/-- Write a little-endian value to memory. -/
def State.write (s : State) (pa n v : Nat) : State := s.poke pa (leBytes n v)

/-! ### Peers (R233, R384) -/

/-- The peer that a physical address of the peer aperture names (R233). -/
def peerOf (pa : Nat) : Nat := pa / 2 ^ 39 % 128

/-- The word is not on a peer, or its peer is present (R384). -/
def peerPresent (s : State) (pa : Nat) : Bool :=
  aperture pa != 1 || (decide (peerOf pa < s.weftSize) && peerOf pa != s.weftSelf)

/-- The word is not on a peer, or its peer is present and answers (R384). -/
def peerAnswers (s : State) (pa : Nat) : Bool := peerPresent s pa && (aperture pa != 1 || !NatSet.mem s.silent (peerOf pa))

/-- A read of these bytes at their home finds poison (R389), or their peer is absent (R384). -/
def State.broken (s : State) (pa n : Nat) : Bool := !peerPresent s pa || s.poisoned pa n

/-- A read of these bytes at their home, made as its instruction issues, finds poison (R389), or no peer answers it: the 100,000 ref ticks after which a
silent one counts as poison (R384) take no device time then. DESIGN CHOICE, log 126. -/
def State.unreadable (s : State) (pa n : Nat) : Bool := !peerAnswers s pa || s.poisoned pa n

/-! ### Requests in flight and the bytes they touch (R21, R127) -/

/-- The size of an atomic type in bytes (R138). -/
def typeSize (ty : BitVec 3) : Nat := if type64 ty then 8 else 4

/-- Two byte ranges meet. -/
def meetRanges (a n b m : Nat) : Bool := decide (a < b + m ∧ b < a + n)

/-- The bytes a request in flight reads or writes. -/
def ReqKind.spans : ReqKind → List (Nat × Nat)
  | .value _ => []
  | .load _ ps => ps.map (fun p => (p.pa, p.size))
  | .store ps => ps.map (fun p => (p.pa, p.bytes.length))
  | .atomic _ ty _ pa _ _ => [(pa, typeSize ty)]
  | .append _ base size _ _ _ => [(base, size)]
  | .seal base _ => [(base, 1)]
  | .fe _ _ _ pa _ _ _ => [(pa, 8)]
  | .stfs ls => ls.map (fun l => (l.pa, 8))
  | .commit es _ _ => es.map (fun e => (e.pa - e.pa % 8, 8))

/-- A request touches some of these bytes. -/
def Req.meets (r : Req) (ps : List (Nat × Nat)) : Bool := r.kind.spans.any (fun a => ps.any (fun b => meetRanges a.1 a.2 b.1 b.2))

/-- A store in flight from a cluster to some of these bytes, older than request `n`. -/
def storesAhead (s : State) (cluster n : Nat) (ps : List (Nat × Nat)) : Bool :=
  s.reqs.any (fun e => decide (e.1 < n) && clusterOf e.2.core == cluster && (match e.2.kind with
    | .store _ => e.2.meets ps
    | _ => false))

/-- A form of full/empty access whose lanes wait for a state of their word. -/
def feWaits : FeKind → Bool
  | .ldw | .ldc | .stf => true
  | _ => false

/-- A full/empty form that is an acquire at .dev (R135). -/
def feAcquires (k : FeKind) (data : DWord) : Bool :=
  match k with
  | .ldw | .ldc | .feget => true
  | .feset => !data.getLsbD 0
  | _ => false

/-! ### The fault ring (R378 to R381) -/

/-- Message vector `v` with its argument goes to the host (R383). -/
def State.message (s : State) (v arg : Nat) : State := { s with host := { s.host with messages := (v, arg) :: s.host.messages } }

/-- A dispatcher record (R381). -/
def dispatcherRecord (code : Nat) (launch arg addr : Nat) (s : State) : BitVec 512 :=
  BitVec.ofNat 512 (code + launch % 2 ^ 32 * 2 ^ 160 + arg % 2 ^ 64 * 2 ^ 192 + addr % 2 ^ 64 * 2 ^ 320 + s.time % 2 ^ 64 * 2 ^ 384)

/-! ### Registers -/

/-- The registers of a thread and of a group, 0 where nothing is listed. -/
def Thread.vreg (t : Thread) (n : Nat) : Word := Sparse.get 0#32 t.v n
def Thread.setV (t : Thread) (n : Nat) (x : Word) : Thread := { t with v := Sparse.set 0#32 t.v n x }
def Group.greg (g : Group) (n : Nat) : Word := Sparse.get 0#32 g.g n
def Group.setG (g : Group) (n : Nat) (x : Word) : Group := { g with g := Sparse.set 0#32 g.g n x }
/-- The thread of a lane. -/
def Group.thread (g : Group) (l : Nat) : Thread := g.threads.getD l (Thread.start 0 false)
def Group.modThread (g : Group) (l : Nat) (f : Thread → Thread) : Group := { g with threads := listModify g.threads l f }
/-- Change the threads of a set of lanes. -/
def Group.modLanes (g : Group) (m : LaneSet) (f : Nat → Thread → Thread) : Group :=
  { g with threads := listMapIdx (fun l t => if m.has l then f l t else t) 0 g.threads }

/-- Apply one register write. -/
def Group.apply (g : Group) (w : RegWrite) : Group :=
  match w.lane with
  | some l => g.modThread l (fun t => t.setV w.reg w.val)
  | none => g.setG w.reg w.val

/-- Apply register writes in order. -/
def Group.applyAll (g : Group) (ws : List RegWrite) : Group := ws.foldl Group.apply g

/-- The register that a write names. -/
def RegWrite.target (w : RegWrite) : Reg :=
  match w.lane with
  | some _ => .v w.reg
  | none => .g w.reg

/-- An outstanding write after later ones to the same registers (R60): a reader sees a later write, so the values before the older one can be read
no longer than those before the later one, whose due cycle `due` is (none: at once). DEDUCED, log 4. -/
def Due.after (ws : List RegWrite) (due : Option Nat) (d : Due) : List Due :=
  let hit := fun (l : Nat) => ws.any (fun w => w.target == d.reg && w.lane.getD 0 == l)
  let kept := d.old.filter (fun e => !hit e.1)
  let seen := d.old.filter (fun e => hit e.1)
  (if kept.isEmpty then [] else [{ d with old := kept }])
    ++ (match due with
      | some n => if seen.isEmpty then [] else [{ d with due := min d.due n, old := seen }]
      | none => [])

/-- Writes that land for threads that have ended write nothing (R150); a write that lands follows the ones that its thread issued before it
(R60). -/
def Group.land (g : Group) (ws : List RegWrite) : Group :=
  { g.applyAll (ws.filter (fun w => match w.lane with
    | some l => (g.thread l).live
    | none => true)) with dues := g.dues.flatMap (Due.after ws none) }

/-! ### The next issue set (R15, R16) -/

/-- Held at its meeting (R15). -/
def Thread.held (t : Thread) : Bool := t.live && t.meet != noMeeting && t.meet == t.pc && !t.owes

/-- The thread's meeting value at level `n` (R16). -/
def Thread.meetingAt (t : Thread) (n : Nat) : Option DWord :=
  if n = t.md then some t.meet else t.record[t.md - 1 - n]?

/-- A live thread carries the meeting (m, n) (R16). -/
def Thread.carries (t : Thread) (m : DWord) (n : Nat) : Bool :=
  t.live && (if n = 0 then t.md == 0 && t.meet == m else decide (n ≤ t.md) && t.meetingAt n == some m)

/-- The meeting (m, n) is released: every live thread that carries it stands at it (R16). DEDUCED, log 91. -/
def releases (ts : List Thread) (m : DWord) (n : Nat) : Bool :=
  ts.all (fun u => !u.carries m n || (u.md == n && u.pc == m))

/-- Release of the meetings whose carriers all stand there; a released thread owes its pop (R16, R23), and one at level 0 has
its meeting register set to NONE at once. -/
def releaseMeetings (ts : List Thread) : List Thread :=
  ts.map (fun t => if t.held && releases ts t.meet t.md then
    (if t.md = 0 then { t with meet := noMeeting } else { t with owes := true }) else t)

/-- Runnable (R15); while the handler is open only its threads are eligible (R218). DESIGN CHOICE, log 104. -/
def Group.runnable (g : Group) (l : Nat) (t : Thread) : Bool :=
  t.live && !t.held && t.wait == .run && (!g.handler || g.hset.has l)

/-- The lanes whose threads satisfy a test, in rising order. -/
def Group.lanesWhere (g : Group) (p : Nat → Thread → Bool) : List Nat :=
  (listMapIdx (fun l t => (l, p l t)) 0 g.threads).filterMap (fun e => if e.2 then some e.1 else none)

/-- The least of a list of addresses that are at or above a bound. -/
def leastFrom (bound : Nat) : List Nat → Option Nat
  | [] => none
  | x :: t =>
    match leastFrom bound t with
    | none => if bound ≤ x then some x else none
    | some y => if bound ≤ x ∧ x < y then some x else some y

/-- The choice of R16 among the runnable threads. -/
def Group.pick (g : Group) : Group :=
  let pcs := (g.lanesWhere g.runnable).map (fun l => (g.thread l).pc.toNat)
  let p := match leastFrom g.rot.toNat pcs with
    | some x => some x
    | none => leastFrom 0 pcs
  match p with
  | none => { g with cur := 0#64 }
  | some x => { g with cur := LaneSet.of (g.lanesWhere (fun l t => g.runnable l t && t.pc.toNat == x)) }

/-- End a blocked issue set: its threads go on after the blocking instruction. -/
def Group.unblock (g : Group) (id : Nat) : Group :=
  match Tab.get? g.blocks id with
  | none => g
  | some b =>
    { g with
      blocks := Tab.del g.blocks id
      threads := g.threads.map (fun t => if t.wait = .block id then { t with wait := .run, pc := b.next } else t) }

/-- The issue set `lanes` stops at a blocking point (R25): block number `id`, at `pc`; outstanding fixed-latency writes complete
(R66). -/
def Group.block (g : Group) (id : Nat) (lanes : LaneSet) (pc next : DWord) (kind : BlockKind) : Group :=
  { g.modLanes lanes (fun _ t => { t with wait := .block id, pc := pc }) with
    blocks := Tab.put g.blocks id { lanes := lanes, next := next, kind := kind }, dues := [] }

/-- What a blocked issue set waited for has come: its threads go on, but while a handler is open, which is never theirs, only after TRAPRET (R218). -/
def Group.goOn (g : Group) (id : Nat) : Group :=
  if g.handler then { g with blocks := Tab.modify g.blocks id (fun b => { b with kind := .over }) } else g.unblock id

/-- Threads that waited at a slice go on at `next`; while a handler is open, those outside it only after TRAPRET (R218), as block `id`. -/
def Group.passLanes (g : Group) (id : Nat) (lanes : LaneSet) (next : DWord) : Group :=
  let later := if g.handler then lanes &&& ~~~g.hset else 0#64
  let g1 := g.modLanes (lanes &&& ~~~later) (fun _ t => { t with wait := .run, pc := next })
  if later = 0#64 then g1
  else { g1.modLanes later (fun _ t => { t with wait := .block id }) with
    blocks := Tab.put g1.blocks id { lanes := later, next := next, kind := .over } }

/-- The YIELDs of a group end once it has no runnable thread and no pre-emption request waits (R25), but none while a handler is open (R218). -/
def Group.endYields (g : Group) : Group :=
  if g.preempt.isSome || g.handler then g
  else (g.blocks.filter (fun e => e.2.kind == .yield)).foldl (fun x e => x.unblock e.1) g

/-- Release of meetings, then choice of the next issue set (R16, R25). -/
def Group.choose (g : Group) : Group :=
  let g1 := { g with threads := releaseMeetings g.threads }
  if (g1.lanesWhere g1.runnable).isEmpty then
    let g2 := g1.endYields
    { g2 with threads := releaseMeetings g2.threads }.pick
  else g1.pick

/-- Choose only where there is no current issue set: the grouping hardware does not choose again while the current set waits
(R16). -/
def Group.rechoose (g : Group) : Group := if g.cur = 0#64 then g.choose else g

/-- The group is at a blocking point (R25): an issue set is blocked, or a lane is parked or polled (`parked`), and it has no
runnable thread. -/
def Group.atBlockingPoint (g : Group) (parked : Bool) : Bool :=
  (!g.blocks.isEmpty || parked) && (g.lanesWhere g.runnable).isEmpty

end Sys2Proof.Machine
end

