-- ==== Sys2Proof/Machine/Windows.lean ====
section
/-! DEFINITION. What the on-chip aperture reads as (spec/12 R248 to R250): core windows with their debug pages (spec/10 R227, R228) and event
counters, and the memory pages of the dies. Reads are made by aligned 8-byte units. -/

namespace Sys2Proof.Machine

/-- The low and the high 32 bits of a unit. -/
def loW (x : DWord) : Word := x.extractLsb' 0 32
def hiW (x : DWord) : Word := x.extractLsb' 32 32

/-! ### Core windows (R248, R249) -/

/-- The group, its number and the lane and register that a word of the lane register file holds (R249). -/
def laneRegAt (s : State) (core word : Nat) : Option (Nat × Nat × Nat) :=
  let p := word / 1024
  let row := word % 1024
  match (s.residents core).find? (fun e => decide (16 * e.2.vcol ≤ p ∧ p < 16 * e.2.vcol + e.2.width ∧ e.2.vrow ≤ row
      ∧ row < e.2.vrow + e.2.vregs)) with
  | some e => some (e.1, p - 16 * e.2.vcol, row - e.2.vrow)
  | none => none

/-- The group and register that a word of the group register file holds (R249). -/
def groupRegAt (s : State) (core word : Nat) : Option (Nat × Nat) :=
  match (s.residents core).find? (fun e => decide (e.2.grow ≤ word ∧ word < e.2.grow + e.2.gregs)) with
  | some e => some (e.1, word - e.2.grow)
  | none => none

/-- A word of the lane register file, and of the group register file. -/
def readLaneWord (s : State) (core word : Nat) : Word :=
  match laneRegAt s core word with
  | some (g, lane, n) => ((Tab.get? s.groups g).map (fun x => (x.thread lane).vreg n)).getD 0#32
  | none => Sparse.get 0#32 (s.core core).lrf word
def readGroupWord (s : State) (core word : Nat) : Word :=
  match groupRegAt s core word with
  | some (g, n) => ((Tab.get? s.groups g).map (fun x => x.greg n)).getD 0#32
  | none => Sparse.get 0#32 (s.core core).grf word

/-- The teams that hold scratchpad on a core, with its start there (R24, R249, R251). -/
def scratchOn (s : State) (core : Nat) : List (Nat × Nat) :=
  s.teams.filterMap (fun e =>
    if s.groups.any (fun g => g.2.team == e.1 && g.2.resident) then
      if e.2.core = core then some (e.2.spbase, (s.launch e.2.launch).scratch)
      else if e.2.odd = some core then some (e.2.spodd, (s.launch e.2.launch).scratch)
      else none
    else none)

/-- A byte of the local store that L1 and the overflow store do not occupy: it belongs to a scratchpad, or the core is dark and its
whole local store is lent (R248, R348). DEDUCED, log 13. -/
def localVisible (s : State) (core off : Nat) : Bool :=
  (s.core core).dark.isSome || (scratchOn s core).any (fun u => decide (4096 * u.1 ≤ off ∧ off < 4096 * (u.1 + u.2)))

/-- The residency entry of a slot (R249). -/
def residencyEntry (s : State) (core slot : Nat) : Nat :=
  match s.slotGroup core slot with
  | none => 0
  | some (_, g) =>
    let t := s.team g.team
    let sp := if t.odd = some core then t.spodd else t.spbase
    1 + g.vrow * 2 ^ 8 + g.vcol * 2 ^ 18 + g.grow * 2 ^ 32 + sp * 2 ^ 48 + g.launch % 2 ^ 32 * 2 ^ 64 + t.teamid * 2 ^ 96
      + g.gid * 2 ^ 128 + g.seat * 2 ^ 160

/-- GSTAT of a slot (R228). -/
def gstat (s : State) (core slot : Nat) : Nat :=
  let d := (s.core core).debugSlots.getD slot DebugSlot.zero
  match s.slotGroup core slot with
  | some (_, g) => (if g.halted then 1 else 0) + (if g.frozen then 2 else 0) + d.reason * 4 + d.comp * 32
  | none => d.reason * 4 + d.comp * 32

/-- GCTL of a slot (R228). -/
def gctl (d : DebugSlot) : Nat := (if d.sstep then 1 else 0) + (if d.frzteam then 2 else 0) + (if d.haltreq then 4 else 0)

/-- A unit of a core's debug page (R227). -/
def readDebug (s : State) (core off : Nat) : DWord :=
  let k := s.core core
  if 0x100 ≤ off ∧ off < 0x180 then
    let c := k.pcs.getD ((off - 0x100) / 0x20) Comparator.zero
    match off % 0x20 with
    | 0 => c.addr
    | 8 => c.lanes
    | 16 => c.ctrl.zeroExtend 64
    | _ => 0#64
  else if 0x200 ≤ off ∧ off < 0x280 then
    let c := k.datas.getD ((off - 0x200) / 0x20) Comparator.zero
    match off % 0x20 with
    | 0 => c.addr
    | 8 => c.mask
    | 16 => c.lanes
    | _ => c.ctrl.zeroExtend 64
  else if 0x400 ≤ off ∧ off < 0x600 then
    let q := (off - 0x400) / 0x20
    let d := k.debugSlots.getD q DebugSlot.zero
    match off % 0x20 with
    | 0 => BitVec.ofNat 64 (gctl d + gstat s core q * 2 ^ 32)
    | 8 => d.lanes
    | 16 => d.pc
    | _ => 0#64
  else 0#64

/-- The event counters by their offset in the page (R390). -/
def readCounter (k : Core) (off : Nat) : DWord :=
  match off with
  | 0x00 => k.qclamp
  | 0x08 => k.droppf
  | 0x10 => k.fedrop
  | 0x18 => k.cesram
  | 0x20 => k.uesram
  | _ => 0#64

/-- Four 16-bit words of a slot as a unit. -/
def readSlot (k : Core) (off : Nat) : DWord :=
  let w := fun (i : Nat) => Sparse.get 0#16 ((Tab.getD k.slots (off / 0x2000) Slot.zero).words) (off % 0x2000 / 2 + i)
  w 3 ++ w 2 ++ w 1 ++ w 0

/-- The place that a byte of a core window has in the local stores a transaction shadows: in the lane register file, lent with a dark core, or in the
local store (R251, R323). -/
def windowLocal (off : Nat) : Option (Bool × Nat) :=
  if off < 0x40000 then some (true, off)
  else if 0x50000 ≤ off ∧ off < 0xB0000 then some (false, off - 0x50000)
  else none

/-- A shadow of a transaction covers a byte of a core's local store, or lane register file. -/
def Shadow.covers (h : Shadow) (core : Nat) (x : Bool × Nat) : Bool :=
  h.core == core && h.lrf == x.1 && decide (h.base ≤ x.2 ∧ x.2 < h.base + 4096)

/-- What an open transaction has shadowed at a byte of a core window: observers outside its team read that (R280). DEDUCED, log 129. -/
def shadowAt (s : State) (core off : Nat) : Option Byte :=
  match windowLocal off with
  | none => none
  | some x => s.teams.findSome? (fun e => match e.2.tx with
    | none => none
    | some t => (t.shadows.find? (fun h => h.covers core x)).map (fun h => h.bytes.getD (x.2 - h.base) 0#8))

/-- A unit of a core window (R248). -/
def readWindow (s : State) (core off : Nat) : DWord :=
  let k := s.core core
  if off < 0x40000 then readLaneWord s core (off / 4 + 1) ++ readLaneWord s core (off / 4)
  else if off < 0x42000 then readGroupWord s core ((off - 0x40000) / 4 + 1) ++ readGroupWord s core ((off - 0x40000) / 4)
  else if off < 0x42200 then BitVec.ofNat 64 (residencyEntry s core ((off - 0x42000) / 0x20) / 2 ^ (8 * (off % 0x20)))
  else if 0x43000 ≤ off ∧ off < 0x44000 then readDebug s core (off - 0x43000)
  else if 0x44000 ≤ off ∧ off < 0x45000 then readCounter k (off - 0x44000)
  else if 0x50000 ≤ off ∧ off < 0xB0000 then
    BitVec.ofNat 64 (leNat ((List.range 8).map (fun i =>
      if localVisible s core (off - 0x50000 + i) then Sparse.get 0#8 k.lstore (off - 0x50000 + i) else 0#8)))
  else if 0xB0000 ≤ off ∧ off < 0xD0000 then
    Sparse.get 0#32 k.acc ((off - 0xB0000) / 4 + 1) ++ Sparse.get 0#32 k.acc ((off - 0xB0000) / 4)
  else if 0xD0000 ≤ off ∧ off < 0xE8000 then readSlot k (off - 0xD0000)
  else 0#64

/-! ### A die's memory page (R248) -/

/-- The safe table is in force on a die: UPD or EXPIRED, and until stage B completes (R374). -/
def safeTable (s : State) (die : Nat) : Bool := (s.die die).upd || (s.die die).expired || decide (s.boot.stage < 3)

/-- FE, ratio and pass count in force by R369 and R374, in CLKCTL's codes. -/
def effectiveClocks (s : State) (cluster : Nat) : Nat × Nat × Nat :=
  let c := s.cluster cluster
  let safe := safeTable s (cluster / 48)
  let p := max (if safe then c.preq else bitsAt c.clkctl 8 2) (max (if c.droop.isSome then 2 else 0) (max c.cfloor (if safe then 1 else 0)))
  if safe then (24, 1, p) else (bitsAt c.clkctl 0 6, bitsAt c.clkctl 6 2, p)

/-- CLKSTAT (R370). DEDUCED, log 107. -/
def clkstat (s : State) (cluster : Nat) : Nat :=
  let c := s.cluster cluster
  let b := fun (x : Bool) (n : Nat) => if x then 2 ^ n else 0
  c.feeff + c.rateff * 2 ^ 6 + c.peff * 2 ^ 8 + b c.droop.isSome 10 + b (decide (0 < c.cfloor)) 11 + b (safeTable s (cluster / 48)) 12
    + b c.railup 13 + b (c.thermal == 1) 14 + b (c.thermal == 2) 15 + b c.drpev 16 + b c.badw 17

/-- A unit of a queue descriptor. -/
def readQueue (d : Queue) (off : Nat) : DWord :=
  match off with
  | 0 => d.base
  | 8 => d.ctx
  | 16 => BitVec.ofNat 64 (d.log2n + d.prio * 2 ^ 4 + (if d.en then 2 ^ 6 else 0) + (if d.devpost then 2 ^ 7 else 0) + (if d.hflush then 2 ^ 8 else 0))
  | _ => BitVec.ofNat 64 (d.tail.toNat + d.head.toNat * 2 ^ 16)

/-- A unit of a cluster queue entry (R336). -/
def readClusterEntry (e : ClusterEntry) (off : Nat) : DWord :=
  if off = 0 then e.card
  else BitVec.ofNat 64 ((if e.valid then 1 else 0) + (if e.taken then 2 else 0) + e.ctxid % 2 ^ 16 * 2 ^ 16 + e.parent % 2 ^ 32 * 2 ^ 32)

/-- A unit of a list of bytes. -/
def unitOf (bs : List Byte) (off : Nat) : DWord := BitVec.ofNat 64 (leNat ((List.range 8).map (fun i => bs.getD (off + i) 0#8)))

/-- A unit of a die's memory page. -/
def readDie (s : State) (d off : Nat) : DWord :=
  let x := s.die d
  let b := fun (c : Bool) (n : Nat) => if c then 2 ^ n else 0
  if 0x2000 ≤ off ∧ off < 0x2000 + 48 * 0x80 then
    let i := (off - 0x2000) / 0x80
    readClusterEntry ((s.cluster (48 * d + i)).queue.getD ((off - 0x2000) % 0x80 / 0x10) ClusterEntry.empty) (off % 0x10)
  else if 0x4000 ≤ off ∧ off < 0x4600 then
    let c := 48 * d + (off - 0x4000) / 0x20
    match off % 0x20 with
    | 0 => (s.cluster c).clkctl.zeroExtend 64
    | 8 => BitVec.ofNat 64 (clkstat s c)
    | _ => 0#64
  else
    match off with
    | 0x000 => x.l2quota.zeroExtend 64
    | 0x008 => x.tailtab
    | 0x010 => x.replbase
    | 0x018 => x.replsize
    | 0x020 => x.freepg
    | 0x028 => BitVec.ofNat 64 (b x.freeBusy 0 + b x.freeDone 1 + b x.freeBad 2 + x.freeGen.toNat * 2 ^ 32)
    | 0x0C0 => x.smhb.zeroExtend 64
    | 0x0C8 => BitVec.ofNat 64 (b x.upd 0 + b x.expired 1)
    | 0x0D0 => x.migreq.zeroExtend 64
    | 0x0D8 => BitVec.ofNat 64 (b x.migBusy 0 + b x.migDone 1 + b x.migDrop 2)
    | 0x120 => x.cehbm
    | 0x128 => x.uehbm
    | _ =>
      if d ≠ 0 then 0#64
      else if 0x200 ≤ off ∧ off < 0x240 then unitOf s.boot.nonce (off - 0x200)
      else if 0x400 ≤ off ∧ off < 0x600 then unitOf s.boot.report (off - 0x400)
      else if 0x600 ≤ off ∧ off < 0xE00 then unitOf ((List.range 8).map (fun i => Config.certificateByte (off - 0x600 + i))) 0
      else if 0x1000 ≤ off ∧ off < 0x1800 then readQueue (s.queue ((off - 0x1000) / 0x20)) (off % 0x20)
      else
        match off with
        | 0x040 => BitVec.ofNat 64 (b s.assayclr 0)
        | 0x080 => s.killLaunch.zeroExtend 64
        | 0x088 => BitVec.ofNat 64 (b s.killBusy 0 + b s.killDone 1 + b s.killBad 2)
        | 0x100 => s.mode.zeroExtend 64
        | 0x108 => BitVec.ofNat 64 (s.weftSelf + (s.weftSize - 1) * 2 ^ 8)
        | 0x180 => BitVec.ofNat 64 (s.boot.stage + b s.boot.fail 2 + s.boot.fcode * 2 ^ 8 + s.boot.fwver.toNat * 2 ^ 32)
        | 0x188 => BitVec.ofNat 64 (b s.boot.gob 0 + s.boot.len.toNat * 2 ^ 32)
        | 0x240 => BitVec.ofNat 64 s.boot.attctl
        | _ => 0#64

/-! ### The aperture -/

/-- Where an on-chip address lies: a core window, a die's page, or nowhere. -/
inductive Onchip where
  | window (core off : Nat)
  | page (die off : Nat)
  | rz
deriving DecidableEq, Repr

/-- The place of an on-chip address (R248). -/
def onchipAt (pa : Nat) : Onchip :=
  let a := pa - 2 ^ 47
  if a < 768 * 0x100000 then .window (a / 0x100000) (a % 0x100000)
  else if 0x40000000 ≤ a ∧ a < 0x40000000 + 4 * 0x10000 then .page ((a - 0x40000000) / 0x10000) (a % 0x10000)
  else .rz

/-- A unit of a core window as observers outside the teams read it: with what open transactions have shadowed (R280). -/
def outsideWindow (s : State) (core off : Nat) : DWord :=
  let x := readWindow s core off
  BitVec.ofNat 64 (leNat ((List.range 8).map (fun i => (shadowAt s core (off + i)).getD (x.extractLsb' (8 * i) 8))))

/-- An aligned unit of the on-chip aperture. -/
def readUnit (s : State) (pa : Nat) : DWord :=
  match onchipAt pa with
  | .window c off => outsideWindow s c off
  | .page d off => readDie s d off
  | .rz => 0#64

/-- A byte of the on-chip aperture. -/
def onchipByte (s : State) (pa : Nat) : Byte := (readUnit s (pa - pa % 8)).extractLsb' (8 * (pa % 8)) 8

/-- A byte of physical memory or of the on-chip aperture, as a plain access reads it at its home. -/
def homeByte (s : State) (pa : Nat) : Byte := if aperture pa = 2 then onchipByte s pa else s.byte pa

/-- `n` bytes as a plain access reads them at their home, the lowest first. -/
def readHome (s : State) (pa n : Nat) : Nat := leNat ((List.range n).map (fun k => homeByte s (pa + k)))

end Sys2Proof.Machine
end

