-- ==== Sys2Proof/Machine/Copies.lean ====
section
/-! DEFINITION. The copies of lines that caches hold (spec/14 R262, R268 to R270, R287), what a core reads through them now, what drops them (R267, R271,
R275), and what reads have seen (R272). -/

namespace Sys2Proof.Machine

/-- The 128-byte line of an address. -/
def lineOf (pa : Nat) : Nat := pa / 128

/-- Device time until which a cache may still serve other bytes than these at an address (R268, R269). -/
def staleUntil (s : State) (pa : Nat) (bytes : List Byte) : Nat :=
  s.copies.foldl (fun m e => match e.2.holder with
    | .peer _ => m
    | _ =>
      if e.2.line = lineOf pa ∧ bytes.zipIdx.any (fun b => e.2.data.getD (pa % 128 + b.2) 0#8 != b.1) then max m e.2.expiry else m) 0

/-- The live copy that a holder has of a line on a path. -/
def copyAt (s : State) (h : Holder) (p : Path) (line : Nat) : Option Copy :=
  match s.copies.find? (fun e => e.2.holder == h && e.2.path == p && e.2.line == line
      && (decide (s.time < e.2.expiry) || (match h with
        | .peer _ => true
        | _ => false))) with
  | some e => some e.2
  | none => none

/-- The copies that may serve a core on a path, the nearest first. -/
def holdersFor (core pa : Nat) : List Holder :=
  let far := if aperture pa = 1 then [Holder.peer (dieOf core)] else if homeDie pa = dieOf core then [] else [Holder.guest (dieOf core)]
  [Holder.l1 core, Holder.cluster (clusterOf core)] ++ far

/-- The nearest copy that serves a core. DESIGN CHOICE, log 25. -/
def supplier (s : State) (core : Nat) (p : Path) (pa : Nat) : Option Copy :=
  ((holdersFor core pa).filterMap (fun h => copyAt s h p (lineOf pa))).head?

/-- A byte as stores in flight from a cluster leave it over what is behind them (R270). -/
def withStores (s : State) (cluster pa : Nat) (b : Byte) : Byte :=
  s.reqs.foldl (fun b e => match e.2.kind with
    | .store ps =>
      if clusterOf e.2.core = cluster then
        ps.foldl (fun b p => if p.pa ≤ pa ∧ pa < p.pa + p.bytes.length then p.bytes.getD (pa - p.pa) b else b) b
      else b
    | _ => b) b

/-- A holder is nearer than the home die's reach: a store of its own core or cluster has changed it as it issued (R270). -/
def Holder.near : Holder → Bool
  | .l1 _ | .cluster _ => true
  | _ => false

/-- Where a core's reads of an address are served behind its caches: from the replica of its page that its die holds, if there is one, else from the
home (R262). DEDUCED, log 65. -/
def replicaOf (s : State) (core pa : Nat) : Nat :=
  match (s.die (dieOf core)).replicas.find? (fun e => decide (e.1 ≤ pa ∧ pa < e.1 + e.2.2)) with
  | some (base, at_, _) => at_ + (pa - base)
  | none => pa

/-- A byte that holders of a list, or the replica or the home behind them, give on a path. Behind a cluster, its own stores in flight are seen
early on the general path. -/
def byteFrom (s : State) (core : Nat) (hs : List Holder) (cluster : Option Nat) (p : Path) (pa : Nat) : Byte :=
  let early := fun (b : Byte) => match cluster with
    | some c => if p = .gen then withStores s c pa b else b
    | none => b
  match (hs.filterMap (fun h => copyAt s h p (lineOf pa))).head? with
  | some k => if k.holder.near then k.data.getD (pa % 128) 0#8 else early (k.data.getD (pa % 128) 0#8)
  | none => early (s.byte (replicaOf s core pa))

/-- A byte that a load on a path reads now, logs apart. -/
def loadByte (s : State) (core : Nat) (p : Path) (pa : Nat) : Byte :=
  if aperture pa = 2 then onchipByte s pa
  else if aperture pa = 3 then s.byte pa
  else byteFrom s core (holdersFor core pa) (some (clusterOf core)) p pa

/-- Writes in flight from a core's cluster that a read of these bytes on a path sees early (R270). -/
def storesSeen (s : State) (core : Nat) (p : Path) (ps : List (Nat × Nat)) : NatSet :=
  if p = .gen then
    s.reqs.filterMap (fun e => match e.2.kind with
      | .store _ => if clusterOf e.2.core = clusterOf core ∧ e.2.meets ps then some e.1 else none
      | _ => none)
  else []

/-- The device time by which every cache gives what a core reads now of these bytes on a path, or something later (R272). -/
def readUntil (s : State) (core : Nat) (p : Path) (pas : List Nat) : Nat :=
  (pas.map (fun pa => staleUntil s pa [loadByte s core p pa])).foldl max 0

/-- A byte reads as poison to a load of a core: its peer gives no answer, or its home, its replica or the copy that serves it holds it poisoned (R389). -/
def bytePoison (s : State) (core : Nat) (p : Path) (pa : Nat) : Bool :=
  !peerAnswers s pa || (match supplier s core p pa with
    | some c => NatSet.mem c.bad (pa / 8 % 16)
    | none => s.poisoned (replicaOf s core pa) 1)

/-- Bytes that a core reads now at an address, the lowest first, as one value. -/
def loadValue (s : State) (core : Nat) (p : Path) (pa n : Nat) : Nat := leNat ((List.range n).map (fun k => loadByte s core p (pa + k)))

/-- A thread has read bytes (R272): writes in flight whose value it saw, and the time by which every cache holds that value or a later one. -/
def Thread.noted (s : State) (inFlight : NatSet) (until_ : Nat) (t : Thread) : Thread :=
  { t with early := inFlight.foldl NatSet.ins (t.early.filter (fun n => (Tab.get? s.reqs n).isSome)), seen := max t.seen until_ }

/-- A thread has loaded bytes through its core's copies (R272). -/
def Thread.loaded (s : State) (core : Nat) (p : Path) (pa n : Nat) (t : Thread) : Thread :=
  t.noted s (storesSeen s core p [(pa, n)]) (if aperture pa ≤ 1 then readUntil s core p ((List.range n).map (fun k => pa + k)) else 0)

/-! ### Copies and completion (R268, R269) -/

/-- The completion time of a write performed now: the latest expiry of every lease granted on its line, kept or dropped since (R269). -/
def completionOf (s : State) (pa : Nat) : Nat := max s.time (Tab.getD s.leases (lineOf pa) 0)

/-- A lease on a line is granted until `expiry` (R268). -/
def grantLease (line expiry : Nat) (s : State) : State :=
  { s with leases := Tab.put s.leases line (max expiry (Tab.getD s.leases line 0)) }

/-- Drop the copies that a test names. -/
def dropCopies (p : Copy → Bool) (s : State) : State := { s with copies := s.copies.filter (fun e => !p e.2) }

/-- The copies that an observer on a core holds below the visibility point of a scope (R266, R271): 0 .grp to 5 .sys, with
`span` for a team that spans a pair. -/
def Holder.below (h : Holder) (core scope : Nat) (span : Bool) : Bool :=
  match h with
  | .l1 c => c == core && (decide (2 ≤ scope) || (scope == 1 && span))
  | .cluster c => c == clusterOf core && decide (3 ≤ scope)
  | .guest d => d == dieOf core && decide (4 ≤ scope)
  | .peer d => d == dieOf core && decide (5 ≤ scope)

/-- The copies beyond its cluster that serve a core, of a line that it has written: of every path, since a FENCE that names two paths promises that the
reading path gives the core's own write (R267, R273). DEDUCED, log 111. -/
def dropFar (core pa : Nat) (s : State) : State :=
  dropCopies (fun k => k.line == lineOf pa && (k.holder == .guest (dieOf core) || k.holder == .peer (dieOf core))) s

/-- A write or access at a home slice by a core drops the copies of the line from which it reads on the general path, and those beyond its cluster on
every path: its later reads return nothing older (R267, R273). -/
def dropOwn (core pa : Nat) (s : State) : State :=
  dropFar core pa (dropCopies (fun k => k.path == .gen && k.line == lineOf pa && k.holder.below core 3 false) s)

/-- Every copy of a line from which a core reads, on any path, is dropped. -/
def dropAll (core pa : Nat) (s : State) : State := dropCopies (fun k => k.line == lineOf pa && k.holder.below core 5 false) s

/-- Discard what an acquire at a scope discards, on the paths named (R271). -/
def acquireAt (core scope : Nat) (span : Bool) (paths : Path → Bool) (s : State) : State :=
  dropCopies (fun c => paths c.path && c.holder.below core scope span) s

/-- What R273 adds for paths named together: the copies of a core's L1 and cluster cache on them are discarded. -/
def dropNear (core : Nat) (paths : Path → Bool) (s : State) : State :=
  dropCopies (fun x => paths x.path && (x.holder == .l1 core || x.holder == .cluster (clusterOf core))) s

/-- An acquire at .dev on all paths (R275). -/
def acquireDev (core : Nat) (s : State) : State := acquireAt core 4 false (fun _ => true) s

/-- The scope of a built-in release or acquire of these words (R275): .sys where one lies on a peer, else .dev. -/
def deviceScope (pas : List Nat) : Nat := if pas.any (fun pa => aperture pa == 1) then 5 else 4

/-! ### What reads have seen (R272) -/

/-- The threads of some lanes of a group have read bytes (R272): writes in flight whose value they saw, and the time by which every
cache holds that value or a later one. -/
def noteRead (gid : Nat) (lanes : LaneSet) (inFlight : NatSet) (until_ : Nat) (s : State) : State :=
  s.modGroup gid (fun g => g.modLanes lanes (fun _ t => t.noted s inFlight until_))

end Sys2Proof.Machine
end

