-- ==== Sys2Proof/Machine/Waits.lean ====
section
/-! DEFINITION. The conditions of WAIT and how a blocked one ends (spec/08 R172 to R175), park records as a slice finds them (spec/12 R257, R258), and
records written to a fault ring, which is a write that such conditions may await (spec/22 R378 to R381). -/

namespace Sys2Proof.Machine

/-! ### Extents and park records (R241, R257, R258) -/

/-- PA of an address inside a launch's extents (R241). -/
def Launch.translate (l : Launch) (va : Nat) : Option (Extent × Nat) :=
  match l.extents.find? (fun e => decide (e.va ≤ va ∧ va < e.va + e.len)) with
  | some e => some (e, e.pa + (va - e.va))
  | none => none

/-- PA of record `i` of a launch's park pool (R258). -/
def Launch.parkRecord (l : Launch) (i : Nat) : Nat :=
  match l.translate (l.park + 32 * i) with
  | some (_, pa) => pa
  | none => 0

/-- Free the park record that a watch holds (R258, withdrawal). DEDUCED, log 92. This write wakes nothing: DESIGN CHOICE, log 155. -/
def freeWatch (launch : Nat) (w : Watch) (s : State) : State :=
  match w with
  | .parked i => s.write ((s.launch launch).parkRecord i) 32 0
  | _ => s

/-- A place in the order of testing: monitors in order of installation, then records by launch and address. -/
def Watch.rank (launch : Nat) : Watch → Option (Nat × Nat × Nat)
  | .monitor n => some (0, n, 0)
  | .parked i => some (1, launch, i)
  | _ => none

/-- What the slice finds in a park record before it acts on it (R258): it is free, or names another word; its PADDR fails the check against the
launch's extents; or it names the word of the waiting access. -/
inductive RecordState where
  | other
  | bad
  | holds
deriving DecidableEq, Repr

/-- A record of a launch's pool, as the slice finds it for a word: a program that writes its pool can lose the access (R258). -/
def recordState (s : State) (launch i pa : Nat) : RecordState :=
  let l := s.launch launch
  let x := s.read (l.parkRecord i) 32
  let p := x % 2 ^ 48
  let kind := x / 2 ^ 48 % 8
  -- a WAIT on a word of 4 bytes names 4 (R257)
  let size := if kind = 4 ∧ !x.testBit 195 then 4 else 8
  if kind = 0 then .other
  else if !l.extents.any (fun e => decide (e.pa ≤ p ∧ p + size ≤ e.pa + e.len)) then .bad
  else if p = pa then .holds
  else .other

/-- Test a waiter that a monitor or a record holds: `go` if the record is sound, and a record that fails the slice's check is freed (R258). -/
def tryHeld (launch pa : Nat) (w : Watch) (go : Unit → Option State) (s : State) : Option State :=
  match w with
  | .parked i =>
    (match recordState s launch i pa with
    | .holds => go ()
    | .bad => some (freeWatch launch w s)
    | .other => none)
  | _ => go ()

/-! ### Conditions of WAIT (R174, R175) -/

/-- CMP of R173. -/
def compareBy {n : Nat} (cmp : Nat) (x y : BitVec n) : Bool :=
  match cmp with
  | 0 => x == y
  | 1 => x != y
  | 2 => x.slt y
  | 3 => y.sle x
  | 4 => x.ult y
  | _ => y.ule x

/-- STATE of a carter command that a team's ticket names (R186, R188): of the outstanding command, or as the team holds it. -/
def ticketStatus (s : State) (team : Nat) (ticket : Word) : Option CpyStatus :=
  match s.cmds.find? (fun e => e.2.team == team && e.2.ticket == ticket) with
  | some e => some { ticket := ticket, state := e.2.state, poison := e.2.poison, clamp := e.2.clamp }
  | none => (s.team team).finished.find? (fun f => f.ticket == ticket)

/-- The accumulator that a Loom command names (R315). -/
def LoomOp.accumulator : LoomOp → Option Nat
  | .loadb _ _ _ _ => none
  | .loop a _ _ _ _ _ _ | .zero a | .store a _ _ _ _ _ | .read a _ _ _ | .write a _ _ _ => some a

/-- A condition holds (R174). -/
def condition (s : State) (g : Group) (e : WaitEntry) : Bool :=
  match e.kind with
  | 1 =>
    if e.size8 then compareBy e.cmp (BitVec.ofNat 64 (s.read e.pa 8)) e.value
    else compareBy e.cmp (BitVec.ofNat 32 (s.read e.pa 4)) (e.value.extractLsb' 0 32)
  | 2 => s.isFull e.pa == e.value.getLsbD 0
  | 3 =>
    match ticketStatus s g.team (e.addr.extractLsb' 0 32) with
    | some f => f.state == 2 || f.state == 3 || f.state == 5
    -- a ticket that is not held reads AGED, with STATE 2 (R186)
    | none => true
  | 4 => compareBy e.cmp ((s.team g.team).bars.getD (bitsAt e.addr 0 3) Barrier.start).phase (e.value.extractLsb' 0 31)
  | _ => s.looms.all (fun x => x.2.core != g.core || x.2.op.accumulator != some (bitsAt e.addr 0 3))

/-- The result of a WAIT whose conditions hold (R175); unused entries have kind 0. -/
def waitResult (s : State) (g : Group) (es : List WaitEntry) (any : Bool) : Option Word :=
  if any then
    match listFindIdx (fun e => e.kind != 0 && condition s g e) 0 es with
    | some i => some (BitVec.ofNat 32 i)
    | none => none
  else if es.all (fun e => e.kind == 0 || condition s g e) then some 4#32 else none

/-- An entry of a kind that reads a word of memory (R174). -/
def WaitEntry.ofMemory (e : WaitEntry) : Bool := e.kind == 1 || e.kind == 2

/-- What the end of a WAIT makes of its reads (R175, R267, R272, R275): an acquire at .dev on all paths where an entry of kind 1 or 2 was used, a note of
the words that entries of kind 1 read, and no copy left of the words that it has read at their homes. -/
def waitReads (gid core : Nat) (lanes : LaneSet) (es : List WaitEntry) (s : State) : State :=
  let seen := ((es.filter (fun e => e.kind == 1)).map (fun e => staleUntil s e.pa (s.bytes e.pa (if e.size8 then 8 else 4)))).foldl max 0
  let words := es.filter WaitEntry.ofMemory
  if words.isEmpty then s else words.foldl (fun s e => dropAll core e.pa s) (acquireDev core (noteRead gid lanes [] seen s))

/-- A wake event for a blocked issue set of a halted group is recorded with its result, and acted on after the resume (R230). -/
def Group.record (g : Group) (id : Nat) (r : Word) : Group :=
  { g with blocks := Tab.modify g.blocks id (fun b => { b with woken := some (b.woken.getD r) }) }

/-- The end of a blocked WAIT (R175): its monitors are withdrawn, the result is written and its threads go on, once no handler of others is open (R218).
DEDUCED, log 23. -/
def finishWait (gid id : Nat) (r : Word) (s : State) : State :=
  match Tab.get? s.groups gid with
  | none => s
  | some g =>
    match Tab.get? g.blocks id with
    | none => s
    | some b =>
      match b.kind with
      | .wait es _ _ dest =>
        if g.halted then s.modGroup gid (fun x => x.record id r)
        else
          let s1 := es.foldl (fun s e => freeWatch g.launch e.watch s) s
          waitReads gid g.core b.lanes es (s1.modGroup gid (fun x => ((x.goOn id).setG dest r).rechoose))
      | _ => s

/-- Test one blocked WAIT again; none when it stays blocked. -/
def retryWait (gid id : Nat) (s : State) : Option State :=
  match Tab.get? s.groups gid with
  | none => none
  | some g =>
    match Tab.get? g.blocks id with
    | some { kind := .wait es any _ _, woken := none, .. } =>
      match waitResult s g es any with
      | some r => some (finishWait gid id r s)
      | none => none
    | _ => none

/-- The blocked WAITs whose entries satisfy a test, by group and block. -/
def waitsWhere (p : WaitEntry → Bool) (s : State) : List (Nat × Nat) :=
  s.groups.flatMap (fun e => e.2.blocks.filterMap (fun b => match b.2.kind with
    | .wait es _ _ _ => if es.any p then some (e.1, b.1) else none
    | _ => none))

/-- An event inside the device, a ticket, a barrier or a Loom command, wakes the WAITs it may satisfy (R175). -/
def wakeInner (s : State) : State :=
  (waitsWhere (fun e => decide (3 ≤ e.kind)) s).foldl (fun s w => (retryWait w.1 w.2 s).getD s) s

/-! ### What a write of memory wakes of them (R258) -/

/-- A record of the pools is held for a sector: one that has been freed, or that names another word now, is not. -/
def recordLeft (s : State) (sector : Nat) : Bool :=
  let held := fun (launch pa i : Nat) => pa / 64 == sector && recordState s launch i pa == .holds
  s.reqs.any (fun e => match e.2.kind with
    | .fe _ _ _ pa _ _ (.parked i) => held e.2.launch pa i
    | _ => false)
  || s.groups.any (fun e => e.2.blocks.any (fun b => match b.2.kind with
    | .wait es _ _ _ => es.any (fun x => match x.watch with
      | .parked i => held e.2.launch x.pa i
      | _ => false)
    | _ => false))

/-- The entries of blocked WAITs that a monitor or a record of the sector of an address holds, with their launches, groups and blocks. -/
def heldConds (s : State) (sector : Nat) : List (Nat × Nat × Nat × WaitEntry) :=
  s.groups.flatMap (fun e => e.2.blocks.flatMap (fun b => match b.2.kind with
    | .wait es _ _ _ => (es.filter (fun x => x.ofMemory && x.pa / 64 == sector && (x.watch.rank e.2.launch).isSome)).map
        (fun x => (e.2.launch, e.1, b.1, x))
    | _ => []))

/-- When no record is left for a sector, the slice clears its watch bit (R258). -/
def clearWatch (sector : Nat) (s : State) : State :=
  if recordLeft s sector then s else { s with watched := NatSet.del s.watched sector }

/-- A word of a fault ring has been written: the slice tests what waits on its sector (R258). A plain write leaves every F/E bit as it is (R254), so that of
the waiting accesses only conditions of WAIT can have come to hold. -/
def wakeWaits (pa : Nat) (s : State) : State :=
  clearWatch (pa / 64) ((heldConds s (pa / 64)).foldl (fun s x =>
    (tryHeld x.1 x.2.2.2.pa x.2.2.2.watch (fun _ => retryWait x.2.1 x.2.2.1 s) s).getD s) s)

/-! ### The fault ring (R378 to R381) -/

/-- Write one record to a context's fault ring, or count it in LOST (R380); with fields that are invalid now the record is
discarded, and message vector 0 is sent all the same (R378). The slices test what waits on the words written (R258). -/
def faultRecord (ctx : Nat) (rec : BitVec 512) (s : State) : State :=
  let ctxid := s.read (ctx + 0x10) 2
  let frbase := s.read (ctx + 0x18) 8
  let w20 := s.read (ctx + 0x20) 8
  let idx := s.read (ctx + 0x28) 8
  let n := w20 % 16
  let ok := decide (4 ≤ n) && w20 / 16 == 0 && frbase % (64 * 2 ^ n) == 0 && decide (frbase < 2 ^ 39) && idx % 32 == 0
    && decide (idx < 2 ^ 39)
  if !ok then s.message 0 ctxid
  else
    let prod := s.read idx 8
    let cons := s.read (idx + 8) 8
    let at_ := frbase + 64 * (prod % 2 ^ n)
    if (prod + 2 ^ 64 - cons) % 2 ^ 64 < 2 ^ n then
      wakeWaits idx (wakeWaits at_ (((s.write at_ 64 rec.toNat).write idx 8 (prod + 1)).message 0 ctxid))
    else wakeWaits idx (s.write (idx + 0x18) 8 (s.read (idx + 0x18) 8 + 1))

/-- Send a dispatcher record about a launch to its context's fault ring. -/
def launchRecord (code launch arg addr : Nat) (s : State) : State :=
  faultRecord (s.launch launch).ctx (dispatcherRecord code launch arg addr s) s

end Sys2Proof.Machine
end

