-- ==== Sys2Proof/Machine/Ops.lean ====
section
/-! DEFINITION. The named operations over the state: causes, the entry of the trap handler and the return from it, freezing (spec/10 R210 to
R223), address checks (spec/12 R243 to R246), the call and meeting stack (spec/01 R19 to R23) and the issue of one instruction. -/

namespace Sys2Proof.Machine

/-! ### Causes (R212 to R214) -/

/-- The causes of a stop (R213). -/
inductive Why where
  | illegalOp | stallShort | misaligned | writeAfterSeal | rangeConflict | txForbidden | txCapacity | doubleFill
  | parkExhausted | feTimeout | ladderExhausted | trap
  | outOfLease | keyDenied | classViolation | poisoned | handlerBlock
deriving DecidableEq, Repr

/-- CODE of R213. -/
def Why.code : Why → Nat
  | .illegalOp => 0x01
  | .stallShort => 0x02
  | .misaligned => 0x03
  | .writeAfterSeal => 0x04
  | .rangeConflict => 0x05
  | .txForbidden => 0x06
  | .txCapacity => 0x07
  | .doubleFill => 0x08
  | .parkExhausted => 0x09
  | .feTimeout => 0x0A
  | .ladderExhausted => 0x0B
  | .trap => 0x0C
  | .outOfLease => 0x20
  | .keyDenied => 0x21
  | .classViolation => 0x22
  | .poisoned => 0x23
  | .handlerBlock => 0x24

/-- A user-level cause, which runs the handler; the others are violations (R213). -/
def Why.user (w : Why) : Bool := decide (w.code < 0x20)

/-- The rank of a lane-level cause; an instruction-level cause comes first (R213, R214). -/
def Why.rank : Why → Nat
  | .illegalOp | .stallShort | .ladderExhausted | .trap | .handlerBlock => 0
  | .misaligned => 1
  | .outOfLease => 2
  | .keyDenied => 3
  | .classViolation => 4
  | .writeAfterSeal => 5
  | .rangeConflict => 6
  | .txForbidden | .txCapacity => 7
  | .doubleFill | .parkExhausted | .feTimeout | .poisoned => 8

/-- A cause as one lane raises it, or an instruction as a whole. -/
structure Fail where
  why : Why
  detail : Nat
  addr : DWord
deriving DecidableEq, Repr

/-- A cause taken: TRAPLANES and TRAPADDR as R213 to R215 give them. -/
structure Cause where
  why : Why
  detail : Nat
  lanes : LaneSet
  addr : DWord
deriving DecidableEq, Repr

/-- The first, in list order, of the entries with the least key. -/
def firstLeast {α : Type} (key : α → Nat) : List α → Option α
  | [] => none
  | x :: t =>
    match firstLeast key t with
    | none => some x
    | some y => if key x ≤ key y then some x else some y

/-- The one cause of an instruction whose lanes raise these (R214): the lowest rank, then the lowest lane. -/
def pickCause (fs : List (Nat × Fail)) : Option Cause :=
  match firstLeast (fun e => e.2.why.rank) fs with
  | none => none
  | some w =>
    some { why := w.2.why, detail := w.2.detail, addr := w.2.addr,
           lanes := LaneSet.of ((fs.filter (fun e => e.2.why == w.2.why)).map (fun e => e.1)) }

/-- TRAPCAUSE as it reads (R212). -/
def Group.trapcauseWord (g : Group) : Word :=
  (if g.handler then 1#1 else 0#1) ++ 0#14 ++ g.trapcause

/-- TRAPCAUSE [16:0] of a code, a detail and PFX (R212). -/
def causeBits (code detail : Nat) (pfx : Bool) : BitVec 17 :=
  (if pfx then 1#1 else 0#1) ++ BitVec.ofNat 8 detail ++ BitVec.ofNat 8 code

/-! ### The end of a task (R8, R222, R223) -/

/-- Registers of a group that leaves its core stay in the register files (R248, R249). -/
def leaveRegisters (g : Group) (s : State) : State :=
  match g.place with
  | .evicted _ => s
  | .resident c _ =>
    s.modCore c (fun k =>
      let lrf := g.threads.zipIdx.foldl (fun m e => (List.range g.vregs).foldl (fun m n =>
        Sparse.set 0#32 m ((16 * g.vcol + e.2) * 1024 + g.vrow + n) (e.1.vreg n)) m) k.lrf
      let grf := (List.range g.gregs).foldl (fun m n => Sparse.set 0#32 m (g.grow + n) (g.greg n)) k.grf
      { k with lrf := lrf, grf := grf })

/-- Withdraw every monitor, park record and polled try of a group's blocked waits (R222). -/
def withdrawBlocks (g : Group) (s : State) : State :=
  g.blocks.foldl (fun s e => match e.2.kind with
    | .wait es _ _ _ => es.foldl (fun s w => freeWatch g.launch w.watch s) s
    | _ => s) s

/-- Withdraw every F/E access of a group that is held because its word is not in the state it awaits (R137, R222). One on its way to its slice has
passed its last check and goes on (R220). -/
def withdrawFe (gid : Nat) (s : State) : State :=
  s.reqs.foldl (fun s e =>
    if e.2.group = gid then
      match e.2.kind with
      | .fe k _ _ _ _ _ w => if feWaits k && w != .flying then (freeWatch e.2.launch w s).delReq e.1 else s
      | _ => s
    else s) s

/-- A pending result of a group that has gone lands nowhere: its requests hold no register and their results are dropped. -/
def orphanReqs (gid : Nat) (s : State) : State :=
  { s with reqs := s.reqs.filterMap (fun e =>
      if e.2.group = gid then
        match e.2.kind with
        | .value _ | .load _ _ => none
        | _ => some (e.1, { e.2 with dest := [] })
      else some e) }

/-- The team of a group has no other group left. -/
def State.teamEmpty (s : State) (t : Nat) : Bool := s.groups.all (fun e => e.2.team != t)

/-- The lent region of a dark core is zeroed, or discarded (R348). -/
def clearLent (core : Nat) (s : State) : State :=
  clearPoison (2 ^ 47 + core * 0x100000) 0xB0000 (s.modCore core (fun k => { k with lstore := [], lrf := [] }))

/-- A core whose last group of a launch has left: the Loom claim is released (R292) and a dark partner is dark no more, its
lent contents discarded (R348). DESIGN CHOICE, log 120. DESIGN CHOICE, log 122. -/
def releaseCore (launch core : Nat) (s : State) : State :=
  if s.groups.any (fun e => e.2.launch == launch && e.2.core == core) then s
  else
    let s := s.modCore core (fun k => if k.claim = some launch then { k with claim := none } else k)
    let p := partnerOf core
    if (s.core p).dark = some (launch, core) then
      clearLent p (s.modCore p (fun k => { k with dark := none }))
    else s

/-- Keep the sixteen most recently finished command statuses (R186). -/
def Team.finish (t : Team) (st : CpyStatus) : Team := { t with finished := (st :: t.finished).take 16 }

/-- Discard a transaction's deferred carter commands: STATE 5 (R187, R222), which a WAIT may await (R175). -/
def discardDeferred (team : Nat) (s : State) : State :=
  wakeInner (s.cmds.foldl (fun s e =>
    if e.2.team = team ∧ e.2.state = 4 then
      ({ s with cmds := Tab.del s.cmds e.1 }).modTeam team (fun t =>
        t.finish { ticket := e.2.ticket, state := 5, poison := false, clamp := 0 })
    else s) s)

/-- Write a byte of a local store; writing 0 removes the entry (log 2). -/
def setLocal (core off : Nat) (b : Byte) (s : State) : State :=
  s.modCore core (fun k => { k with lstore := Sparse.set 0#8 k.lstore off b })

/-- PA of a 4 KiB segment of a core's local store, or of its lane register file (R248). -/
def segmentPa (core : Nat) (lrf : Bool) (base : Nat) : Nat := 2 ^ 47 + core * 0x100000 + (if lrf then 0 else 0x50000) + base

/-- Put a shadowed segment back, with the poison that it held (R194, R323, R389). -/
def Shadow.restore (h : Shadow) (s : State) : State :=
  let pa := segmentPa h.core h.lrf h.base
  let s1 := clearPoison pa 4096 (s.modCore h.core (fun k =>
    if h.lrf then { k with lrf := (List.range 1024).foldl (fun m n =>
      Sparse.set 0#32 m (h.base / 4 + n) (BitVec.ofNat 32 (leNat ((h.bytes.drop (4 * n)).take 4)))) k.lrf }
    else { k with lstore := h.bytes.zipIdx.foldl (fun m e => Sparse.set 0#8 m (h.base + e.2) e.1) k.lstore }))
  { s1 with poison := h.bad.foldl (fun m w => NatSet.ins m (pa / 8 + w)) s1.poison }

/-- Put back the segments that a transaction shadowed (R194, R323). -/
def restoreShadows (t : Tx) (s : State) : State := t.shadows.foldl (fun s h => h.restore s) s

/-- End an open transaction as an abort does (R194, R327): the log is discarded, shadows restored, deferred commands
discarded. -/
def abortTx (team : Nat) (s : State) : State :=
  match (s.team team).tx with
  | none => s
  | some t => (discardDeferred team (restoreShadows t s)).modTeam team (fun x => { x with tx := none })

/-- A task has ended: its digest is kept for the launch (R360). -/
def keepDigest (team : Nat) (s : State) : State :=
  let t := s.team team
  s.modLaunch t.launch (fun l => { l with digests := Tab.put l.digests t.teamid t.digest })

/-- The line tags of a team are cleared (R362). -/
def clearTags (team : Nat) (s : State) : State :=
  let t := s.team team
  { s with lineTags := s.lineTags.filter (fun e => e.2 != (t.launch, t.teamid)) }

/-- A team whose last group has gone: its task has ended (R8), with a group that froze before (R222). -/
def endTeam (team : Nat) (froze : Bool) (s : State) : State :=
  let t := s.team team
  let s := abortTx team s
  let s := if froze then s else keepDigest team s
  let s := clearTags team s
  releaseCore t.launch t.core (match t.odd with
    | some o => releaseCore t.launch o s
    | none => s)

/-- A group that ends or is discarded leaves its core and its seat (R8, R20); `after` says what becomes of its task when it
was the last group. -/
def removeGroup (gid : Nat) (s : State) : State :=
  match Tab.get? s.groups gid with
  | none => s
  | some g =>
    let s := orphanReqs gid (withdrawFe gid (withdrawBlocks g (leaveRegisters g s)))
    let s := { s with groups := Tab.del s.groups gid }
    let s := s.modLaunch g.launch (fun l => { l with early := g.threads.foldl (fun m t => t.early.foldl NatSet.ins m) l.early,
                                                     seen := g.threads.foldl (fun m t => max m t.seen) l.seen })
    -- a group 0 that ends with a transaction open ends it as TXABORT does (R327)
    let s := if g.gid = 0 then abortTx g.team s else s
    if s.teamEmpty g.team then endTeam g.team g.frozen s else releaseCore g.launch g.core s

/-- Discard the groups of a team that a test names. -/
def dropGroups (team : Nat) (p : Nat → Group → Bool) (s : State) : State :=
  (s.groups.filter (fun e => e.2.team == team && p e.1 e.2)).foldl (fun s e => removeGroup e.1 s) s

/-- The teams of a launch with groups on the device. -/
def State.teamsOf (s : State) (launch : Nat) : List Nat :=
  (s.teams.filter (fun e => e.2.launch == launch && !s.teamEmpty e.1)).map (fun e => e.1)

/-- No further team of a launch starts (R222, R357). -/
def stopPlacing (launch code : Nat) (s : State) : State :=
  s.modLaunch launch (fun l => { l with nextTeam := l.nteams, waves := [], replays := [], fail := l.fail.or (some code) })

/-- A group's violation ends its task (R222): the other groups are discarded, waits withdrawn, an open transaction ends as a failed
commit that is not queued again (R280); with AOF every other task ends the same way. DEDUCED, log 93. -/
def endTask (gid : Nat) (g : Group) (s : State) : State :=
  let s := withdrawFe gid (withdrawBlocks g s)
  let s := s.modGroup gid (fun x => { x with blocks := [] })
  let s := clearTags g.team (keepDigest g.team (abortTx g.team s))
  let s := dropGroups g.team (fun n _ => n != gid) s
  let l := s.launch g.launch
  if l.aof then
    (s.teamsOf g.launch).foldl (fun s t => if t = g.team then s else dropGroups t (fun _ x => !x.frozen) s)
      (stopPlacing g.launch 1 s)
  else s.modLaunch g.launch (fun l => { l with froze := true })

/-! ### Stops: freezing and the handler (R217, R219, R220) -/

/-- Where an instruction stands as it issues: the group, the issuing lanes, the instruction's address (an EXT's for a pair),
the address after it, its word (a pair's follower) and its prefix. -/
structure Site where
  gid : Nat
  lanes : LaneSet
  pc : DWord
  next : DWord
  word : Word
  pfx : Prefix
deriving DecidableEq, Repr

/-- The freeze record of a group (R221). -/
def freezeRecord (g : Group) (teamid : Nat) (time : Nat) : BitVec 512 :=
  BitVec.ofNat 512 (g.trapcauseWord.toNat + g.core * 2 ^ 48 + g.seat * 2 ^ 64 + teamid * 2 ^ 96 + g.gid * 2 ^ 128
    + g.launch % 2 ^ 32 * 2 ^ 160 + g.traplanes.toNat * 2 ^ 192 + g.trappc.toNat * 2 ^ 256 + g.trapaddr.toNat * 2 ^ 320
    + time % 2 ^ 64 * 2 ^ 384)

/-- Freeze a group with a cause (R220): the trap registers are written with TRAPPC the instruction's address, the group
stops, a record is sent, and its task ends (R222); a group that is frozen already stays as it is. DESIGN CHOICE, log 106. -/
def freeze (at_ : Site) (code detail : Nat) (lanes : LaneSet) (addr : DWord) (s : State) : State :=
  match Tab.get? s.groups at_.gid with
  | none => s
  | some g =>
    if g.frozen then s else
    let g1 := { g with
      dues := [], trapcause := causeBits code detail at_.pfx.isSome, traplanes := lanes, trapaddr := addr, trapword := at_.word,
      trapf := trapF at_.pfx at_.word, trappc := at_.pc, frozen := true, halted := false, cur := 0#64, preempt := none,
      append := none }
    let s1 := s.setGroup at_.gid g1
    let s2 := endTask at_.gid g1 s1
    faultRecord (s.launch g.launch).ctx (freezeRecord g1 (s.team g.team).teamid s.time) s2

/-- Take a cause (R217, R220): a violation freezes the group; a user-level cause enters the handler at TRAPVEC with the threads
`hset`, or freezes the group as unhandled where the handler is open already or there is none. DEDUCED, log 52. -/
def takeCause (at_ : Site) (c : Cause) (hset : LaneSet) (s : State) : State :=
  match Tab.get? s.groups at_.gid with
  | none => s
  | some g =>
    if g.frozen then s
    else if !c.why.user then freeze at_ c.why.code c.detail c.lanes c.addr s
    else if g.handler ∨ g.trapvec = 0#64 then freeze at_ 0x25 c.why.code c.lanes c.addr s
    else
      s.setGroup at_.gid
        (Group.modLanes { g with
          dues := [], trapcause := causeBits c.why.code c.detail at_.pfx.isSome, handler := true, entered := c.why.code, traplanes := c.lanes,
          trapaddr := c.addr, trapword := at_.word, trapf := trapF at_.pfx at_.word,
          trappc := (if c.why = .trap ∨ c.why = .ladderExhausted then at_.next else at_.pc), hset := hset }
          hset (fun _ t => { t with pc := g.trapvec }))

/-- The return from the handler (R219): every live thread of hset resumes at TRAPPC, and HND is cleared; of the other threads those go on whose wait
ended meanwhile (R218). -/
def trapReturn (g : Group) : Group :=
  let g1 := { g.modLanes g.hset (fun _ t => if t.live then { t with pc := g.trappc } else t) with handler := false }
  (g1.blocks.filter (fun b => b.2.kind == .over)).foldl (fun x b => x.unblock b.1) g1

/-! ### Address checks (R125, R126, R129, R243, R246) -/

/-- What an access does, as R243 and R246 tell them apart. -/
inductive Acc where
  /-- Loads and copy sources. -/
  | load
  /-- LDW, FEGET and the words of WAIT kinds 1 and 2. -/
  | feRead
  /-- Stores and copy destinations. -/
  | store
  /-- Reductions, STF, STFS, FESET: writes that only HBM and peers take. -/
  | slice
  /-- Atomics and LDC: read and write. -/
  | atomic
  /-- APPEND, APPENDT and SEAL. -/
  | append
deriving DecidableEq, Repr

def Acc.reads : Acc → Bool
  | .load | .feRead | .atomic | .append => true
  | .store | .slice => false
def Acc.writes : Acc → Bool
  | .load | .feRead => false
  | _ => true

/-- The tail word of the append page whose first byte is at `base` (R260). -/
def State.tailPa (s : State) (base : Nat) : Nat := (s.die (homeDie base)).tailtab.toNat + base % 2 ^ 37 / 2 ^ 16 * 8
/-- SEALED and TAIL of a tail word. -/
def State.sealed (s : State) (base : Nat) : Bool := (s.read (s.tailPa base) 8).testBit 31
def State.tail (s : State) (base : Nat) : Nat := s.read (s.tailPa base) 8 % 2 ^ 22
/-- First byte of the append page that holds `pa`. -/
def Extent.pageBase (e : Extent) (pa : Nat) : Nat := if e.page = 0 then pa else pa - pa % e.page

/-- The class check of R246; the detail of the refusal. -/
def classDetail (s : State) (e : Extent) (pa : Nat) (a : Acc) : Option Nat :=
  let ap := aperture pa
  let outside := ap == 2 || ap == 3
  match a with
  | .load => none
  | .feRead => if outside then some 0 else none
  | .store => if e.append then (if s.sealed (e.pageBase pa) then some 2 else some 1) else none
  | .slice | .atomic =>
    if e.append then (if s.sealed (e.pageBase pa) then some 2 else some 1) else if outside then some 0 else none
  | .append => if e.append then none else some 0

/-- A canonical address (R125, R233). -/
def canonical (va : Nat) : Bool := va / 2 ^ 55 == 0 || va / 2 ^ 55 == 2 ^ 9 - 1

/-- The checks of R243 of one access of `size` bytes, after alignment: PA, or the cause. `detail` is out_of_lease's. -/
def checkVa (s : State) (l : Launch) (keyperm : DWord) (a : Acc) (detail : Nat) (va : DWord) (size : Nat) : Except Fail Nat :=
  if !canonical va.toNat then .error ⟨.outOfLease, detail, va⟩
  else
    match l.translate va.toNat with
    | none => .error ⟨.outOfLease, detail, va⟩
    | some (e, pa) =>
      if e.va + e.len < va.toNat + size then .error ⟨.outOfLease, detail, va⟩
      else if (a.reads && !e.rd) || (a.writes && !e.wr) then .error ⟨.outOfLease, detail, va⟩
      else if a.reads && !keyperm.getLsbD (2 * e.key) then .error ⟨.keyDenied, 0, va⟩
      else if a.writes && !keyperm.getLsbD (2 * e.key + 1) then .error ⟨.keyDenied, 1, va⟩
      else
        match classDetail s e pa a with
        | some d => .error ⟨.classViolation, d, va⟩
        | none => .ok pa

/-- A piece of a physical range meets bytes. -/
def Seg.hits (x : Seg) (pa size : Nat) : Bool := decide (pa < x.pa + x.len ∧ x.pa < pa + size)

/-- Windows of an accumulator and of a slot of a core (R248). -/
def accWindow (core k : Nat) : Seg :=
  let pa := 2 ^ 47 + core * 0x100000 + 0xB0000 + 0x4000 * k
  { va := pa, pa := pa, len := 0x4000 }
def slotWindow (core b : Nat) : Seg :=
  let c := if b < 12 then core else partnerOf core
  let pa := 2 ^ 47 + c * 0x100000 + 0xD0000 + 0x2000 * (b % 12)
  { va := pa, pa := pa, len := 0x2000 }

/-- The windows a Loom command registers as destinations (R250, R303). -/
def Loom.windows (x : Loom) : List Seg :=
  match x.op with
  | .loadb b _ _ _ => [slotWindow x.core b]
  | .loop c b nk _ _ _ _ => accWindow x.core c :: (List.range nk).map (fun k => slotWindow x.core (b + k))
  | .zero c | .store c _ _ _ _ _ | .read c _ _ _ | .write c _ _ _ => [accWindow x.core c]

/-- The registered ranges that an access of a core hits (R129, R283): 0 for a Loom range of its cluster, 1 for a carter
range. A load hits destination ranges only. -/
def rangeHit (s : State) (core : Nat) (wr : Bool) (pa size : Nat) : Option Nat :=
  let hit := fun (l : List Seg) => l.any (fun x => x.hits pa size)
  if s.looms.any (fun e => clusterOf e.2.core == clusterOf core && (hit e.2.dst || hit e.2.windows || (wr && hit e.2.src))) then some 0
  else if s.cmds.any (fun e => e.2.state != 4 && !(e.2.state == 2) && (hit e.2.dst || (wr && hit e.2.src))) then some 1
  else none

/-! ### The call and meeting stack (R19 to R23) -/

/-- The spill slot of a thread (R20). -/
def spillSlot (l : Launch) (g : Group) (lane : Nat) : Nat := l.stack + (g.seat * g.width + lane) * l.stksz

/-- An access to a spill slot: R243 with detail 1, and the range locks (R21, R22). -/
def checkSpill (s : State) (g : Group) (a : Acc) (va : Nat) : Except Fail Nat :=
  match checkVa s (s.launch g.launch) g.keyperm a 1 (BitVec.ofNat 64 va) 8 with
  | .error f => .error f
  | .ok pa =>
    match rangeHit s g.core a.writes pa 8 with
    | some d => .error ⟨.rangeConflict, d, BitVec.ofNat 64 va⟩
    | none => .ok pa

/-- Push an entry (R21, R22): the thread after it and the spill store, its address (VA and PA) and its value, if the chip is full. DESIGN CHOICE, log 75. -/
def push (s : State) (g : Group) (lane : Nat) (t : Thread) (e : StackEntry) :
    Except Fail (Thread × Option (DWord × Nat × DWord)) :=
  if t.stack.length < 4 then .ok ({ t with stack := e :: t.stack }, none)
  else
    let l := s.launch g.launch
    let va := spillSlot l g lane + 8 * t.spilled
    if t.spilled * 8 ≥ l.stksz then .error ⟨.outOfLease, 1, BitVec.ofNat 64 va⟩
    else
      match checkSpill s g .store va with
      | .error f => .error f
      | .ok pa =>
        .ok ({ t with stack := e :: t.stack.take 3, spilled := t.spilled + 1 }, some (BitVec.ofNat 64 va, pa, t.stack.getD 3 0#64))

/-- The top entry of a thread's stack, refilled from its spill slot where the chip is empty (R21); none when the stack is
empty. The thread is given without the entry. A refill is a load on the general path (R265), which later fences of the thread count (R272). -/
def topEntry (s : State) (g : Group) (lane : Nat) (t : Thread) : Except Fail (Option (StackEntry × Thread)) :=
  match t.stack with
  | e :: rest => .ok (some (e, { t with stack := rest }))
  | [] =>
    if t.spilled = 0 then .ok none
    else
      let l := s.launch g.launch
      let va := spillSlot l g lane + 8 * (t.spilled - 1)
      if t.spilled * 8 > l.stksz then .error ⟨.outOfLease, 1, BitVec.ofNat 64 va⟩
      else
        match checkSpill s g .load va with
        | .error f => .error f
        | .ok pa =>
          if (List.range 8).any (fun k => bytePoison s g.core .gen (pa + k)) then .error ⟨.poisoned, 0, BitVec.ofNat 64 va⟩
          else .ok (some (BitVec.ofNat 64 (loadValue s g.core .gen pa 8), { t.loaded s g.core .gen pa 8 with spilled := t.spilled - 1 }))

/-- ADDR of an entry, sign-extended from bit 55 (R19). -/
def entryAddr (e : StackEntry) : DWord := (e.extractLsb' 0 56).signExtend 64
/-- KIND 1, a saved meeting value. -/
def entryMeeting (e : StackEntry) : Bool := e.getLsbD 63
/-- The reserved bits [62:56] are zero. -/
def entrySound (e : StackEntry) : Bool := e.extractLsb' 56 7 == 0#7
/-- An entry of an address and a kind (R19). -/
def mkEntry (meeting : Bool) (a : DWord) : StackEntry := (if meeting then 1#1 else 0#1) ++ 0#7 ++ a.extractLsb' 0 56

/-- An access of a lane as the data comparators see it (R229). -/
structure Touch where
  lane : Nat
  va : DWord
  size : Nat
  rd : Bool
  wr : Bool
deriving DecidableEq, Repr

/-- A data comparator matches an access. -/
def Comparator.touches (k : Comparator) (t : Touch) : Bool :=
  k.lanes.has t.lane && ((k.ctrl.getLsbD 1 && t.rd) || (k.ctrl.getLsbD 2 && t.wr))
    && (List.range t.size).any (fun i => (t.va + BitVec.ofNat 64 i) &&& k.mask == k.addr &&& k.mask)

/-- The debug registers of the slot a group holds. -/
def debugOf (s : State) (g : Group) : DebugSlot :=
  match g.place with
  | .resident core slot => (s.core core).debugSlots.getD slot DebugSlot.zero
  | .evicted _ => DebugSlot.zero

/-- The address of the group's next instruction: of its current issue set, else of its lowest live thread. -/
def Group.nextPc (g : Group) : DWord :=
  match (LaneSet.toList g.cur).head? with
  | some l => (g.thread l).pc
  | none =>
    match (g.lanesWhere (fun _ t => t.live)).head? with
    | some l => (g.thread l).pc
    | none => 0#64

/-- A group that has been resumed tests no comparator for the instruction at GPC (R230). -/
def passesComparators (s : State) (g : Group) : Bool := g.resumed && (debugOf s g).pc == g.nextPc

/-- The lowest data comparator that matches an instruction's accesses, with the lanes that matched. -/
def dataMatch (s : State) (g : Group) (ts : List Touch) : Option (Nat × LaneSet) :=
  match g.place with
  | .evicted _ => none
  | .resident core slot =>
    if (s.launch g.launch).debug && !passesComparators s g then
      let ks := (s.core core).datas
      let on := fun (k : Comparator) => k.ctrl.getLsbD 0 && (k.ctrl.getLsbD 3 || bitsAt k.ctrl 4 4 == slot)
      match listFindIdx (fun k => on k && ts.any k.touches) 0 ks with
      | some n => some (n, LaneSet.of ((ts.filter (fun t => (ks.getD n Comparator.zero).touches t)).map (fun t => t.lane)))
      | none => none
    else none

/-- The refill that a pop of a thread makes (R21): the load of its topmost spilled entry, where the chip holds none. -/
def refillTouch (s : State) (g : Group) (lane : Nat) (t : Thread) : Option Touch :=
  if t.stack.isEmpty && decide (0 < t.spilled) then
    some { lane := lane, va := BitVec.ofNat 64 (spillSlot (s.launch g.launch) g lane + 8 * (t.spilled - 1)), size := 8, rd := true, wr := false }
  else none

/-- Spills, refills and the conditions of WAIT, by lane and word, wait for what their threads have in flight at the same bytes, so that they keep
program order (R21, R127), for stores in flight from the cluster, and for the commit of their team, whose values it has read (R267). -/
def spillWaits (s : State) (gid : Nat) (g : Group) (ps : List (Nat × Nat)) : Bool :=
  storesAhead s (clusterOf g.core) s.uid (ps.map (fun p => (p.2, 8)))
    || s.reqs.any (fun e => (e.2.group == gid && ps.any (fun p => e.2.lanes.has p.1 && e.2.meets [(p.2, 8)]))
      || (e.2.team == g.team && (match e.2.kind with
        | .commit _ _ _ => e.2.meets (ps.map (fun p => (p.2, 8)))
        | _ => false)))

/-- The place in memory of a refill, if it lies in the launch's extents. -/
def refillPa (s : State) (g : Group) (t : Touch) : Option (Nat × Nat) :=
  ((s.launch g.launch).translate t.va.toNat).map (fun x => (t.lane, x.2))

/-- What the pop of a meeting release does to one thread (R16, R22, R23): it may have to wait for the thread's own accesses to its slot (R21), and a
data comparator may match its refill (R229). -/
inductive PopOut where
  | done (t : Thread)
  | defective (t : Thread)
  | fail (f : Fail)
  | wait
  | watched (t : Touch)

/-- The pop that a released thread owes, timing and comparators apart (R22, R23). -/
def popEntry (s : State) (g : Group) (lane : Nat) (t : Thread) : PopOut :=
  match topEntry s g lane t with
  | .error f => .fail f
  | .ok none => .done { t with meet := noMeeting, owes := false }
  | .ok (some (e, t')) =>
    if !entryMeeting e then .done { t with meet := noMeeting, owes := false }
    else if !entrySound e then .defective { t with meet := noMeeting, owes := false }
    else .done { t' with meet := entryAddr e, md := t.md - 1, record := t.record.drop 1, owes := false }

/-- The pop that a released thread owes (R21 to R23, R229). -/
def popMeeting (s : State) (gid : Nat) (g : Group) (lane : Nat) (t : Thread) : PopOut :=
  match refillTouch s g lane t with
  | none => popEntry s g lane t
  | some x =>
    if spillWaits s gid g (refillPa s g x).toList then .wait
    else
      match popEntry s g lane t with
      | .defective t => .defective t
      | other => if (dataMatch s g [x]).isSome then .watched x else other

/-! ### One instruction issues -/

/-- What a meaning sees: its site, the group as it stands at issue, the issuing lanes in rising order, the latency of its
results (0 variable), the values of registers read short (R64), and the device time. -/
structure Ctx where
  site : Site
  g : Group
  lanes : List Nat
  lat : Nat
  short : List (Reg × Nat × Word)
deriving DecidableEq, Repr

/-- How the body of a meaning ends. -/
inductive Res where
  /-- The instruction is performed. -/
  | ok (s : State)
  /-- It raises a cause, with no effect (R100, R153). -/
  | trap (c : Cause)
  /-- A data comparator halts the group before any effect (R229). -/
  | halt (comp : Nat) (lanes : LaneSet)
  /-- It waits at issue: nothing changes, and it is tried again. -/
  | wait
  /-- It waits at issue for the guard band of its cluster, having asked for the step (R375). -/
  | rail (cluster : Nat)

/-- Registers that results in flight, or blocked instructions, hold pending (R63, R66). -/
def pendingRegs (s : State) (gid : Nat) (g : Group) : List Reg :=
  (s.reqs.filter (fun e => e.2.group == gid)).flatMap (fun e => e.2.dest)
    ++ g.blocks.flatMap (fun e => match e.2.kind with
      | .wait _ _ _ d => [Reg.g d]
      | .bar _ _ d => [Reg.g d]
      | _ => [])
    ++ s.looms.filterMap (fun e => match e.2.op with
      | .read _ _ _ v => if e.2.group = gid then some (Reg.v v) else none
      | _ => none)

/-- The next instruction of a group waits for Loom commands that an MFENCE.hold named (R313). -/
def loomHeld (s : State) (gid core : Nat) : Bool :=
  (Tab.getD (s.core core).holds gid []).any (fun n => s.looms.any (fun e => e.1 == n))

/-- A slice has still to answer the group's APPEND or STFS, which may raise a cause (R210). -/
def awaitsAnswer (s : State) (gid : Nat) (g : Group) : Bool :=
  g.append.isSome || s.reqs.any (fun e => e.2.group == gid && (match e.2.kind with
    | .stfs _ => true
    | _ => false))

/-- Fetch of the group is suspended until a slice has answered its APPEND or STFS (R210), or has performed its FEGET or its emptying FESET, acquires
that hold the accesses after them (R135, R275). DEDUCED, log 14. -/
def suspended (s : State) (gid : Nat) (g : Group) : Bool :=
  awaitsAnswer s gid g || s.reqs.any (fun e => e.2.group == gid && (match e.2.kind with
    | .fe k _ _ _ data _ _ => !feWaits k && feAcquires k data
    | _ => false))

/-- A register's value as an instruction of a lane reads it at issue (R60, R64). -/
def Ctx.reg (c : Ctx) (lane : Nat) (r : Reg) : Word :=
  match c.short.find? (fun e => e.1 == r && e.2.1 == lane) with
  | some e => e.2.2
  | none =>
    match r with
    | .v n => (c.g.thread lane).vreg n
    | .g n => c.g.greg n

/-- The register that an L-set code names (R38). -/
def lreg (code : Nat) : Reg := if code < 112 then .v code else .g (code - 112)
/-- val(x) of R99. -/
def Ctx.val (c : Ctx) (lane : Nat) (code : BitVec 7) : Word := c.reg lane (lreg code.toNat)
/-- The k-th register after a code. -/
def Ctx.valAt (c : Ctx) (lane : Nat) (code : BitVec 7) (k : Nat) : Word := c.reg lane (lreg (code.toNat + k))
/-- val64(x) of R99. -/
def Ctx.val64 (c : Ctx) (lane : Nat) (code : BitVec 7) : DWord := c.valAt lane code 1 ++ c.valAt lane code 0
/-- A G register, and a G pair (R39, R40). -/
def Ctx.gv (c : Ctx) (code : BitVec 7) : Word := c.reg 0 (.g code.toNat)
def Ctx.gAt (c : Ctx) (n : Nat) : Word := c.reg 0 (.g n)
def Ctx.g64 (c : Ctx) (n : Nat) : DWord := c.gAt (n + 1) ++ c.gAt n
/-- A G pair as an L-set instruction of a lane reads it (R64). -/
def Ctx.g64At (c : Ctx) (lane n : Nat) : DWord := c.reg lane (.g (n + 1)) ++ c.reg lane (.g n)
/-- Address register A_k (R40), and as an L-set instruction of a lane reads it. -/
def Ctx.areg (c : Ctx) (k : BitVec 4) : DWord := c.g64 (32 + 2 * k.toNat)
def Ctx.aregAt (c : Ctx) (lane : Nat) (k : BitVec 4) : DWord := c.g64At lane (32 + 2 * k.toNat)
/-- A cross-lane source of kind x (R164). -/
def Ctx.xval (c : Ctx) (lane : Nat) (code : BitVec 7) : Word :=
  if code.toNat < 64 then c.reg lane (.g code.toNat) else c.reg lane (.v (code.toNat - 64))

/-- The launch, team, core and width of the issuing group. -/
def Ctx.launch (c : Ctx) (s : State) : Launch := s.launch c.g.launch
def Ctx.team (c : Ctx) (s : State) : Team := s.team c.g.team
def Ctx.core (c : Ctx) : Nat := c.g.core
def Ctx.mask (c : Ctx) : LaneSet := c.site.lanes

/-- A cause of the whole issue set (R100, R153). -/
def Ctx.cause (c : Ctx) (w : Why) (detail : Nat) (addr : DWord) : Res :=
  .trap { why := w, detail := detail, lanes := c.mask, addr := addr }
/-- illegal_op with a detail. -/
def Ctx.illegal (c : Ctx) (detail : Nat) : Res := c.cause .illegalOp detail 0#64

/-- A request of the instruction, with nothing pending and nothing to land. -/
def Ctx.req (c : Ctx) (s : State) (dest : List Reg) (kind : ReqKind) : Req :=
  { group := c.site.gid, launch := c.g.launch, team := c.g.team, lanes := c.mask, core := c.core, time := s.time, pc := c.site.pc,
    word := c.site.word, pfx := c.site.pfx, dest := dest, notBefore := 0, hostAck := false, peerAck := false, kind := kind }

/-- Registers named once each. -/
def dedupRegs (rs : List Reg) : List Reg := rs.foldr (fun r acc => if acc.contains r then acc else r :: acc) []

/-- The outstanding fixed-latency writes that these writes add (R61): none for latency 1, which the next instruction may
read. -/
def newDues (c : Ctx) (ws : List RegWrite) : List Due :=
  if c.lat ≤ 1 then []
  else
    (dedupRegs (ws.map RegWrite.target)).map (fun r =>
      { reg := r, due := c.g.cycle + c.lat,
        old := (ws.filter (fun w => w.target == r)).foldl (fun m w => Tab.put m (w.lane.getD 0)
          (match w.lane with
            | some l => (c.g.thread l).vreg w.reg
            | none => c.g.greg w.reg)) [] })

/-- Write the results of an instruction: at once for a fixed latency, with a record of when they are due (R61, R65); as a
result in flight with its registers pending for a variable one (R63). -/
def Ctx.write (c : Ctx) (ws : List RegWrite) (s : State) : State :=
  if c.lat = 0 then s.addReq (c.req s (dedupRegs (ws.map RegWrite.target)) (.value ws))
  else s.modGroup c.site.gid (fun g =>
    { g.applyAll ws with
      dues := g.dues.flatMap (Due.after ws (if c.lat ≤ 1 then none else some (c.g.cycle + c.lat))) ++ newDues c ws })

/-- A write of one lane's V register. -/
def wV (lane : Nat) (code : BitVec 7) (x : Word) : RegWrite := { lane := some lane, reg := code.toNat, val := x }
/-- The two writes of a V pair. -/
def wV64 (lane : Nat) (code : BitVec 7) (x : DWord) : List RegWrite :=
  [{ lane := some lane, reg := code.toNat, val := x.extractLsb' 0 32 },
   { lane := some lane, reg := code.toNat + 1, val := x.extractLsb' 32 32 }]
/-- A write of a G register, and the two of a G pair. -/
def wG (code : BitVec 7) (x : Word) : RegWrite := { lane := none, reg := code.toNat, val := x }
def wG64 (code : BitVec 7) (x : DWord) : List RegWrite :=
  [{ lane := none, reg := code.toNat, val := x.extractLsb' 0 32 }, { lane := none, reg := code.toNat + 1, val := x.extractLsb' 32 32 }]

/-- A core is dark, and a lit core names its slots as B12 to B23, whatever launch made it dark (R289, R348). -/
def darkFor (s : State) (dark lit : Nat) : Bool :=
  match (s.core dark).dark with
  | some (_, c) => c == lit
  | none => false

/-- The shape that the checks of R45 depend on (R10, R13, R289, R306). -/
def shapeOf (s : State) (g : Group) : Shape :=
  { width := g.width, vregs := g.vregs, gregs := g.gregs, spec := (s.launch g.launch).spec, handler := g.handler,
    slots := if darkFor s (partnerOf g.core) g.core then 24 else 12 }

/-- A PC comparator that matches the issue (R229), the lowest first, with the issuing lanes that match it. DESIGN CHOICE, log 138. -/
def pcMatch (s : State) (g : Group) (pc : DWord) (lanes : LaneSet) : Option (Nat × LaneSet) :=
  match g.place with
  | .evicted _ => none
  | .resident core slot =>
    if (s.launch g.launch).debug && !passesComparators s g then
      (listFindIdx (fun x => x.ctrl.getLsbD 0 && x.addr == pc && (x.ctrl.getLsbD 3 || bitsAt x.ctrl 4 4 == slot)
        && x.lanes &&& lanes != 0#64) 0 (s.core core).pcs).map
        (fun k => (k, ((s.core core).pcs.getD k Comparator.zero).lanes &&& lanes))
    else none

/-- Halt a group (R228, R230): GLANES and GPC say where, REASON why. DEDUCED, log 73. DESIGN CHOICE, log 137. -/
def haltGroup (gid reason comp : Nat) (lanes : LaneSet) (pc : DWord) (s : State) : State :=
  match Tab.get? s.groups gid with
  | none => s
  | some g =>
    match g.place with
    | .evicted _ => s
    | .resident core slot =>
      (s.setGroup gid { g with halted := true, teamhalt := false }).modCore core (fun k =>
        { k with debugSlots := listModify k.debugSlots slot (fun d =>
            { d with haltreq := false, reason := reason, comp := comp, lanes := lanes, pc := pc }) })

/-- A halt request that falls due at an instruction boundary (R228, R231): its REASON. -/
def haltDue (s : State) (g : Group) : Option Nat :=
  if g.teamhalt then some 5 else if (debugOf s g).haltreq then some 6 else none

/-- Another group of a team is asked to halt at its next instruction boundary (R231). -/
def askTeamHalt (team gid n : Nat) (x : Group) : Group :=
  if x.team = team ∧ n ≠ gid ∧ !x.frozen ∧ !x.halted then { x with teamhalt := true } else x

/-- A step halt of SSTEP, which also halts the team's other groups with FRZTEAM (R231). DESIGN CHOICE, log 136. -/
def stepHalt (gid : Nat) (s : State) : State :=
  match Tab.get? s.groups gid with
  | none => s
  | some g =>
    let d := debugOf s g
    if d.sstep && !g.frozen && !g.halted then
      let s := haltGroup gid 3 0 g.cur g.nextPc s
      if d.frzteam then
        { s with groups := s.groups.map (fun e => (e.1, askTeamHalt g.team gid e.1 e.2)) }
      else s
    else s

/-- After an instruction has issued (R16, R61): the rotation pointer moves past it, the issue cycles count it and its stall
count, and the next issue set is chosen. -/
def Group.passed (g : Group) (time : Nat) (next : DWord) (stall : Nat) : Group :=
  let cycle := g.cycle + 1 + stall
  { g with
    rot := next, cycle := cycle, resumed := false, starved := false, readySince := time, readyClocks := 0,
    dues := if stall = 3 then [] else g.dues.filter (fun d => decide (cycle < d.due)) }.choose

/-- The end of an issue, for a group that is still there. -/
def finishIssue (at_ : Site) (s : State) : State :=
  match Tab.get? s.groups at_.gid with
  | none => s
  | some g =>
    if g.frozen then s
    else
      let g' := g.passed s.time at_.next (at_.word.extractLsb' 29 2).toNat
      -- an instruction that a slice may still stop is followed by its halt once it has been answered (R231)
      if awaitsAnswer s at_.gid g' then s.setGroup at_.gid g' else stepHalt at_.gid (s.setGroup at_.gid g')

/-- The threads of an issue set move past the instruction. -/
def advance (at_ : Site) (s : State) : State :=
  s.modGroup at_.gid (fun g => g.modLanes at_.lanes (fun _ t => { t with pc := at_.next }))

/-- The pops that threads of an issue set owe (R23), made with the instruction at the meeting address; none where a handler
is open. -/
def owedPops (s : State) (at_ : Site) (g : Group) : List (Nat × PopOut) :=
  if g.handler then []
  else
    (LaneSet.toList at_.lanes).filterMap (fun l =>
      let t := g.thread l
      if t.owes && t.meet == at_.pc then some (l, popMeeting s at_.gid g l t) else none)

/-- What a pop leaves of a thread whose pop succeeded, or whose entry was defective (R22, R23); the cause a pop raises. -/
def Group.popDone (g : Group) (e : Nat × PopOut) : Group :=
  match e.2 with
  | .done t => g.modThread e.1 (fun _ => t)
  | _ => g
def Group.popDefect (g : Group) (e : Nat × PopOut) : Group :=
  match e.2 with
  | .defective t => g.modThread e.1 (fun _ => t)
  | _ => g
def popFail (e : Nat × PopOut) : Option (Nat × Fail) :=
  match e.2 with
  | .fail f => some (e.1, f)
  | _ => none
def popDefective (e : Nat × PopOut) : Bool :=
  match e.2 with
  | .defective _ => true
  | _ => false
def popWaits (e : Nat × PopOut) : Bool :=
  match e.2 with
  | .wait => true
  | _ => false
def popTouch (e : Nat × PopOut) : Option Touch :=
  match e.2 with
  | .watched t => some t
  | _ => none

/-- Registers read short of their latency (R61, R64, R65): outstanding writes not yet due. DEDUCED, log 4. -/
def shortDues (g : Group) (reads : List Reg) : List Due :=
  g.dues.filter (fun d => decide (g.cycle < d.due) && reads.contains d.reg)

/-- The values before an outstanding write, for each lane that reads them: a G register is read in every lane of an L-set instruction, and by a
G-set one as in lane 0. -/
def Due.readings (d : Due) (lanes : List Nat) : List (Nat × Word) :=
  match d.reg with
  | .v _ => d.old
  | .g _ => d.old.flatMap (fun e => (if lanes.contains 0 then lanes else 0 :: lanes).map (fun l => (l, e.2)))

/-- The values that short reads give (R64): for each lane of each short register, the latest write's new value, or the value
before one of the writes, as the free values say. -/
def shortValues (ds : List Due) (lanes : List Nat) (free : Nat) : List (Reg × Nat × Word) × Nat :=
  ds.reverse.foldl (fun acc d =>
    (d.readings lanes).foldl (fun acc e =>
      if Config.shortRead acc.2 then (((d.reg, e.1, e.2) :: acc.1), acc.2 + 1) else (acc.1, acc.2 + 1)) acc) ([], free)

/-- Offset in a core's window of a register of a group (R249). -/
def Group.regOffset (g : Group) (lane : Nat) : Reg → Nat
  | .v n => ((16 * g.vcol + lane) * 1024 + g.vrow + n) * 4
  | .g n => 0x40000 + (g.grow + n) * 4

/-- The lanes that read a poisoned register raise poisoned, whose rank is the last (R214, R389): a cause of the instruction's own that comes before it is
taken, and one of its data that is poisoned too is taken with it. DESIGN CHOICE, log 66. -/
def Res.withPoison (bad : List Nat) (r : Res) : Res :=
  if bad.isEmpty then r
  else
    match r with
    | .ok _ => .trap { why := .poisoned, detail := 0, lanes := LaneSet.of bad, addr := 0#64 }
    | .trap c =>
      if c.why.rank < Why.poisoned.rank then r
      else if bad.headD 0 < (LaneSet.toList c.lanes).headD 0 then
        .trap { why := .poisoned, detail := 0, lanes := if c.why = .poisoned then LaneSet.of bad ||| c.lanes else LaneSet.of bad, addr := 0#64 }
      else .trap { c with lanes := if c.why = .poisoned then LaneSet.of bad ||| c.lanes else c.lanes }
    | other => other

/-- Lanes whose source registers lie in a word of the register files that an error has poisoned (R389). DESIGN CHOICE, log 66. No instruction clears
that poison: DESIGN CHOICE, log 154. -/
def poisonedLanes (s : State) (g : Group) (lanes : List Nat) (reads : List Reg) : List Nat :=
  match g.place with
  | .evicted _ => []
  | .resident core _ =>
    if s.poison.isEmpty then []
    else lanes.filter (fun l => reads.any (fun r => s.poisoned (2 ^ 47 + core * 0x100000 + g.regOffset l r) 4))

/-- What the issue of a word depends on beyond its meaning: its encoding (for a pair, its follower's), the registers it reads and
writes, its latency and the detail that R45 gives it. -/
structure Form where
  word : Word
  reads : List Reg
  writes : List Reg
  lat : Nat
  detail : Shape → Option Nat

/-- The form of an instruction. -/
def formOf (i : Instr) : Form :=
  { word := wordOf i, reads := i.reads, writes := i.writes, lat := i.latency, detail := fun sh => illegalDetail sh i }

/-- A word of the G-set: a cause that it raises is its whole issue set's (R153). -/
def gSet (w : Word) : Bool := w.getLsbD 31

/-- The lanes that raise poisoned for registers that an error has poisoned: in the G-set the whole issue set, if there is one (R153, R215). -/
def Form.badLanes (f : Form) (s : State) (g : Group) (lanes : List Nat) : List Nat :=
  let bad := poisonedLanes s g lanes f.reads
  if bad.isEmpty || !gSet f.word then bad else lanes

/-- Issue an instruction at its site (R23, R45, R61 to R65, R210 to R231): comparators, owed pops, encoding checks, pending
registers, the checking scoreboard, then the instruction's own body. `detail` is what R45 finds in the word. Among the owed pops a
defective entry comes first, then the lane-level failures of the refill (R214 point 1; DEDUCED, log entry 35). What
R45 finds in the word is reported before stall_short, what the body finds after it: DESIGN CHOICE, log 148. -/
def issueAt (f : Form) (at_ : Site) (g0 : Group) (detail : Option Nat) (body : Ctx → State → Res) (s0 : State) : State :=
  if suspended s0 at_.gid g0 then s0
  else
  match haltDue s0 g0 with
  | some reason => haltGroup at_.gid reason 0 at_.lanes at_.pc s0
  | none =>
  match pcMatch s0 g0 at_.pc at_.lanes with
  | some (k, lanes) => haltGroup at_.gid 1 k lanes at_.pc s0
  | none =>
    let pops := owedPops s0 at_ g0
    let stop := fun (c : Cause) (s : State) => finishIssue at_ (takeCause at_ c at_.lanes s)
    if pops.any popWaits then s0
    else if pops.any popDefective then
      stop { why := .illegalOp, detail := 9, lanes := at_.lanes, addr := 0#64 } (s0.setGroup at_.gid (pops.foldl Group.popDefect g0))
    else
      match dataMatch s0 g0 (pops.filterMap popTouch) with
      | some (k, lanes) => haltGroup at_.gid 2 k lanes at_.pc s0
      | none =>
      match pickCause (pops.filterMap popFail) with
      | some c => stop c s0
      | none =>
        let g := pops.foldl Group.popDone g0
        let s := s0.setGroup at_.gid g
        match detail with
        | some d => stop { why := .illegalOp, detail := d, lanes := at_.lanes, addr := 0#64 } s
        | none =>
          let pend := pendingRegs s at_.gid g
          if (f.reads ++ f.writes).any (fun r => pend.contains r) || loomHeld s at_.gid g.core then s0
          else
            let ds := shortDues g f.reads
            if g.stallchk && !ds.isEmpty then stop { why := .stallShort, detail := 0, lanes := at_.lanes, addr := 0#64 } s
            else
              let lanes := LaneSet.toList at_.lanes
              let sh := shortValues ds lanes s.free
              let c : Ctx := { site := at_, g := g, lanes := lanes, lat := f.lat, short := sh.1 }
              match (body c (advance at_ { s with free := sh.2 })).withPoison (f.badLanes s g lanes) with
              | .ok s' => finishIssue at_ s'
              | .trap cause => stop cause s
              | .halt k lanes => haltGroup at_.gid 2 k lanes at_.pc s0
              | .wait => s0
              | .rail k => s0.modCluster k (fun x => { x with railreq := true })

/-- The site of the group at the turn, if it has an issue set that may issue (R16, R220, R230); `bytes` is 4, or 8 for an
EXT pair. -/
def siteOf (s : State) (word : Word) (pfx : Prefix) : Option (Site × Group) :=
  match Tab.get? s.groups s.turn with
  | none => none
  | some g =>
    match g.place with
    | .evicted _ => none
    | .resident _ _ =>
      let lanes := g.cur &&& LaneSet.below g.threads.length
      if g.frozen || g.halted || lanes == 0#64 then none
      else
        let pc := g.nextPc
        some ({ gid := s.turn, lanes := lanes, pc := pc, next := pc + (if pfx.isSome then 8#64 else 4#64), word := word,
                pfx := pfx }, g)

/-- The meaning of a form for the issue set at the turn. -/
def issueForm (f : Form) (pfx : Prefix) (body : Ctx → State → Res) (s : State) : Host.Outcome State Fault Refusal :=
  match siteOf s f.word pfx with
  | none => .fault .noIssueSet
  | some (at_, g) => .next (issueAt f at_ g (f.detail (shapeOf s g)) body s)

/-- The meaning of an instruction word for the issue set at the turn. -/
def issue (i : Instr) (pfx : Prefix) (body : Ctx → State → Res) (s : State) : Host.Outcome State Fault Refusal :=
  issueForm (formOf i) pfx body s

/-- An EXT pair whose follower takes no prefix, or is defective before that (R45 orders 1 to 3, R59): the whole issue set
traps with this detail, reported on the pair. -/
def issuePairBad (detail : Nat) (e : BitVec 21) (w : Word) (s : State) : Host.Outcome State Fault Refusal :=
  issueForm { word := w, reads := [], writes := [], lat := 0, detail := fun _ => some detail } (some e) (fun _ _ => .wait) s

end Sys2Proof.Machine
end

