-- ==== Sys2Proof/Machine/Convert.lean ====
section
/-! DEFINITION. The conversions, quantising, RAND and special-register reads of the L-set (spec/07 R113 to R123) and the
shuffles (R124). -/

namespace Sys2Proof.Machine

/-- The draw r of a lane conversion (R80): key SRKEY of the group, draw 3. -/
def laneDraw (c : Ctx) (counter : Word) : Word := genH c.g.srkey counter 3

/-- CVTF of one value (R113): the code, with zeros above it. -/
def cvtfF (f : BitVec 4) (r : BitVec 3) (draw : Word) (a : Word) : Word :=
  BitVec.ofNat 32 (conv (NarrowFmt.ofCode f.toNat) (Rnd.ofCode r.toNat) draw (valF32 a))

/-- CVTT of one value (R114). -/
def cvttF (f : BitVec 4) (a : Word) : Word := toF32 ((NarrowFmt.ofCode f.toNat).value a.toNat)

/-- CVTI from binary32 to an integer of 32 or 64 bits (R84, R115). -/
def cvtiTo (mode : Rnd) (signed : Bool) (bits : Nat) (a : Word) : DWord := BitVec.ofInt 64 (convInt mode signed bits (valF32 a))

/-- CVTI from an integer to binary32 (R84, R115). -/
def cvtiFrom (mode : Rnd) (i : Int) : Word := BitVec.ofNat 32 (fmtF32.round mode (Val.ofInt i))

/-- The writes of CVTI in one lane, by its kind (R50). -/
def cvtiLane (c : Ctx) (l : Nat) (d a : BitVec 7) (k : BitVec 4) (mode : Rnd) : List RegWrite :=
  match k.toNat with
  | 0 => [wV l d ((cvtiTo mode true 32 (c.val l a)).extractLsb' 0 32)]
  | 1 => [wV l d ((cvtiTo mode false 32 (c.val l a)).extractLsb' 0 32)]
  | 2 => [wV l d (cvtiFrom mode (c.val l a).toInt)]
  | 3 => [wV l d (cvtiFrom mode (c.val l a).toNat)]
  | 4 => wV64 l d (cvtiTo mode true 64 (c.val l a))
  | 5 => wV64 l d (cvtiTo mode false 64 (c.val l a))
  | 6 => [wV l d (cvtiFrom mode (c.val64 l a).toInt)]
  | _ => [wV l d (cvtiFrom mode (c.val64 l a).toNat)]

/-- PACK of one value (R116): element `e` of width 4, 8 or 16 bits. -/
def packF (w : BitVec 2) (e : BitVec 3) (a d : Word) : Word :=
  let ew := 2 ^ (w.toNat + 2)
  let mask : Word := BitVec.ofNat 32 (2 ^ ew - 1)
  (d &&& ~~~(mask <<< (e.toNat * ew))) ||| ((a &&& mask) <<< (e.toNat * ew))

/-- UNPK of one value (R116). -/
def unpkF (w : BitVec 2) (e : BitVec 3) (a : Word) : Word :=
  let ew := 2 ^ (w.toNat + 2)
  (a >>> (e.toNat * ew)) &&& BitVec.ofNat 32 (2 ^ ew - 1)

/-- The largest magnitude of a block of issuing lanes (R117). -/
def blockMax (vals : List Word) : Word :=
  if vals.any (fun a => (valF32 a).isNan) then f32Nan
  else vals.foldl (fun m a => if m.toNat < (fabsF a).toNat then fabsF a else m) 0#32

/-- SCALEF of one value (R118, R119). -/
def scalefF (f : BitVec 4) (a : Word) : Word :=
  if f = 10#4 then
    let y := valBf16 (lo16 a)
    if hi16 a = 0#16 then BitVec.ofNat 32 (bsf4Band y) else BitVec.ofNat 32 (bsf4Block y (hi16 a).toNat)
  else BitVec.ofNat 32 (mxScale (NarrowFmt.ofCode f.toNat) (valF32 a))

/-- QCVT of one value (R120, R121): the code, and whether it was clamped. -/
def qcvtF (c : Ctx) (f : BitVec 4) (mode : Rnd) (a d : Word) : Nat × Bool :=
  if f = 10#4 then
    convBsf4 mode (laneDraw c (d.extractLsb' 24 8 |>.zeroExtend 32)) (bitsAt d 0 8) (bitsAt d 8 16) (valF32 a)
  else
    convMx (NarrowFmt.ofCode f.toNat) mode (laneDraw c (d.extractLsb' 8 24 |>.zeroExtend 32)) (bitsAt d 0 8) (valF32 a)

/-- Add clamps to a core's QCLAMP (R89). -/
def addClamps (core n : Nat) (s : State) : State := s.modCore core (fun k => { k with qclamp := k.qclamp + BitVec.ofNat 64 n })

/-- RUNG of a team (R318). -/
def Team.rungWord (t : Team) : Word :=
  match t.tx, t.replay with
  | some x, _ => BitVec.ofNat 32 (x.rung % 4 + x.top % 4 * 4)
  | none, some r => BitVec.ofNat 32 (r.rung % 4 + r.top % 4 * 4)
  | none, none => 0#32

/-- TXSTATE of a team (R318). -/
def Team.txstateWord (t : Team) : Word :=
  let rep := if t.replay.isSome then 2 else 0
  match t.tx, t.replay with
  | some x, _ =>
    BitVec.ofNat 32 (1 + rep + (if x.rtrip then 4 else 0) + (if x.ctrip then 8 else 0) + x.ladder % 8 * 16 + x.tile % 2 ^ 24 * 256)
  | none, some r => BitVec.ofNat 32 (rep + r.ladder % 8 * 16 + r.tile % 2 ^ 24 * 256)
  | none, none => 0#32

/-- LOGICAL of a team (R358). -/
def logicalWord (l : Launch) (teamid : Nat) : Word :=
  if l.det then BitVec.ofNat 32 (teamid / l.nwaves % 2 ^ 16 + teamid % l.nwaves * 2 ^ 16) else 0#32

/-- A special register as a thread of a group reads it (R42). -/
def specialValue (s : State) (g : Group) (lane n : Nat) : DWord :=
  let l := s.launch g.launch
  let t := s.team g.team
  match n with
  | 0x0000 => BitVec.ofNat 64 lane
  | 0x0001 => BitVec.ofNat 64 g.gid
  | 0x0002 => BitVec.ofNat 64 t.teamid
  | 0x0003 => BitVec.ofNat 64 l.nteams
  | 0x0004 => BitVec.ofNat 64 g.width
  | 0x0005 => BitVec.ofNat 64 g.core
  | 0x0006 => BitVec.ofNat 64 (clusterOf g.core)
  | 0x0007 => BitVec.ofNat 64 (dieOf g.core)
  | 0x0008 => (logicalWord l t.teamid).zeroExtend 64
  | 0x0009 => BitVec.ofNat 64 (2 ^ (s.cluster (clusterOf g.core)).peff)
  | 0x000A => BitVec.ofNat 64 l.heat
  | 0x0010 => t.rungWord.zeroExtend 64
  | 0x0011 => t.txstateWord.zeroExtend 64
  | 0x0020 => (g.thread lane).febudget.zeroExtend 64
  | 0x0021 => g.keyperm
  | 0x0022 => g.srkey
  | 0x0023 => if g.stallchk then 1#64 else 0#64
  | 0x0030 => g.trapvec
  | 0x0031 => g.trapcauseWord.zeroExtend 64
  | 0x0032 => g.traplanes
  | 0x0033 => g.trappc
  | 0x0034 => g.trapword.zeroExtend 64
  | 0x0035 => g.trapf
  | 0x0036 => g.trapaddr
  | _ => 0#64

/-- CVTF (R113). -/
def execCvtf (st : BitVec 2) (d a : BitVec 7) (f : BitVec 4) (r : BitVec 3) (s : State) : Host.Outcome State Fault Refusal :=
  issue (.cvtf st d a f r) none (fun c s =>
    .ok (c.write (c.lanes.map (fun l => wV l d (cvtfF f r (laneDraw c (c.val l d)) (c.val l a)))) s)) s

/-- CVTT (R114). -/
def execCvtt (st : BitVec 2) (d a : BitVec 7) (f : BitVec 4) (s : State) : Host.Outcome State Fault Refusal :=
  issue (.cvtt st d a f) none (fun c s => .ok (c.write (c.lanes.map (fun l => wV l d (cvttF f (c.val l a)))) s)) s

/-- CVTI (R115). -/
def execCvti (st : BitVec 2) (d a : BitVec 7) (k : BitVec 4) (r : BitVec 3) (s : State) : Host.Outcome State Fault Refusal :=
  issue (.cvti st d a k r) none (fun c s =>
    .ok (c.write (c.lanes.flatMap (fun l => cvtiLane c l d a k (Rnd.ofCode r.toNat))) s)) s

/-- PACK (R116). -/
def execPack (st : BitVec 2) (d a : BitVec 7) (w : BitVec 2) (e : BitVec 3) (s : State) : Host.Outcome State Fault Refusal :=
  issue (.pack st d a w e) none (fun c s => .ok (c.write (c.lanes.map (fun l => wV l d (packF w e (c.val l a) (c.val l d)))) s)) s

/-- UNPK (R116). -/
def execUnpk (st : BitVec 2) (d a : BitVec 7) (w : BitVec 2) (e : BitVec 3) (s : State) : Host.Outcome State Fault Refusal :=
  issue (.unpk st d a w e) none (fun c s => .ok (c.write (c.lanes.map (fun l => wV l d (unpkF w e (c.val l a)))) s)) s

/-- QCVT (R120, R121). -/
def execQcvt (st : BitVec 2) (d a : BitVec 7) (f : BitVec 4) (r : BitVec 3) (s : State) : Host.Outcome State Fault Refusal :=
  issue (.qcvt st d a f r) none (fun c s =>
    let out := c.lanes.map (fun l => (l, qcvtF c f (Rnd.ofCode r.toNat) (c.val l a) (c.val l d)))
    .ok (c.write (out.map (fun e => wV e.1 d (BitVec.ofNat 32 e.2.1))) (addClamps c.core (out.countP (fun e => e.2.2)) s))) s

/-- BMAXA (R117). -/
def execBmaxa (st : BitVec 2) (d a : BitVec 7) (i : BitVec 7) (s : State) : Host.Outcome State Fault Refusal :=
  issue (.bmaxa st d a i) none (fun c s =>
    .ok (c.write (c.lanes.map (fun l =>
      wV l d (blockMax ((c.lanes.filter (fun j => j / i.toNat == l / i.toNat)).map (fun j => c.val j a))))) s)) s

/-- SCALEF (R118, R119). -/
def execScalef (st : BitVec 2) (d a : BitVec 7) (f : BitVec 4) (s : State) : Host.Outcome State Fault Refusal :=
  issue (.scalef st d a f) none (fun c s => .ok (c.write (c.lanes.map (fun l => wV l d (scalefF f (c.val l a)))) s)) s

/-- RAND (R122): the key is the pair G(2k). -/
def execRand (st : BitVec 2) (d a : BitVec 7) (e : BitVec 2) (k : BitVec 5) (s : State) : Host.Outcome State Fault Refusal :=
  issue (.rand st d a e k) none (fun c s =>
    .ok (c.write (c.lanes.map (fun l => wV l d (genH (c.g64At l (2 * k.toNat)) (c.val l a) e.toNat))) s)) s

/-- RDS (R123). -/
def execRds (st : BitVec 2) (d : BitVec 7) (i : BitVec 14) (s : State) : Host.Outcome State Fault Refusal :=
  issue (.rds st d i) none (fun c s =>
    .ok (c.write (c.lanes.flatMap (fun l =>
      let v := specialValue s c.g l i.toNat
      if specialWide i then wV64 l d v else [wV l d (v.extractLsb' 0 32)])) s)) s

/-! ### Shuffles (R124) -/

/-- Each lane takes val(A) of the source lane that `src` gives from its own number and b, or its own where that lane is not
among the issuing lanes. -/
def shuffle (src : Nat → Word → Option Nat) (d a b : BitVec 7) (c : Ctx) (s : State) : Res :=
  .ok (c.write (c.lanes.map (fun l =>
    match src l (c.val l b) with
    | some j => wV l d (if c.lanes.contains j then c.val j a else c.val l a)
    | none => wV l d (c.val l a))) s)

/-- SHFL (R124): lane b. -/
def execShfl (st : BitVec 2) (d a b : BitVec 7) (s : State) : Host.Outcome State Fault Refusal :=
  issue (.shfl st d a b) none (shuffle (fun _ b => some b.toNat) d a b) s

/-- SHFLX (R124): lane l xor b. -/
def execShflx (st : BitVec 2) (d a b : BitVec 7) (s : State) : Host.Outcome State Fault Refusal :=
  issue (.shflx st d a b) none (shuffle (fun l b => some (l ^^^ b.toNat)) d a b) s

/-- SHFLU (R124): lane l - b. -/
def execShflu (st : BitVec 2) (d a b : BitVec 7) (s : State) : Host.Outcome State Fault Refusal :=
  issue (.shflu st d a b) none (shuffle (fun l b => if b.toNat ≤ l then some (l - b.toNat) else none) d a b) s

/-- SHFLD (R124): lane l + b. -/
def execShfld (st : BitVec 2) (d a b : BitVec 7) (s : State) : Host.Outcome State Fault Refusal :=
  issue (.shfld st d a b) none (shuffle (fun l b => some (l + b.toNat)) d a b) s

end Sys2Proof.Machine
end

