-- ==== Sys2Proof/Machine/Slice.lean ====
section
/-! DEFINITION. What a home slice does: writes with their completion times (spec/14 R269), task digests and line tags (spec/18
R360, R362), atomics (spec/07 R138 to R141), full/empty accesses, condition monitors, park records and the waking of waiting
accesses (spec/12 R254 to R259, spec/07 R135 to R137), gates (spec/18 R341), and what releases wait for (spec/14 R271, R272). -/

namespace Sys2Proof.Machine

/-! ### Writes -/

/-- F(v) is added to a task's digest (R360): in its team, and in its launch once the task has ended. DEDUCED, log 24. -/
def foldTask (team : Nat) (v : DWord) (s : State) : State :=
  let t := s.team team
  if (s.launch t.launch).det then
    (s.modTeam team (fun t => { t with digest := t.digest + genF v })).modLaunch t.launch
      (fun l => { l with digests := Tab.modify l.digests t.teamid (fun d => d + genF v) })
  else s

/-- The line tag of R362, which a line of this device's L2 carries: a write by another team of a deterministic launch counts in MULTIW. -/
def tagLine (team pa : Nat) (s : State) : State :=
  let t := s.team team
  if (s.launch t.launch).det && aperture pa == 0 then
    let s1 := match Tab.get? s.lineTags (lineOf pa) with
      | some (l, d) =>
        if l = t.launch ∧ d ≠ t.teamid then s.modLaunch t.launch (fun x => { x with multiw := min (x.multiw + 1) (2 ^ 32 - 1) }) else s
      | none => s
    { s1 with lineTags := Tab.put s1.lineTags (lineOf pa) (t.launch, t.teamid) }
  else s

/-- v of a store of bytes inside one 8-byte word (R360). -/
def foldBytes (va : DWord) (bytes : List Byte) : DWord :=
  BitVec.ofNat 64 (leNat bytes * 256 ^ (va.toNat % 8)) ^^^ BitVec.ofNat 64 (va.toNat - va.toNat % 8)

/-! ### Atomics (R138, R140) -/

/-- A function of binary32 applied to each BF16 half. -/
def bothHalves (f : Word → Word → Word) (m x : Word) : Word :=
  let up := fun (h : Half) => (h ++ 0#16 : Word)
  hi16 (f (up (hi16 m)) (up (hi16 x))) ++ hi16 (f (up (lo16 m)) (up (lo16 x)))

/-- op(m, x) of R138 on a word of 32 bits. -/
def atomic32 (op : AtomOp) (ty : BitVec 3) (m x new : Word) : Word :=
  match op with
  | .add => if ty = 4#3 then faddF m x else if ty = 5#3 then badd2F m x else m + x
  | .min =>
    if ty = 4#3 then fminF m x else if ty = 5#3 then bothHalves fminF m x else if ty = 1#3 then iminF m x else nminF m x
  | .max =>
    if ty = 4#3 then fmaxF m x else if ty = 5#3 then bothHalves fmaxF m x else if ty = 1#3 then imaxF m x else nmaxF m x
  | .and => m &&& x
  | .or => m ||| x
  | .xor => m ^^^ x
  | .xch => x
  | .cas => if m = x then new else m

/-- op(m, x) of R138 on a word of 64 bits. -/
def atomic64 (op : AtomOp) (ty : BitVec 3) (m x new : DWord) : DWord :=
  match op with
  | .add => m + x
  | .min => if ty = 3#3 then (if m.slt x then m else x) else if m.ult x then m else x
  | .max => if ty = 3#3 then (if m.slt x then x else m) else if m.ult x then x else m
  | .and => m &&& x
  | .or => m ||| x
  | .xor => m ^^^ x
  | .xch => x
  | .cas => if m = x then new else m

/-- op(m, x), with compare value x and new value `new` for .cas (R138, R140). -/
def atomicF (op : AtomOp) (ty : BitVec 3) (m x new : DWord) : DWord :=
  if type64 ty then atomic64 op ty m x new
  else (atomic32 op ty (m.extractLsb' 0 32) (x.extractLsb' 0 32) (new.extractLsb' 0 32)).zeroExtend 64

/-- The folds of one lane's atomic (R360). -/
def foldAtomic (team : Nat) (op : AtomOp) (va x new : DWord) (s : State) : State :=
  let s1 := foldTask team (x ^^^ va) s
  match op with
  | .cas => foldTask team (new ^^^ va) s1
  | _ => s1

/-! ### Gates (R341) -/

/-- A gate's word is found full: one at a peer that gives no answer is not, and is tried again (R384). DESIGN CHOICE, log 142. -/
def gateFull (s : State) (pa : Nat) : Bool := peerAnswers s pa && s.isFull pa

/-- A launch whose gates have all resolved may have its teams placed. -/
def openGates (l : Launch) : Launch :=
  if l.phase = .gated ∧ l.gates.all (fun g => g.resolved) then { l with phase := .running } else l

/-- A fill of a word resolves every gate registered on it. -/
def resolveGates (pa : Nat) (s : State) : State :=
  { s with launches := s.launches.map (fun e =>
      (e.1, openGates { e.2 with gates := e.2.gates.map (fun g =>
        match g.watch with
        | .monitor _ => if g.pa / 8 = pa / 8 then { g with resolved := true } else g
        | _ => g) })) }

/-! ### Full/empty accesses (R135, R136) -/

/-- The site of the instruction that a request belongs to; full/empty forms and other late stops have no prefix on their
words but the one the request keeps. -/
def Req.site (r : Req) : Site :=
  { gid := r.group, lanes := r.lanes, pc := r.pc, next := r.pc + (if r.pfx.isSome then 8#64 else 4#64), word := r.word, pfx := r.pfx }

/-- The word is in the state that the form awaits. -/
def feReady (s : State) (kind : FeKind) (pa : Nat) : Bool :=
  match kind with
  | .ldw | .ldc => s.isFull pa
  | .stf => !s.isFull pa
  | _ => true

/-- What a full/empty access does at the slice: the word read, the state after, and whether the word or its bit may have
changed (R135). STF is a store for the digest and the line tag; a change of state alone is not (R360). -/
def feEffect (team : Nat) (kind : FeKind) (va : DWord) (pa : Nat) (data : DWord) (s : State) : DWord × State × Bool :=
  let w := BitVec.ofNat 64 (s.read pa 8)
  match kind with
  | .ldw => (w, s, false)
  | .ldc => (w, s.setFull pa false, true)
  | .stf | .stfs =>
    (w, resolveGates pa (foldTask team (foldBytes va (leBytes 8 data.toNat)) (tagLine team pa
      ((s.poke pa (leBytes 8 data.toNat)).setFull pa true))), true)
  | .feset =>
    if data.getLsbD 0 then (w, resolveGates pa (s.setFull pa true), true) else (w, s.setFull pa false, true)
  | .feget => (if s.isFull pa then 1#64 else 0#64, s, false)

/-- The register writes of a full/empty form. -/
def feWrites (kind : FeKind) (lane reg : Nat) (w : DWord) : List RegWrite :=
  let lo : RegWrite := { lane := some lane, reg := reg, val := w.extractLsb' 0 32 }
  match kind with
  | .ldw | .ldc => [lo, { lane := some lane, reg := reg + 1, val := w.extractLsb' 32 32 }]
  | .feget => [lo]
  | _ => []

/-- What stays of a request whose write has been performed, until the completion time has passed and the acknowledgements have come:
a release of its threads waits for it (R269, R271). -/
def residue (r : Req) (complete : Nat) (hostAck peerAck : Bool) (s : State) : State :=
  if complete ≤ s.time ∧ !hostAck ∧ !peerAck then s
  else s.addReq { r with dest := [], notBefore := complete, hostAck := hostAck, peerAck := peerAck, kind := .store [] }

/-- A request that met poison, or that no peer answers, leaves its destination unwritten and pending (R210). DEDUCED, log 74. -/
def holdPending (n : Nat) (s : State) : State :=
  s.modReq n (fun q => if q.dest.isEmpty then q else { q with kind := .store [] })

/-- A request ends with its destination pending, or, where nothing waits for it, altogether. -/
def endRequest (n : Nat) (r : Req) (s : State) : State := if r.dest.isEmpty then s.delReq n else holdPending n s

/-- A group that no violation may reach now: it is evicted, and its poison is found once it has been restored. DESIGN CHOICE, log 103. -/
def awaitsSlot (s : State) (gid : Nat) : Bool :=
  match Tab.get? s.groups gid with
  | some { place := .evicted _, frozen := false, .. } => true
  | _ => false

/-- Poisoned data freezes the group of a request (R210, R389), once it is resident; `ends` is what becomes of the instruction's requests. -/
def poisonStop (r : Req) (detail : Nat) (lanes : LaneSet) (addr : DWord) (ends : State → State) (s : State) : State :=
  if awaitsSlot s r.group then s else freeze r.site 0x23 detail lanes addr (ends s)

/-- A word that an atomic with a result, FEGET or FESET has still to perform. -/
def ReqKind.joint : ReqKind → Bool
  | .atomic _ _ _ _ _ reg => reg.isSome
  | .fe k _ _ _ _ _ w => !feWaits k && w == .flying
  | _ => false

/-- Requests of the same instruction as a request, with their numbers: of one that has a result no other issue set is in flight (R63). DEDUCED, log 112. -/
def siblings (s : State) (r : Req) : List (Nat × Req) :=
  s.reqs.filter (fun e => e.2.group == r.group && e.2.pc == r.pc && e.2.word == r.word && e.2.time == r.time && e.2.dest == r.dest
    && (e.2.lanes == r.lanes || !r.dest.isEmpty || (match e.2.kind with
      | .atomic _ _ _ _ _ _ => true
      | _ => false)))

/-- A word of an atomic, FEGET or FESET may be performed: its peer answers, and its cluster's earlier stores have reached it (R127). -/
def wordReady (s : State) (e : Nat × Req) : Bool :=
  e.2.kind.spans.all (fun x => peerAnswers s x.1) && !storesAhead s (clusterOf e.2.core) e.1 e.2.kind.spans

/-- Every word of the instruction of a request may be performed: the first is performed only then, since R100 leaves all its lanes without effect where
one raises a cause. DEDUCED, log 112. -/
def allReady (s : State) (r : Req) : Bool := ((siblings s r).filter (fun e => e.2.kind.joint)).all (wordReady s)

/-- The words of an instruction that has passed its last check: each is performed at its slice, in its own time. -/
def markSure (r : Req) (s : State) : State :=
  (siblings s r).foldl (fun s e => if e.2.kind.joint then s.modReq e.1 (fun q => { q with sure := true }) else s) s

/-- What this device answers a Weft peer. -/
def answerPeer (bytes : List Byte) (s : State) : State := { s with host := { s.host with peerReply := bytes } }

/-- The core that stands for the agents of a peer device (log 57). -/
def peerCore : Nat := 768

/-- Lanes of a group that waited at a slice go on at `next` (R136, R142), those outside an open handler only after TRAPRET (R218). -/
def goPast (gid : Nat) (lanes : LaneSet) (next : DWord) (s : State) : State :=
  match Tab.get? s.groups gid with
  | none => s
  | some g => { s.setGroup gid (g.passLanes s.uid lanes next).rechoose with uid := if g.handler then s.uid + 1 else s.uid }

/-- The result of one lane's access lands, the thread of a waiting form moves past the instruction (R136), and an acquire has its effect
(R135, R275). DESIGN CHOICE, log 117. -/
def feLand (r : Req) (kind : FeKind) (lane pa : Nat) (data : DWord) (reg : Nat) (w : DWord) (s : State) : State :=
  let s := s.modGroup r.group (fun g => g.land (feWrites kind lane reg w))
  let s := if feWaits kind then goPast r.group (LaneSet.one lane) r.site.next s else s
  if feAcquires kind data then acquireAt r.core (deviceScope [pa]) false (fun _ => true) s else s

/-- The lanes and addresses at which the reads of a full/empty access meet poison (R384, R389): its own, or, for FEGET, which counts as a load
(R129), and for FESET, which only an absent peer poisons, those of every lane that has still to be performed, since R100 leaves all of them without
effect; none once the instruction has passed that check. -/
def fePoisoned (s : State) (r : Req) (kind : FeKind) (lane : Nat) (va : DWord) (pa : Nat) : List (Nat × DWord) :=
  match kind with
  | .ldw | .ldc => if s.poisoned pa 8 then [(lane, va)] else []
  | .feget | .feset => if r.sure then [] else (siblings s r).filterMap (fun e => match e.2.kind with
    | .fe .feget l a p _ _ _ => if s.broken p 8 then some (l, a) else none
    | .fe .feset l a p _ _ _ => if !peerPresent s p then some (l, a) else none
    | _ => none)
  | _ => []

/-- One lane's access is performed at its slice: request `n` ends, the word and its bit change, and the result lands, unless the group is halted
and waits for it: then the wake is recorded (R230). A word that reads as poisoned freezes the group (R210). DEDUCED, log 19. DEDUCED, log 22. -/
def fePerform (n : Nat) (r : Req) (kind : FeKind) (lane : Nat) (va : DWord) (pa : Nat) (data : DWord) (reg : Nat) (w : Watch)
    (s : State) : State :=
  match fePoisoned s r kind lane va pa with
  | x :: t =>
    poisonStop r 0 (LaneSet.of ((x :: t).map (fun y => y.1))) x.2 (fun s =>
      if feWaits kind then endRequest n r (freeWatch r.launch w s) else (siblings s r).foldl (fun s e => endRequest e.1 e.2 s) s) s
  | [] =>
    let seen := if kind == .ldw || kind == .ldc then staleUntil s pa (s.bytes pa 8) else 0
    let s := freeWatch r.launch w (noteRead r.group (LaneSet.one lane) [] seen s)
    let done := completionOf s pa
    let out := feEffect r.team kind va pa data s
    let s := dropOwn r.core pa out.2.1
    let s := match kind with
      | .stf => residue { r with lanes := LaneSet.one lane } done false (aperture pa == 1) s
      | _ => s
    let halted := (match Tab.get? s.groups r.group with
      | some g => g.halted
      | none => false)
    if r.core = peerCore then answerPeer (leBytes 8 out.1.toNat) (s.delReq n)
    else if halted && feWaits kind then s.modReq n (fun q => { q with kind := .fe kind lane va pa data reg (.done out.1) })
    else feLand r kind lane pa data reg out.1 (s.delReq n)

/-- What was recorded for a halted group is acted on after its resume (R230): WAITs and barrier waits that have ended, full/empty lanes that have
been performed. -/
def actWakes (gid : Nat) (s : State) : State :=
  match Tab.get? s.groups gid with
  | none => s
  | some g =>
    let s1 := g.blocks.foldl (fun s b => match b.2.woken, b.2.kind with
      | some r, .wait _ _ _ _ => finishWait gid b.1 r s
      | some r, .bar _ _ dest => s.modGroup gid (fun x => ((x.goOn b.1).setG dest r).rechoose)
      | _, _ => s) s
    s1.reqs.foldl (fun s e =>
      if e.2.group = gid then
        match e.2.kind with
        | .fe k l _ pa data reg (.done w) => feLand e.2 k l pa data reg w (s.delReq e.1)
        | _ => s
      else s) s1

/-! ### Park records (R257, R258) -/

/-- KIND of a park record. -/
def parkKind : FeKind → Nat
  | .ldw => 1
  | .ldc => 2
  | _ => 3

/-- A park record of a full/empty lane. -/
def feRecord (g : Group) (kind : FeKind) (lane pa : Nat) (data : DWord) : Nat :=
  pa + parkKind kind * 2 ^ 48 + (if kind == .stf then 0 else 2 ^ 51) + g.core * 2 ^ 64 + g.seat * 2 ^ 80 + lane * 2 ^ 96
    + (if kind == .stf then data.toNat else 0) * 2 ^ 128

/-- A park record of a WAIT condition. -/
def waitRecord (g : Group) (entry : Nat) (e : WaitEntry) : Nat :=
  let k1 := e.kind == 1
  e.pa + (if k1 then 4 else 5) * 2 ^ 48 + (if !k1 && e.value.getLsbD 0 then 2 ^ 51 else 0) + g.core * 2 ^ 64 + g.seat * 2 ^ 80
    + entry * 2 ^ 102
    + (if k1 then e.value.toNat * 2 ^ 128 + e.cmp * 2 ^ 192 + (if e.size8 then 2 ^ 195 else 0) else 0)

/-- The lowest free record of a pool, from `i`, among `fuel` records. -/
def lowestFree (s : State) (l : Launch) : Nat → Nat → Option Nat
  | 0, _ => none
  | fuel + 1, i => if s.read (l.parkRecord i + 6) 1 % 8 = 0 then some i else lowestFree s l fuel (i + 1)

/-! ### Waiting accesses and their waking (R256, R258) -/

/-- An access, or an entry of a WAIT, that a slice holds. -/
inductive Waiter where
  | fe (req : Nat)
  | cond (group block entry : Nat)
deriving DecidableEq, Repr

/-- Insert by rank. -/
def insertRank {α : Type} (k : Nat × Nat × Nat) (x : α) : List ((Nat × Nat × Nat) × α) → List ((Nat × Nat × Nat) × α)
  | [] => [(k, x)]
  | (k', y) :: t =>
    if k.1 < k'.1 ∨ (k.1 = k'.1 ∧ (k.2.1 < k'.2.1 ∨ (k.2.1 = k'.2.1 ∧ k.2.2 < k'.2.2))) then (k, x) :: (k', y) :: t
    else (k', y) :: insertRank k x t

/-- The waiting accesses of a sector in the order in which the slice tests them. -/
def waitersOf (s : State) (sector : Nat) : List Waiter :=
  let fes := s.reqs.filterMap (fun e => match e.2.kind with
    | .fe _ _ _ pa _ _ w => if pa / 64 = sector then (w.rank e.2.launch).map (fun k => (k, Waiter.fe e.1)) else none
    | _ => none)
  let conds := s.groups.flatMap (fun e => e.2.blocks.flatMap (fun b => match b.2.kind with
    | .wait es _ _ _ => es.zipIdx.filterMap (fun x =>
        if x.1.ofMemory && x.1.pa / 64 == sector then (x.1.watch.rank e.2.launch).map (fun k => (k, Waiter.cond e.1 b.1 x.2)) else none)
    | _ => []))
  ((fes ++ conds).foldl (fun acc x => insertRank x.1 x.2 acc) []).map (fun x => x.2)

/-- A lower lane of the same instruction has still to be performed on the word: the lanes go in order (R136). -/
def feBehind (s : State) (n : Nat) (r : Req) (lane pa : Nat) : Bool :=
  s.reqs.any (fun e => e.1 != n && e.2.group == r.group && e.2.pc == r.pc && e.2.lanes == r.lanes && e.2.time == r.time
    && (match e.2.kind with
      | .fe _ _ _ _ _ _ (.done _) => false
      | .fe _ l _ q _ _ _ => decide (l < lane) && q / 8 == pa / 8
      | _ => false))

/-- Test one waiter: the state after, if its access is performed or its WAIT ends. -/
def tryWaiter (s : State) : Waiter → Option State
  | .fe n =>
    match Tab.get? s.reqs n with
    | some r =>
      match r.kind with
      | .fe kind lane va pa data reg w =>
        tryHeld r.launch pa w (fun _ =>
          if feReady s kind pa && !feBehind s n r lane pa && !(awaitsSlot s r.group && !(fePoisoned s r kind lane va pa).isEmpty) then
            some (fePerform n r kind lane va pa data reg w s)
          else none) s
      | _ => none
    | none => none
  | .cond g b k =>
    match Tab.get? s.groups g with
    | some x =>
      (match Tab.get? x.blocks b with
      | some { kind := .wait es _ _ _, .. } =>
        (match es[k]? with
        | some e => tryHeld x.launch e.pa e.watch (fun _ => retryWait g b s) s
        | none => none)
      | _ => none)
    | none => none

/-- One test of a sector's monitors and records, in order; whether any was performed. -/
def wakePass (sector : Nat) (s : State) : State × Bool :=
  (waitersOf s sector).foldl (fun acc w => match tryWaiter acc.1 w with
    | some s' => (s', true)
    | none => acc) (s, false)

/-- Tests until one performs nothing: an access performed in a test changes its word and is itself followed by a test. -/
def wakeLoop : Nat → Nat → State → State
  | 0, _, s => s
  | fuel + 1, sector, s =>
    match wakePass sector s with
    | (s', true) => wakeLoop fuel sector s'
    | (s', false) => s'

/-- A write, fill or emptying of a word: the slice tests the sector's monitors and records, and clears the watch bit when no
record is left (R258). -/
def wake (pa : Nat) (s : State) : State :=
  let sector := pa / 64
  let s1 := wakeLoop ((waitersOf s sector).length + 1) sector s
  clearWatch sector s1

/-- Monitors in use at a slice besides those reserved to gates (R256). -/
def monitorsAt (s : State) (slice : Nat) : Nat :=
  let isMon := fun (w : Watch) => match w with
    | .monitor _ => true
    | _ => false
  s.reqs.countP (fun e => match e.2.kind with
    | .fe _ _ _ pa _ _ w => isMon w && aperture pa == 0 && homeSlice pa == slice
    | _ => false)
  + (s.groups.map (fun e => (e.2.blocks.map (fun b => match b.2.kind with
    | .wait es _ _ _ => es.countP (fun x => isMon x.watch && aperture x.pa == 0 && homeSlice x.pa == slice)
    | _ => 0)).sum)).sum

/-- A gate takes one of the 64 gate monitors of a slice of this device (R341), and how many are in use. -/
def Gate.monitorAt (slice : Nat) (g : Gate) : Bool :=
  !g.resolved && aperture g.pa == 0 && homeSlice g.pa == slice && (match g.watch with
    | .monitor _ => true
    | _ => false)
def gateMonitorsAt (s : State) (slice : Nat) : Nat := (s.launches.map (fun e => e.2.gates.countP (Gate.monitorAt slice))).sum

/-- How a waiting access is held (R136, R256, R259): by a monitor; by a park record, given its contents; polled; or by nothing,
when the pool is full. A peer word is held at its own device. -/
def holdWaiter (launch pa record : Nat) (s : State) : State × Option Watch :=
  let l := s.launch launch
  if aperture pa = 1 then ({ s with uid := s.uid + 1 }, some (.monitor s.uid))
  else if monitorsAt s (homeSlice pa) < 192 ∧ !NatSet.mem s.watched (pa / 64) then ({ s with uid := s.uid + 1 }, some (.monitor s.uid))
  else if l.parksz = 0 then (s, some (.polled (s.time + 256 * refTick)))
  else
    match lowestFree s l (l.parksz / 32) 0 with
    | some i =>
      let s1 := s.write (l.parkRecord i) 32 record
      ({ s1 with watched := NatSet.ins s1.watched (pa / 64) }, some (.parked i))
    | none => (s, none)

/-- A group has a lane that is parked or polled (R25). -/
def hasParked (s : State) (gid : Nat) : Bool :=
  s.reqs.any (fun e => e.2.group == gid && (match e.2.kind with
    | .fe _ _ _ _ _ _ (.parked _) | .fe _ _ _ _ _ _ (.polled _) => true
    | _ => false))

/-- A group is at a blocking point (R25); lanes that monitors alone hold do not keep it from one. DESIGN CHOICE, log 104. -/
def State.blocked (s : State) (gid : Nat) (g : Group) : Bool := g.atBlockingPoint (hasParked s gid)

/-- A cause found after issue (R137, R142, R135): it is taken for the threads `hset`, whose PCs stand at the instruction, and the
next issue set is chosen. -/
def lateCause (r : Req) (c : Cause) (hset : LaneSet) (s : State) : State :=
  let s1 := s.modGroup r.group (fun g => g.modLanes hset (fun _ t => { t with wait := .run }))
  (takeCause r.site c hset s1).modGroup r.group (fun g => if g.frozen then g else g.choose)

/-- The requests of one full/empty instruction whose lanes still wait, with their lanes. -/
def feSiblings (s : State) (r : Req) : List (Nat × Nat) :=
  s.reqs.filterMap (fun e =>
    if e.2.group = r.group ∧ e.2.pc = r.pc ∧ e.2.lanes = r.lanes ∧ e.2.time = r.time then
      match e.2.kind with
      | .fe _ _ _ _ _ _ (.done _) => none
      | .fe k l _ _ _ _ _ => if feWaits k then some (e.1, l) else none
      | _ => none
    else none)

/-- Withdraw every lane of a full/empty instruction that still waits (R137). -/
def withdrawSiblings (r : Req) (s : State) : State :=
  (feSiblings s r).foldl (fun s e => match Tab.get? s.reqs e.1 with
    | some q => (match q.kind with
      | .fe _ _ _ _ _ _ w => (freeWatch q.launch w s).delReq e.1
      | _ => s)
    | none => s) s

/-- fe_timeout or park_exhausted on some lanes of a full/empty instruction: every lane still waiting is withdrawn and goes to the
handler, and TRAPLANES names the lanes given (R137); the group then halts at TRAPVEC under SSTEP (R231). -/
def feStop (r : Req) (why : Why) (lanes : List Nat) (va : DWord) (s : State) : State :=
  let hset := LaneSet.of ((feSiblings s r).map (fun e => e.2))
  stepHalt r.group (lateCause r { why := why, detail := 0, lanes := LaneSet.of lanes, addr := va } hset (withdrawSiblings r s))

/-- The budget of a waiting lane has run out (R137, R161). -/
def budgetOver (s : State) (g : Group) (r : Req) (lane : Nat) : Bool :=
  let b := (g.thread lane).febudget.toNat
  b != 0 && decide (r.time + b * refTick ≤ s.time)

/-- A timeout of an evicted group has fallen due (R225): of a blocked WAIT, or of a waiting F/E lane. -/
def timerDue (s : State) (gid : Nat) (g : Group) : Bool :=
  g.blocks.any (fun b => match b.2.kind with
    | .wait _ _ (some t) _ => decide (t ≤ s.time)
    | _ => false)
  || s.reqs.any (fun e => e.2.group == gid && (match e.2.kind with
    | .fe _ _ _ _ _ _ (.done _) => false
    | .fe k l _ _ _ _ _ => feWaits k && budgetOver s g e.2 l
    | _ => false))

/-! ### What releases wait for (R271, R272) -/

/-- A request has writes to be performed. -/
def ReqKind.writes : ReqKind → Bool
  | .store ps => !ps.isEmpty
  | .atomic _ _ _ _ _ _ | .append _ _ _ _ _ _ | .seal _ _ | .stfs _ | .commit _ _ _ => true
  | .fe k _ _ _ _ _ _ => k == .feset
  | _ => false

/-- The writes of a request are done as far as a release at a scope of the device or wider asks: performed, their completion time
passed and, at .sys, acknowledged. -/
def Req.released (r : Req) (time scope : Nat) : Bool :=
  !r.kind.writes && decide (r.notBefore ≤ time) && (scope != 5 || (!r.hostAck && !r.peerAck))

/-- A request is done as far as a FENCE at a scope of the device or wider asks: a store to a peer or to the host is drained toward its
link, and only at .sys is its acknowledgement awaited (R271, R286). -/
def Req.drained (r : Req) (time scope : Nat) : Bool :=
  r.released time scope || (scope != 5 && decide (r.notBefore ≤ time) && (match r.kind with
    | .store ps => ps.all (fun x => aperture x.pa == 1 || aperture x.pa == 3)
    | _ => false))

/-- A request that the shared caches of the core and the cluster show as it issues (R270): a plain store. Every other write is seen from its home
alone. -/
def ReqKind.seenEarly : ReqKind → Bool
  | .store _ => true
  | _ => false

/-- The writes of a request are where a release at a scope asks them to be (R271, R274): below .die a plain store has reached the visibility point as it
issues, and any other write must have been performed. -/
def Req.visibleAt (r : Req) (time scope : Nat) : Bool := if scope < 3 then !r.kind.writes || r.kind.seenEarly else r.drained time scope

/-- A request carries accesses of some of these threads: it is theirs, or a commit that holds their logged stores (R281). -/
def Req.ofThreads (r : Req) (gid : Nat) (lanes : LaneSet) : Bool :=
  (r.group == gid && r.lanes &&& lanes != 0#64) || Tab.getD r.others gid 0#64 &&& lanes != 0#64

/-- Every Loom command that these threads issued has retired (R317); and those of them that read global memory (R271). -/
def loomsDone (s : State) (gid : Nat) (lanes : LaneSet) : Bool :=
  s.looms.all (fun e => e.2.group != gid || e.2.lanes &&& lanes == 0#64)
def loomReadsDone (s : State) (gid : Nat) (lanes : LaneSet) : Bool :=
  s.looms.all (fun e => e.2.group != gid || e.2.lanes &&& lanes == 0#64 || (match e.2.op with
    | .loadb _ _ _ _ | .loop _ _ _ _ _ _ _ => false
    | _ => true))

/-- Every write whose value these threads have read before it was performed, in a cache or in their team's log, is where a scope asks it to be (R272), and
from .die on what they have read has left every cache. -/
def earlyDone (s : State) (gid : Nat) (lanes : LaneSet) (scope : Nat) : Bool :=
  match Tab.get? s.groups gid with
  | none => true
  | some g => (LaneSet.toList lanes).all (fun l => (decide (scope < 3) || decide ((g.thread l).seen ≤ s.time))
      && (g.thread l).early.all (fun n =>
        match Tab.get? s.reqs n with
        | some r => r.visibleAt s.time scope
        | none => true))

end Sys2Proof.Machine
end

