-- ==== Sys2Proof/Machine/Tensors.lean ====
section
/-! DEFINITION. Tensor table entries and ladders (spec/16 R293 to R299). -/

namespace Sys2Proof.Machine

/-! ### Fields of a tensor table entry (R293) -/

abbrev Tensor := BitVec 512

def tBase (t : Tensor) : Nat := bitsAt t 0 64
def tSeed (t : Tensor) : DWord := t.extractLsb' 64 64
def tScales (t : Tensor) : Nat := bitsAt t 128 64
def tBands (t : Tensor) : Nat := bitsAt t 192 64
def tRows (t : Tensor) : Nat := bitsAt t 256 32
def tCols (t : Tensor) : Nat := bitsAt t 288 32
def tStride (t : Tensor) : Nat := bitsAt t 320 32
def tSstride (t : Tensor) : Nat := bitsAt t 352 32
def tElem (t : Tensor) : Nat := bitsAt t 384 4
def tScaling (t : Tensor) : Nat := bitsAt t 388 2
def tValid (t : Tensor) : Bool := t.getLsbD 391

/-- Bits of an element by its code (R294). -/
def elemBits (e : Nat) : Nat :=
  if e ≤ 1 then 16 else if e ≤ 3 ∨ e = 7 then 8 else if e ≤ 5 then 6 else if e = 6 then 4 else 32

/-- SCALING is allowed for ELEM (R294). -/
def scalingAllowed (e sc : Nat) : Bool :=
  if e ≤ 1 then sc == 0
  else if e ≤ 5 ∨ e = 7 then decide (sc ≤ 1)
  else if e = 6 then decide (sc ≤ 2)
  else if e = 14 ∨ e = 15 then sc == 0
  else false

/-- Bytes of one row (R77). -/
def rowBytes (t : Tensor) : Nat := (tCols t * elemBits (tElem t) + 7) / 8

/-- An entry with VALID 1 is malformed (R296). ROWS and COLS of 0, and BANDS other than 0 outside BSF4, break R293's own words
for those fields and count as malformed too (log 21). -/
def tensorBad (t : Tensor) : Bool :=
  let e := tElem t
  let sc := tScaling t
  t.getLsbD 390 || bitsAt t 392 120 != 0 || !scalingAllowed e sc || tRows t == 0 || tCols t == 0
    || decide (tStride t < rowBytes t) || tStride t % 8 != 0 || tBase t % 8 != 0 || (elemBits e == 6 && tCols t % 4 != 0)
    || (sc == 0 && (tScales t != 0 || tSstride t != 0 || tBands t != 0))
    || (sc == 1 && (tCols t % 32 != 0 || tScales t == 0 || decide (tSstride t < tCols t / 32) || tBands t != 0))
    || (sc == 2 && (tCols t % 8 != 0 || decide (tSstride t < tCols t / 8) || tBands t == 0 || tBands t % 2 != 0))

/-- Byte offset and bit shift of column `c` in a row (R77, R295): for six-bit elements, of the three-byte group's six-bit slot. -/
def columnAt (e c : Nat) : Nat × Nat :=
  match elemBits e with
  | 16 => (2 * c, 0)
  | 8 => (c, 0)
  | 6 => (3 * (c / 4), 6 * (c % 4))
  | 4 => (c / 2, 4 * (c % 2))
  | _ => (4 * c, 0)

/-- Bytes that hold one element from its column's byte offset. -/
def elemSpan (e : Nat) : Nat :=
  match elemBits e with
  | 16 => 2
  | 8 => 1
  | 6 => 3
  | 4 => 1
  | _ => 4

/-- The address of an element's bytes (R295), modulo 2^64. -/
def elemVa (t : Tensor) (r c : Nat) : Nat := (tBase t + r * tStride t + (columnAt (tElem t) c).1) % 2 ^ 64
/-- The bytes of the elements of a row from column `c1` to `c2`, as an address and a length. -/
def rowRange (t : Tensor) (r c1 c2 : Nat) : Nat × Nat :=
  (elemVa t r c1, (columnAt (tElem t) c2).1 + elemSpan (tElem t) - (columnAt (tElem t) c1).1)
/-- The code of an element from the bytes at its address. -/
def elemCode (t : Tensor) (c : Nat) (bytes : Nat) : Nat := bytes / 2 ^ (columnAt (tElem t) c).2 % 2 ^ elemBits (tElem t)
/-- The address of the block scale of an element (R295). -/
def scaleVa (t : Tensor) (r c : Nat) : Nat := (tScales t + r * tSstride t + c / (if tScaling t = 1 then 32 else 8)) % 2 ^ 64
/-- Columns that share a block scale. -/
def scaleSpan (t : Tensor) : Nat := if tScaling t = 1 then 32 else 8
/-- The block scales of a row from column `c1` to `c2`, as an address and a length. -/
def scaleRange (t : Tensor) (r c1 c2 : Nat) : Nat × Nat :=
  (scaleVa t r c1, c2 / scaleSpan t - c1 / scaleSpan t + 1)
/-- The address of the band scale of a row (R295). -/
def bandVa (t : Tensor) (r : Nat) : Nat := (tBands t + 2 * (r / 64)) % 2 ^ 64

/-! ### Ladders (R298, R299) -/

abbrev Ladder := BitVec 1024
abbrev Rung := BitVec 128

def ladderValid (l : Ladder) : Bool := l.getLsbD 0
def ladderTop (l : Ladder) : Nat := bitsAt l 1 2
def ladderRung (l : Ladder) (r : Nat) : Rung := l.extractLsb' (128 + 128 * r) 128
def rungAten (r : Rung) : Nat := bitsAt r 0 8
def rungBten (r : Rung) : Nat := bitsAt r 8 8
def rungRmon (r : Rung) : Bool := r.getLsbD 16
def rungCmon (r : Rung) : Bool := r.getLsbD 17
def rungEhi (r : Rung) : Int := (r.extractLsb' 24 8).toInt
def rungRcount (r : Rung) : Nat := bitsAt r 32 16
def rungCbits (r : Rung) : Nat := bitsAt r 48 5
def rungCcount (r : Rung) : Nat := bitsAt r 64 32

/-- A rung with a reserved bit set, or with CMON 1 and CBITS 0 (R299). -/
def rungBad (r : Rung) : Bool :=
  bitsAt r 18 6 != 0 || bitsAt r 53 11 != 0 || bitsAt r 96 32 != 0 || (rungCmon r && rungCbits r == 0)

/-- A ladder with VALID 1 is malformed (R299). -/
def ladderBad (l : Ladder) : Bool :=
  bitsAt l 3 125 != 0 || bitsAt l 640 384 != 0
    || (List.range 4).any (fun k => rungBad (ladderRung l k) || (decide (ladderTop l < k) && ladderRung l k != 0#128))

end Sys2Proof.Machine
end

