-- ==== Sys2Proof/Machine/Launches.lean ====
section
/-! DEFINITION. The dispatcher (spec/18 R331 to R363, spec/01 R9 to R12, R20, R24, spec/12 R235 to R242): page-table walks, card
checks, leases, gates, buckets, placement, replays, the quiet tree, launch completion and kill. A completion word in the on-chip
aperture is written by the function that each operation takes as `out`, given the CTXID of the launch. -/

namespace Sys2Proof.Machine

/-! ### Page tables (R236 to R239) -/

/-- A leaf found by a walk: PA of its entry, its level and the entry. -/
structure Leaf where
  pte : Nat
  level : Nat
  entry : Nat
deriving DecidableEq, Repr

/-- How a walk ends. -/
inductive WalkEnd where
  | leaf (l : Leaf)
  /-- An entry with V = 0 at a level. -/
  | absent (pte level : Nat)
  | malformed
deriving DecidableEq, Repr

/-- Bit position and width of the index at a level (R236). -/
def levelShift (level : Nat) : Nat :=
  match level with
  | 0 => 48
  | 1 => 39
  | 2 => 30
  | 3 => 21
  | _ => 16
def levelBits (level : Nat) : Nat :=
  match level with
  | 0 => 8
  | 4 => 5
  | _ => 9

/-- Bytes of a page by the level of its leaf (R236). -/
def pageSize (level : Nat) : Nat := 2 ^ levelShift level

/-- PA of a page's frame (R238). -/
def Leaf.frame (l : Leaf) : Nat := l.entry / 2 ^ 16 % 2 ^ 32 * 2 ^ 16
def Leaf.append (l : Leaf) : Bool := l.entry.testBit 2
def Leaf.qc (l : Leaf) : Nat := l.entry / 2 ^ 3 % 4
def Leaf.key (l : Leaf) : Nat := l.entry / 2 ^ 5 % 32

/-- A leaf entry is malformed (R239). -/
def leafBad (s : State) (priv level e : Nat) : Bool :=
  let frame := e / 2 ^ 16 % 2 ^ 32 * 2 ^ 16
  e / 2 ^ 12 % 16 != 0 || e / 2 ^ 48 != 0 || decide (level ≤ 1) || frame % pageSize level != 0
    || (aperture frame == 0 && !s.populated (frame + pageSize level - 1)) || (aperture frame == 2 && priv == 0)
    || (e.testBit 2 && (level == 2 || aperture frame != 0))

/-- A pointer entry at a level is malformed (R237, R239). DEDUCED, log 102. -/
def pointerBad (level e : Nat) : Bool :=
  let next := e / 2 ^ 8 % 2 ^ 40 * 2 ^ 8
  e / 4 % 64 != 0 || e / 2 ^ 48 != 0 || level == 4 || next % (8 * 2 ^ levelBits (level + 1)) != 0 || decide (2 ^ 39 ≤ next)

/-- Walk from the table at `table` of a level, with `fuel` levels left. -/
def walkFrom (s : State) (priv va : Nat) : Nat → Nat → Nat → WalkEnd
  | 0, _, _ => .malformed
  | fuel + 1, level, table =>
    let pte := table + 8 * (va / 2 ^ levelShift level % 2 ^ levelBits level)
    let e := s.read pte 8
    if !e.testBit 0 then .absent pte level
    else if e.testBit 1 then (if leafBad s priv level e then .malformed else .leaf { pte := pte, level := level, entry := e })
    else if pointerBad level e then .malformed
    else walkFrom s priv va fuel (level + 1) (e / 2 ^ 8 % 2 ^ 40 * 2 ^ 8)

/-- Walk a virtual address in a context (R236). -/
def walk (s : State) (ctx priv va : Nat) : WalkEnd := walkFrom s priv va 5 0 (s.read ctx 8)

/-- Fields of a context descriptor (R235, R332). -/
def ctxKeymax (s : State) (ctx : Nat) : DWord := BitVec.ofNat 64 (s.read (ctx + 8) 8)
def ctxId (s : State) (ctx : Nat) : Nat := s.read (ctx + 0x10) 2
def ctxDebug (s : State) (ctx : Nat) : Bool := (s.read (ctx + 0x12) 1).testBit 0
def ctxPrivOk (s : State) (ctx : Nat) : Bool := (s.read (ctx + 0x12) 1).testBit 1

/-- An 8-byte word read through a context's tables, under its KEYMAX (R338); none where it is poison, or at a peer that gives no answer (R384, R389).
DESIGN CHOICE, log 126. -/
def ctxRead8 (s : State) (ctx va : Nat) : Option Nat :=
  if !canonical va then none
  else
    match walk s ctx 1 va with
    | .leaf l =>
      let pa := l.frame + va % pageSize l.level
      if (ctxKeymax s ctx).getLsbD (2 * l.key) && !s.unreadable pa 8 then some (s.read pa 8) else none
    | _ => none

/-- `n` 8-byte words read through a context's tables, as one value. -/
def ctxRead (s : State) (ctx va : Nat) : Nat → Option Nat
  | 0 => some 0
  | n + 1 =>
    match ctxRead8 s ctx va, ctxRead s ctx (va + 8) n with
    | some x, some y => some (x + 2 ^ 64 * y)
    | _, _ => none

/-! ### Declared ranges and the card's checks (R11, R240) -/

/-- A range list entry, and whether it is well formed (R240). -/
def parseRange (x : Nat) : DeclRange :=
  { base := BitVec.ofNat 64 x, len := BitVec.ofNat 64 (x / 2 ^ 64), rd := x.testBit 128, wr := x.testBit 129, fetch := x.testBit 130 }
def rangeBad (x : Nat) : Bool :=
  let r := parseRange x
  let last := r.base.toNat + r.len.toNat - 1
  r.len == 0#64 || !(r.rd || r.wr || r.fetch) || x / 2 ^ 131 % 2 ^ 125 != 0 || !canonical r.base.toNat || decide (2 ^ 64 ≤ last)
    || !canonical last

/-- Bytes [va, va + n) lie wholly inside the declared ranges. -/
def insideRanges (rs : List DeclRange) : Nat → Nat → Nat → Bool
  | 0, _, n => n == 0
  | fuel + 1, va, n =>
    if n = 0 then true
    else
      match rs.find? (fun r => decide (r.base.toNat ≤ va ∧ va < r.base.toNat + r.len.toNat)) with
      | none => false
      | some r =>
        let k := r.base.toNat + r.len.toNat - va
        insideRanges rs fuel (va + k) (n - k)

/-- Registers and local store that one group charges (R24). -/
def laneCharge (l : Launch) : Nat := l.width * (8 * ((l.vregs + 7) / 8)) * 4
def gregCharge (l : Launch) : Nat := 16 * ((l.gregs + 15) / 16) * 4
/-- Groups of a team on its core, or on the even and the odd core of its pair (R7). -/
def Launch.evenGroups (l : Launch) : Nat := if l.pair then (l.gpt + 1) / 2 else l.gpt
def Launch.oddGroups (l : Launch) : Nat := if l.pair then l.gpt / 2 else 0

/-- One team fits on an empty core or pair (R11, R24). -/
def fitsEmpty (l : Launch) : Bool :=
  let n := l.evenGroups
  decide (n ≤ 16) && decide (n * laneCharge l ≤ 262144) && decide (n * gregCharge l ≤ 8192)
    && decide (l.scratch * 4096 + 32768 + l.ovmin * 32768 ≤ 393216)

/-- The offsets of the conditions that a card fails (R9 to R11, R332, R338). `rs` are the well-formed entries of its range list, none where the list
cannot be read: then 0x18 is reported, and no pointer is held against it. `malformed` says that another entry is malformed. Whether a team fits is asked
only where the fields that R11 names meet its other conditions, each alone and jointly: `joint` is those of FLAGS that are reported elsewhere, and a
thread-stack region outside the ranges is none of them. DESIGN CHOICE, log 144. -/
def cardFaults (l : Launch) (rs : Option (List DeclRange)) (malformed privOk : Bool) : List Nat :=
  let f := fun (lo w : Nat) => bitsAt l.card lo w
  let bad := fun (off : Nat) (b : Bool) => if b then [off] else []
  let ptr := fun (off va align n : Nat) => bad off (va % align != 0 || (match rs with
    | some r => !insideRanges r (r.length + 1) va n
    | none => false))
  let wcode := f 64 8
  let heat := l.heat
  let vregs := l.vregs
  let gregs := l.gregs
  let width := 16 * 2 ^ min wcode 2
  let own :=
    ptr 0x00 (f 0 64) 4 4 ++ bad 0x08 (decide (2 < wcode)) ++ bad 0x09 (decide (3 < heat))
    ++ bad 0x0A (f 88 8 != 0 || decide (1 < l.priv) || (l.pair && decide (2 ≤ heat)) || (l.priv == 1 && !privOk))
    ++ bad 0x0C (vregs == 0 || decide (112 < vregs)) ++ bad 0x0D (decide (gregs < 16) || decide (64 < gregs))
    ++ bad 0x0E (l.gpt == 0 || decide ((if l.pair then 32 else 16) < l.gpt))
    ++ bad 0x0F (l.nranges == 0 || decide (64 < l.nranges))
    ++ bad 0x10 (l.nteams == 0 || (l.det && l.nteams != l.nlog * l.nwaves))
    ++ bad 0x14 (if l.det then l.nlog == 0 || decide ((if 2 ≤ heat then 384 else 768) < l.nlog) else l.nlog != 0)
    ++ bad 0x16 (if l.det then l.nwaves == 0 else l.nwaves != 0)
    ++ ptr 0x18 (f 192 64) 8 (32 * l.nranges)
    ++ (if l.ttab = 0 then [] else ptr 0x20 l.ttab 64 16384)
    ++ (if f 320 64 = 0 then [] else bad 0x28 (!l.spec) ++ ptr 0x28 (f 320 64) 64 1024)
    ++ bad 0x30 (decide (80 < l.scratch)) ++ bad 0x31 (decide (352 < l.scratch * 4 + l.ovmin * 32))
    ++ bad 0x32 (decide (11 < l.ovmax) || decide (l.ovmax < l.ovmin)) ++ bad 0x33 (f 408 8 != 0)
    ++ bad 0x34 (l.parksz % 32 != 0) ++ (if l.parksz = 0 then bad 0x38 (l.park != 0) else ptr 0x38 l.park 32 l.parksz)
    ++ (if l.stksz = 0 then bad 0x40 (l.stack % 8 != 0) ++ bad 0x48 (l.stack != 0)
        else ptr 0x40 l.stack 8 (12288 * width * l.stksz) ++ bad 0x48 (l.stksz % 8 != 0 || decide (4096 < l.stksz)))
    ++ bad 0x4A (f 592 48 != 0)
    ++ (if f 640 64 = 0 then [] else ptr 0x50 (f 640 64) 8 8) ++ (if f 704 64 = 0 then [] else ptr 0x58 (f 704 64) 8 8)
    ++ ptr 0x60 l.compw 8 8 ++ ptr 0x70 (f 896 64) 8 64 ++ bad 0x78 (!l.det && f 960 64 != 0)
    ++ bad 0x18 (malformed || rs.isNone)
  let joint := (if l.det then l.nlog == 0 || l.nwaves == 0 else l.nlog != 0 || l.nwaves != 0 || f 960 64 != 0) || (f 320 64 != 0 && !l.spec)
  if joint || [0x08, 0x0A, 0x0C, 0x0D, 0x0E, 0x30, 0x31, 0x32].any (fun o => own.contains o) then own
  else own ++ bad 0x0E (!fitsEmpty l)

/-- The least of a list. -/
def leastOf : List Nat → Option Nat
  | [] => none
  | x :: t =>
    match leastOf t with
    | none => some x
    | some y => some (min x y)

/-! ### The completion word and the ring entry (R334, R354, R355) -/

/-- Write an 8-byte word and set it full (R255, R354); `out` writes the on-chip aperture. -/
def writeWord (out : Nat → List Byte → State → State) (pa : Nat) (v : DWord) (s : State) : State :=
  let bytes := leBytes 8 v.toNat
  match aperture pa with
  | 2 => out pa bytes s
  | 3 => s.poke pa bytes
  | _ => wake pa (resolveGates pa ((s.poke pa bytes).setFull pa true))

/-- Write a completion word of the dispatcher; to a peer that gives no answer it is dropped, with record 0x45 (R384). -/
def completionWord (out : Nat → Nat → List Byte → State → State) (ctx launch pa : Nat) (v : DWord) (s : State) : State :=
  if peerAnswers s pa then writeWord (out (ctxId s ctx)) pa v s else faultRecord ctx (dispatcherRecord 0x45 launch (peerOf pa) pa s) s

/-- Write STATE, FAIL, OFFSET and the launch number of a ring entry (R334), a write of memory as any other (R258). -/
def ringState (ring : Nat) (state fail offset launch : Nat) (s : State) : State :=
  wake ring (s.poke (ring + 0x10) (leBytes 8 (state + fail * 2 ^ 8 + offset * 2 ^ 16 + launch % 2 ^ 32 * 2 ^ 32)))

/-- The completion value of a failure (R355). -/
def failValue (fail offset : Nat) : DWord := BitVec.ofNat 64 (2 ^ 63 + fail * 256 + offset)

/-- Where a card comes from (R335 to R337, R339). -/
structure Take where
  ctx : Nat
  ring : Option Nat
  hflush : Bool
  qprio : Nat
  parent : Option Nat
  cluster : Option Nat
  card : Nat
  bucket : Bool
deriving DecidableEq, Repr

/-- A refusal, reported in the ring entry or, where there is none and no completion word carried it, in the fault ring (R337,
R338). DEDUCED, log 33. -/
def refuse (t : Take) (launch fail offset : Nat) (carried : Bool) (s : State) : State :=
  match t.ring with
  | some r => ringState r 3 fail offset launch s
  | none =>
    if carried then s
    else faultRecord t.ctx (dispatcherRecord 0x40 launch (failValue fail offset).toNat t.card s) s

/-- PA at which COMPW of an invalid card can carry the failure (R11, R340): inside one well-formed entry that grants WR, and
translated to a word the context's KEYMAX lets it write. -/
def carryPa (s : State) (ctx : Nat) (l : Launch) : Option Nat :=
  let list := bitsAt l.card 192 64
  if l.compw % 8 ≠ 0 ∨ list % 8 ≠ 0 then none
  else
    let entries := (List.range l.nranges).map (fun k => ctxRead s ctx (list + 32 * k) 4)
    if entries.any (fun e => e.isNone) then none
    else if entries.any (fun e => match e with
        | some x =>
          let r := parseRange x
          !rangeBad x && r.wr && decide (r.base.toNat ≤ l.compw) && decide (l.compw + 8 ≤ r.base.toNat + r.len.toNat)
        | none => false) then
      match walk s ctx l.priv l.compw with
      | .leaf f =>
        let pa := f.frame + l.compw % pageSize f.level
        if !f.append && (ctxKeymax s ctx).getLsbD (2 * f.key + 1) && (aperture pa != 2 || l.priv == 1) then some pa else none
      | _ => none
    else none

/-- A card that R11 finds invalid (R11, R355). -/
def refuseCard (out : Nat → Nat → List Byte → State → State) (t : Take) (n : Nat) (l : Launch) (offset : Nat) (s : State) : State :=
  match carryPa s t.ctx l with
  | some pa => refuse t n 0 offset true (completionWord out t.ctx n pa (failValue 0 offset) s)
  | none => refuse t n 0 offset false s

/-! ### The lease walk (R241, R382) -/

/-- A page of the walk. -/
structure Page where
  size : Nat
  pa : Nat
  append : Bool
  qc : Nat
  key : Nat
  rd : Bool
  wr : Bool
  fetch : Bool
  pte : Nat
deriving DecidableEq, Repr

/-- What the walk of the declared ranges finds. -/
inductive Built where
  | pages (ps : Tab Page)
  | invalid
  /-- It waits for a page: size code and address of the residency request. -/
  | waits (size va : Nat)

/-- The words that a waiting access or a condition of a WAIT is held for (R256). -/
def awaited (s : State) : List Nat :=
  s.reqs.filterMap (fun e => match e.2.kind with
    | .fe _ _ _ pa _ _ w => if (w.rank e.2.launch).isSome then some pa else none
    | _ => none)
  ++ s.groups.flatMap (fun e => e.2.blocks.flatMap (fun b => match b.2.kind with
    | .wait es _ _ _ => (es.filter (fun x => x.ofMemory && (x.watch.rank e.2.launch).isSome)).map (fun x => x.pa)
    | _ => []))

/-- Words of memory that a test names have been written: the slices test what waits in their sectors (R258). -/
def wakeWhere (hit : Nat → Bool) (s : State) : State := ((awaited s).filter (fun pa => hit (pa / 64))).foldl (fun s pa => wake pa s) s

/-- Zero a 64 KiB frame with every F/E bit empty (R241). -/
def zeroFrame (pa : Nat) (s : State) : State :=
  let outside := fun (a : Nat) => decide (a < pa) || decide (pa + 0x10000 ≤ a)
  let s1 : State := { s with
    mem := (List.range 0x10000).foldl (fun m k => Sparse.set memDefault m (pa + k) 0#8) (s.mem.filter (fun c => outside c.1))
    full := s.full.filter (fun w => outside (8 * w))
    poison := s.poison.filter (fun w => outside (8 * w)) }
  wakeWhere (fun sector => sector / 1024 == pa / 0x10000) s1

/-- Take a frame of the free list and map it at a missing level 4 entry (R382); none where a request must be sent. -/
def makeResident (ctx pte : Nat) (s : State) : Option State :=
  let freelist := s.read (ctx + 0x30) 8
  let top := s.read (ctx + 0x28) 8 + 0x10
  let n := s.read top 8
  if s.mode.getLsbD 0 ∨ freelist = 0 ∨ n = 0 then none
  else
    let s1 := wake top (s.write top 8 (n - 1))
    let frame := s1.read (freelist + 8 * (n - 1)) 8 / 2 ^ 16 % 2 ^ 32 * 2 ^ 16
    some (wake pte ((zeroFrame frame s1).write pte 8 (frame + 3 * 8 + 3)))

/-- Add the pages of one declared range from `va` (R241 steps 1 to 3). DEDUCED, log 38. -/
def walkRange (ctx priv : Nat) (r : DeclRange) : Nat → Nat → Tab Page → State → Built × State
  | 0, _, ps, s => (.pages ps, s)
  | fuel + 1, va, ps, s =>
    if r.base.toNat + r.len.toNat ≤ va then (.pages ps, s)
    else
      match walk s ctx priv va with
      | .malformed => (.invalid, s)
      | .leaf l =>
        let size := pageSize l.level
        let base := va - va % size
        let p := match Tab.get? ps base with
          | some p => { p with rd := p.rd || r.rd, wr := p.wr || r.wr, fetch := p.fetch || r.fetch }
          | none => { size := size, pa := l.frame, append := l.append, qc := l.qc, key := l.key, rd := r.rd, wr := r.wr,
                      fetch := r.fetch, pte := l.pte }
        walkRange ctx priv r fuel (base + size) (Tab.put ps base p) s
      | .absent pte level =>
        let miss := Built.waits (if level = 4 then 0 else if level = 3 then 1 else 2) (va - va % pageSize (max level 2))
        if level = 4 then
          match makeResident ctx pte s with
          | some s' =>
            match walk s' ctx priv va with
            | .leaf l =>
              let base := va - va % 0x10000
              walkRange ctx priv r fuel (base + 0x10000) (Tab.put ps base
                { size := 0x10000, pa := l.frame, append := false, qc := 3, key := 0, rd := r.rd, wr := r.wr, fetch := r.fetch,
                  pte := pte }) s'
            | _ => (.invalid, s')
          | none => (miss, s)
        else (miss, s)

/-- Add the pages of every declared range. -/
def walkRanges (ctx priv : Nat) : List DeclRange → Tab Page → State → Built × State
  | [], ps, s => (.pages ps, s)
  | r :: rs, ps, s =>
    match walkRange ctx priv r (r.len.toNat / 0x10000 + 2) r.base.toNat ps s with
    | (.pages ps', s') => walkRanges ctx priv rs ps' s'
    | other => other

/-- Two pages join in one extent (R241 step 4). -/
def Extent.joins (e : Extent) (va : Nat) (p : Page) : Bool :=
  e.va + e.len == va && e.pa + e.len == p.pa && e.append == p.append && e.qc == p.qc && e.key == p.key && e.rd == p.rd && e.wr == p.wr
    && e.fetch == p.fetch

/-- The extents of a table of pages, the last first. `fine` also parts append pages of different sizes, whose bounds appends need. DEDUCED, log 32. -/
def extentsOf (fine : Bool) (ps : Tab Page) : List Extent :=
  ps.foldl (fun acc x =>
    let p := x.2
    let new : Extent := { va := x.1, pa := p.pa, len := p.size, append := p.append, page := if p.append then p.size else 0, qc := p.qc,
                          key := p.key, rd := p.rd, wr := p.wr, fetch := p.fetch }
    match acc with
    | e :: t => if e.joins x.1 p && (!fine || e.page == new.page) then { e with len := e.len + p.size } :: t else new :: e :: t
    | [] => [new]) []

/-- The extents a posted card inherits (R339); none where it must walk, as a card of PRIV 0 must that would get an extent with an on-chip
frame anywhere in it (R246). DEDUCED, log 96. -/
def inheritExtents (l : Launch) (priv : Nat) (rs : List DeclRange) : Option (List Extent) :=
  let touches := fun (e : Extent) (r : DeclRange) => decide (r.base.toNat < e.va + e.len ∧ e.va < r.base.toNat + r.len.toNat)
  let asRange := fun (e : Extent) => ({ base := BitVec.ofNat 64 e.va, len := BitVec.ofNat 64 e.len, rd := true, wr := true, fetch := true } : DeclRange)
  let covered := rs.all (fun r => insideRanges (l.extents.map asRange) (l.extents.length + 1) r.base.toNat r.len.toNat)
  let within := rs.all (fun r => l.extents.all (fun e => !touches e r || ((!r.rd || e.rd) && (!r.wr || e.wr) && (!r.fetch || e.fetch))))
  let onchip := priv == 0 && rs.any (fun r => l.extents.any (fun e => touches e r && meetRanges e.pa e.len (2 ^ 47) (2 ^ 46)))
  if covered && within && !onchip then
    some (l.extents.filterMap (fun e =>
      let ts := rs.filter (touches e)
      if ts.isEmpty then none
      else some { e with rd := e.rd && ts.any (·.rd), wr := e.wr && ts.any (·.wr), fetch := e.fetch && ts.any (·.fetch) }))
  else none

/-! ### Acceptance (R338 to R342, R297, R298) -/

/-- A byte that the dispatcher or an engine reads; a free value where it is poison, or at a peer that gives no answer (R384, R389): the spec states no
effect of that. DESIGN CHOICE, log 126. -/
def soundByte (s : State) (pa : Nat) : Byte := if s.unreadable pa 1 then Config.poisonByte s.free pa else s.byte pa

/-- Read `n` bytes through a launch's extents; bytes outside them read 0. -/
def readVa (s : State) (l : Launch) (va n : Nat) : Nat :=
  match l.translate va with
  | some (e, pa) =>
    if va + n ≤ e.va + e.len && !s.unreadable pa n then s.read pa n
    else leNat ((List.range n).map (fun k => match l.translate (va + k) with
      | some (_, p) => soundByte s p
      | none => 0#8))
  | none => 0

/-- The offset at which R297, R298 or R340 find a card invalid once it has its extents. -/
def leaseFault (l : Launch) : Option Nat :=
  let needs := fun (va : Nat) (wr : Bool) => match l.translate va with
    | some (e, pa) => some (e, pa, if wr then e.wr && l.keymax.getLsbD (2 * e.key + 1) else e.rd && l.keymax.getLsbD (2 * e.key))
    | none => none
  let gateBad := fun (va : Nat) => va != 0 && (match needs va false with
    | some (_, pa, ok) => !ok || aperture pa == 2 || aperture pa == 3
    | none => true)
  let compBad := match needs l.compw true with
    | some (e, pa, ok) => !ok || e.append || (aperture pa == 2 && l.priv == 0)
    | none => true
  let ttabBad := l.tensors.any (fun e => tensorBad e.2)
  let ladderFault := l.ladders.any (fun x => ladderValid x && ladderBad x)
  leastOf ((if ttabBad then [0x20] else []) ++ (if ladderFault then [0x28] else []) ++ (if gateBad (bitsAt l.card 640 64) then [0x50] else [])
    ++ (if gateBad (bitsAt l.card 704 64) then [0x58] else []) ++ (if compBad then [0x60] else []))

/-- Set ACC on every leaf of the extent table, and DIRTY where the page has WR (R241 step 5). -/
def markLeaves (ps : Tab Page) (s : State) : State :=
  ps.foldl (fun s x => wake x.2.pte (s.write x.2.pte 8 (s.read x.2.pte 8 ||| (if x.2.wr then 0xC00 else 0x400)))) s

/-- Register a gate word: registration and test in one step (R341). The gates of the card that have been registered before it count too; a word of a
peer takes a monitor there. -/
def registerGate (mine : List Gate) (pa : Nat) (s : State) : Gate × State :=
  if gateFull s pa then ({ pa := pa, resolved := true, watch := .flying }, s)
  else if (aperture pa = 1 ∧ peerAnswers s pa) ∨ (aperture pa ≠ 1 ∧ gateMonitorsAt s (homeSlice pa) + mine.countP (Gate.monitorAt (homeSlice pa)) < 64) then
    ({ pa := pa, resolved := false, watch := .monitor s.uid }, { s with uid := s.uid + 1 })
  else ({ pa := pa, resolved := false, watch := .polled (s.time + 256 * refTick) }, s)

/-- A launch holds its lease, or its part in one: until its completion word has been written, and a killed one until the last of its masters, which may
be a frozen carter, has been released too (R242, R188). DEDUCED, log 143. -/
def Launch.holdsLease (s : State) (n : Nat) (l : Launch) : Bool :=
  l.phase != .ended || (l.fail == some 2 && s.cmds.any (fun e => e.2.launch == n))

/-- The launch holds its lease, or another still holds it (R242, R339, R387). -/
def leaseHeld (s : State) (n : Nat) : Bool :=
  (match Tab.get? s.launches n with
    | some l => l.leased && l.holdsLease s n
    | none => false)
  || s.launches.any (fun e => e.2.heir == some n && e.2.holdsLease s e.1)
  || s.engine.cards.any (fun c => c.2.launch == n || (s.launch c.2.launch).heir == some n)
  || s.engine.queues.any (fun q => q.any (fun c => c.launch == n || (s.launch c.launch).heir == some n))

/-- The argument block of a card as its context's tables give it (R11); none where they do not reach it. -/
def argBlock (s : State) (l : Launch) : List Word :=
  match ctxRead s l.ctx (bitsAt l.card 896 64) 8 with
  | some x => (List.range 16).map (fun k => BitVec.ofNat 32 (x / 2 ^ (32 * k)))
  | none => []

/-- Grant the lease and accept the card: ACC and DIRTY, the park pool, the argument block, the gates (R241, R258, R341). The argument block of a card
that waited for residency was read when it was first walked, if its tables reached it then, and is read now if they did not. DESIGN CHOICE,
log 95. -/
def grant (t : Take) (n : Nat) (l : Launch) (ps : Tab Page) (s : State) : State :=
  let s := markLeaves ps s
  let records := (List.range (l.parksz / 32)).map l.parkRecord
  let s := wakeWhere (fun sector => records.any (fun pa => pa / 64 == sector)) (records.foldl (fun s pa => s.poke pa (List.replicate 32 0#8)) s)
  let block := if l.args.isEmpty then (List.range 16).map (fun k => BitVec.ofNat 32 (readVa s l (bitsAt l.card 896 64 + 4 * k) 4)) else l.args
  let args := listMapIdx (fun k w => if 12 ≤ k then l.shapes.getD (k - 12) w else w) 0 block
  let gs := ([bitsAt l.card 640 64, bitsAt l.card 704 64].filter (fun va => va != 0)).map (fun va => match l.translate va with
    | some (_, pa) => pa
    | none => 0)
  let out := gs.foldl (fun (acc : List Gate × State) pa =>
    let g := registerGate acc.1 pa acc.2
    (acc.1 ++ [g.1], g.2)) ([], s)
  let l := openGates { l with args := args, gates := out.1, phase := .gated, leased := l.heir.isNone }
  let s := { out.2 with launches := Tab.put out.2.launches n { l with waitSince := s.time }, free := out.2.free + 1 }
  match t.ring with
  | some r => ringState r 1 0 0 n s
  | none => s

/-- The tensor table and the ladders of a launch that has its extents (R297, R319). -/
def Launch.withTables (l : Launch) (s : State) : Launch :=
  { l with
    tensors := if l.ttab = 0 then []
      else (List.range 256).filterMap (fun k =>
        let e : Tensor := BitVec.ofNat 512 (readVa s l (l.ttab + 64 * k) 64)
        if tValid e then some (k, e) else none)
    ladders := if bitsAt l.card 320 64 = 0 then []
      else (List.range 8).map (fun k => (BitVec.ofNat 1024 (readVa s l (bitsAt l.card 320 64 + 128 * k) 128) : Ladder)) }

/-- The launch whose lease a posted card inherits, and the extents it gets; none where the card must walk (R339). -/
def inherited (s : State) (t : Take) (l : Launch) : Option (Nat × List Extent) :=
  match t.parent with
  | some p =>
    let q := s.launch p
    let root := q.heir.getD p
    if leaseHeld s root && q.ctx == t.ctx && q.phase != .residency then (inheritExtents q l.priv l.ranges).map (fun es => (root, es)) else none
  | none => none

/-- The last checks of a card that has its extents, and its acceptance (R297, R298, R340). -/
def finishLease (out : Nat → Nat → List Byte → State → State) (t : Take) (n : Nat) (l0 : Launch) (ps : Tab Page) (s : State) : State :=
  let l := l0.withTables s
  match leaseFault l with
  | some off => refuseCard out t n l off { s with launches := Tab.del s.launches n }
  | none => grant t n l ps s

/-- Give a checked card its extents and finish its acceptance, or let it wait for residency, or refuse it (R241, R338, R339). -/
def lease (out : Nat → Nat → List Byte → State → State) (t : Take) (n : Nat) (l : Launch) (s : State) : State :=
  match inherited s t l with
  | some (root, es) => finishLease out t n { l with extents := es, heir := some root } [] s
  | none =>
    match walkRanges t.ctx l.priv l.ranges [] s with
    | (.invalid, s) => refuseCard out t n l 0x18 { s with launches := Tab.del s.launches n }
    | (.waits size va, s) =>
      let s := { s with launches := Tab.put s.launches n { l with phase := .residency, args := if l.args.isEmpty then argBlock s l else l.args } }
      let s := faultRecord t.ctx (dispatcherRecord 0x44 n size va s) s
      match t.ring with
      | some r => ringState r 1 0 0 n s
      | none => s
    | (.pages ps, s) =>
      if (extentsOf false ps).length > 64 then refuseCard out t n l 0x18 { s with launches := Tab.del s.launches n }
      else finishLease out t n { l with extents := (extentsOf true ps).reverse } ps s

/-- The launch of a card as it is read (R9, R10, R332, R335). -/
def cardLaunch (t : Take) (card : BitVec 1024) (shapes : List Word) (s : State) : Launch :=
  { Launch.empty with
    ctx := t.ctx, ctxid := ctxId s t.ctx, keymax := ctxKeymax s t.ctx, debug := ctxDebug s t.ctx, card := card, cardVa := t.card,
    ring := t.ring,
    hflush := t.hflush, parent := t.parent, cluster := t.cluster, shapes := shapes, prio := min (bitsAt card 86 2) t.qprio }

/-- The entries of a card's range list; none where it is misaligned or cannot be read. -/
def rangeEntries (s : State) (ctx : Nat) (l : Launch) : Option (List Nat) :=
  let list := bitsAt l.card 192 64
  let entries := (List.range l.nranges).map (fun k => ctxRead s ctx (list + 32 * k) 4)
  if list % 8 == 0 && entries.all Option.isSome then some (entries.filterMap id) else none

/-- The ranges that a card declares: the well-formed entries of its list (R240); none where the list is misaligned or cannot be read. -/
def cardRanges (s : State) (ctx : Nat) (l : Launch) : Option (List DeclRange) :=
  (rangeEntries s ctx l).map (fun es => (es.filter (fun x => !rangeBad x)).map parseRange)

/-- An entry of a card's range list is malformed (R240). -/
def listMalformed (s : State) (ctx : Nat) (l : Launch) : Bool :=
  match rangeEntries s ctx l with
  | some es => es.any rangeBad
  | none => false

/-- Check a card (R11, R338) and go on to its lease. -/
def takeCard (out : Nat → Nat → List Byte → State → State) (t : Take) (n : Nat) (card : BitVec 1024) (shapes : List Word) (s : State) :
    State :=
  let l := cardLaunch t card shapes s
  let rs := cardRanges s t.ctx l
  match leastOf (cardFaults l rs (listMalformed s t.ctx l) (ctxPrivOk s t.ctx)) with
  | some off => refuseCard out t n l off s
  | none => lease out t n { l with ranges := rs.getD [] } s

/-- TAG of a bucket table (R351). -/
def bucketTag : Nat := 0x5348_4150_4B54_4200

/-- The card that a bucket table gives (R351, R352): its address and the shape values; or FAIL and OFFSET. DEDUCED, log 81. -/
def resolveBucket (s : State) (ctx table : Nat) : Except (Nat × Nat) (Nat × List Word) :=
  match ctxRead s ctx table 4 with
  | none => .error (4, 0)
  | some h =>
    let nshape := h / 2 ^ 64 % 8
    let nb := h / 2 ^ 72 % 32
    let shapesAt := h / 2 ^ 128 % 2 ^ 64
    if h % 2 ^ 64 ≠ bucketTag ∨ nshape = 0 ∨ 4 < nshape ∨ h / 2 ^ 67 % 32 ≠ 0 ∨ nb = 0 ∨ 16 < nb ∨ h / 2 ^ 77 % 2 ^ 51 ≠ 0
        ∨ shapesAt % 8 ≠ 0 ∨ h / 2 ^ 192 ≠ 0 then .error (0, 8)
    else
      match ctxRead s ctx shapesAt ((nshape + 1) / 2), ctxRead s ctx (table + 0x20) (6 * nb) with
      | some sv, some bs =>
        let shape := fun (j : Nat) => sv / 2 ^ (32 * j) % 2 ^ 32
        let field := fun (b byte n : Nat) => bs / 2 ^ (8 * (48 * b + byte)) % 2 ^ (8 * n)
        if (List.range nb).any (fun b => field b 40 8 != 0) then .error (0, 8)
        else
          match (List.range nb).find? (fun b => (List.range nshape).all (fun j =>
              decide (field b (4 * j) 4 ≤ shape j) && decide (shape j ≤ field b (16 + 4 * j) 4))) with
          | none => .error (5, 0)
          | some b => .ok (field b 32 8, (List.range nshape).map (fun j => BitVec.ofNat 32 (shape j)))
      | _, _ => .error (4, 0)

/-- Take a queue entry: number it, resolve a bucket table, read and check the card (R338, R351, R352). DEDUCED, log 82. -/
def acceptEntry (out : Nat → Nat → List Byte → State → State) (t : Take) (s0 : State) : State :=
  let n := s0.nextLaunch
  let s := { s0 with nextLaunch := if n + 1 = 2 ^ 32 then 1 else n + 1 }
  let fetch := fun (va : Nat) (shapes : List Word) =>
    match (if va % 8 = 0 then ctxRead s t.ctx va 16 else none) with
    | some c => takeCard out { t with card := va } n (BitVec.ofNat 1024 c) shapes s
    | none => refuse t n 4 0 false s
  if t.card % 8 ≠ 0 then refuse t n 4 0 false s
  else
    let posted := t.parent.isSome
    let tagged := match ctxRead8 s t.ctx t.card with
      | some x => x == bucketTag
      | none => false
    if t.bucket || (posted && tagged) then
      match resolveBucket s t.ctx t.card with
      | .error (f, o) => refuse t n f o false s
      | .ok (va, shapes) => fetch va shapes
    else fetch t.card []

/-- The dispatcher walks a launch's tables again after RESDONE (R382). -/
def resdone (out : Nat → Nat → List Byte → State → State) (n : Nat) (s : State) : State :=
  match Tab.get? s.launches n with
  | some l =>
    if l.phase = .residency then
      lease out { ctx := l.ctx, ring := l.ring, hflush := l.hflush, qprio := 3, parent := none, cluster := l.cluster, card := l.cardVa,
                  bucket := false } n l s
    else s
  | none => s

/-! ### Placement (R24, R343 to R349) -/

/-- Teams with a live thread: all of them, or for a bucket launch those below its first shape value (R352). -/
def Launch.liveTeams (l : Launch) : Nat :=
  match l.shapes with
  | [] => l.nteams
  | s0 :: _ => min l.nteams ((s0.toNat + l.gpt * l.width - 1) / (l.gpt * l.width))

/-- The next team of a launch for a core, with the launch's order advanced past it (R343, R359); replays apart. -/
def Launch.nextFor (l : Launch) (core : Nat) : Option (Nat × Launch) :=
  if l.det ∧ !l.reexec then
    let wave := fun (lg : Nat) => (Tab.get? l.waves lg).getD 0
    let left := fun (lg : Nat) => decide (wave lg < l.nwaves) && decide (lg * l.nwaves + wave lg < l.liveTeams)
    let mine := (List.range l.nlog).find? (fun lg => left lg && Tab.get? l.homes lg == some core)
    let fresh := (List.range l.nlog).find? (fun lg => left lg && (Tab.get? l.homes lg).isNone)
    match mine.or fresh with
    | some lg =>
      some (lg * l.nwaves + wave lg, { l with waves := Tab.put l.waves lg (wave lg + 1), homes := Tab.put l.homes lg core })
    | none => none
  else if l.nextTeam < l.liveTeams then some (l.nextTeam, { l with nextTeam := l.nextTeam + 1 })
  else none

/-- A launch has a team that has not been placed (R353). -/
def Launch.unplaced (l : Launch) : Bool :=
  l.fail.isNone && (!l.replays.isEmpty
    || (if l.det && !l.reexec then (List.range l.nlog).any (fun lg =>
          let w := (Tab.get? l.waves lg).getD 0
          decide (w < l.nwaves) && decide (lg * l.nwaves + w < l.liveTeams))
        else decide (l.nextTeam < l.liveTeams)))

/-- The least 4 KiB unit at which `n` units of scratchpad are free below `limit`. -/
def findScratch (used : List (Nat × Nat)) (n limit : Nat) : Option Nat :=
  (List.range 97).find? (fun b => decide (b + n ≤ limit) && used.all (fun u => decide (u.1 + u.2 ≤ b) || decide (b + n ≤ u.1)))

/-- A place in the register files for a group: VROW, VCOL and GROW (R249). -/
def findRegs (residents : List Group) (l : Launch) : Option (Nat × Nat × Nat) :=
  let rows := 8 * ((l.vregs + 7) / 8)
  let cols := l.width / 16
  let words := 16 * ((l.gregs + 15) / 16)
  let clash := fun (vrow vcol : Nat) => residents.any (fun g =>
    let r := 8 * ((g.vregs + 7) / 8)
    let c := g.width / 16
    decide (vrow < g.vrow + r ∧ g.vrow < vrow + rows ∧ vcol < g.vcol + c ∧ g.vcol < vcol + cols))
  let spots := (List.range (4 / cols)).flatMap (fun k => (List.range (1024 / 8)).map (fun r => (8 * r, cols * k)))
  let v := spots.find? (fun p => decide (p.1 + rows ≤ 1024) && !clash p.1 p.2)
  let g := (List.range 128).find? (fun k => decide (16 * k + words ≤ 2048) && residents.all (fun g =>
    decide (g.grow + 16 * ((g.gregs + 15) / 16) ≤ 16 * k) || decide (16 * k + words ≤ g.grow)))
  match v, g with
  | some p, some k => some (p.1, p.2, 16 * k)
  | _, _ => none

/-- The free slots of a core whose seats no group of the launch holds (R20). -/
def freeSlots (s : State) (launch core : Nat) : List Nat :=
  (List.range 16).filter (fun q => (s.slotGroup core q).isNone && s.groups.all (fun e => e.2.launch != launch || e.2.seat != core * 16 + q))

/-- A lit core that an HC2 or HC3 launch may use (R348). -/
def litOk (s : State) (n core : Nat) : Bool :=
  let p := partnerOf core
  parityOf core == 0 && ((s.core p).dark == some (n, core)
    || ((s.residents p).isEmpty && (s.core p).claim.isNone && (s.core p).dark.isNone))

/-- A core may take groups of a launch, room apart (R292, R332, R343, R348). -/
def coreOpen (s : State) (n core : Nat) : Bool :=
  let l := s.launch n
  let k := s.core core
  k.dark.isNone && (s.residents core).all (fun e => (s.launch e.2.launch).ctxid == l.ctxid)
    && (l.ttab == 0 || k.claim.isNone || k.claim == some n)
    && (if 2 ≤ l.heat then litOk s n core
        else match (s.core (partnerOf core)).dark with
          | some (m, c) => c != core || (s.launch m).ctxid == l.ctxid
          | none => true)

/-- Room on a core for `n` more groups of a launch, and for a scratchpad if `scratch` (R24). -/
def roomFor (s : State) (launch core n : Nat) (scratch : Bool) : Bool :=
  let l := s.launch launch
  let rs := s.residents core
  let sum := fun (f : Launch → Nat) => (rs.map (fun e => f (s.launch e.2.launch))).sum
  let pads := ((scratchOn s core).map (fun u => u.2)).sum + (if scratch then l.scratch else 0)
  let ov := ((rs.map (fun e => (s.launch e.2.launch).ovmin)) ++ [l.ovmin]).foldl max 0
  decide (rs.length + n ≤ 16) && decide (sum laneCharge + n * laneCharge l ≤ 262144) && decide (sum gregCharge + n * gregCharge l ≤ 8192)
    && decide (pads * 4096 + 32768 + ov * 32768 ≤ 393216)

/-- A group placed in a slot: its threads at ENTRY, its registers as R12 gives them. -/
def newGroup (s : State) (n : Nat) (l : Launch) (team teamid gid core slot vrow vcol grow : Nat) : Group :=
  let live := fun (lane : Nat) => match l.shapes with
    | [] => true
    | s0 :: _ => decide ((teamid * l.gpt + gid) * l.width + lane < s0.toNat)
  { launch := n, team := team, gid := gid, width := l.width, vregs := l.vregs, gregs := l.gregs, place := .resident core slot,
    seat := core * 16 + slot, vrow := vrow, vcol := vcol, grow := grow,
    threads := (List.range l.width).map (fun k => Thread.start l.entry (live k)),
    g := l.args.zipIdx.foldl (fun m e => Sparse.set 0#32 m e.2 e.1) [], rot := l.entry, cur := 0#64, cycle := 0, dues := [],
    trapvec := 0, trapcause := 0, handler := false, traplanes := 0, entered := 0, trappc := 0, trapword := 0, trapf := 0, trapaddr := 0, hset := 0,
    stallchk := false, keyperm := l.keymax, srkey := 0, frozen := false, halted := false, resumed := false, teamhalt := false,
    preempt := none, blocks := [], append := none, residentSince := s.time, readySince := s.time, starved := false }

/-- Registers can be found, one after another, for `k` more groups of a launch beside some groups (R249). -/
def regsFor (s : State) (n : Nat) (l : Launch) : Nat → List Group → Bool
  | 0, _ => true
  | k + 1, rs =>
    match findRegs rs l with
    | some (vrow, vcol, grow) => regsFor s n l k (rs ++ [newGroup s n l 0 0 0 0 0 vrow vcol grow])
    | none => false

/-- One team of a launch may be placed whole on a core, or on the pair whose even core it is (R7, R343): each group has room, a free seat, and
registers in one piece. DEDUCED, log 97. -/
def qualifies (s : State) (n core : Nat) : Bool :=
  let l := s.launch n
  let one := fun (c g : Nat) => coreOpen s n c && roomFor s n c g true && decide (g ≤ (freeSlots s n c).length)
    && (findScratch (scratchOn s c) l.scratch 88).isSome && regsFor s n l g ((s.residents c).map (fun e => e.2))
  decide (core < 768) && one core l.evenGroups && (!l.pair || (core % 2 == 0 && one (core + 1) l.oddGroups))

/-- The registers of a group are written as it takes its place: a poisoned word among them is written whole (R389). -/
def clearRegPoison (core : Nat) (g : Group) (s : State) : State :=
  let at_ := 2 ^ 47 + core * 0x100000
  (List.range g.width).foldl (fun s l => clearPoison (at_ + (16 * g.vcol + l) * 0x1000 + 4 * g.vrow) (32 * ((g.vregs + 7) / 8)) s)
    (clearPoison (at_ + 0x40000 + 4 * g.grow) (64 * ((g.gregs + 15) / 16)) s)

/-- The 8-byte words that a group's registers take in the register files of a core, in an order that does not depend on its place there (R249). -/
def Group.regWords (core : Nat) (g : Group) : List Nat :=
  let at_ := (2 ^ 47 + core * 0x100000) / 8
  (List.range g.width).flatMap (fun l => (List.range (4 * ((g.vregs + 7) / 8))).map (fun k => at_ + (16 * g.vcol + l) * 0x200 + g.vrow / 2 + k))
    ++ (List.range (8 * ((g.gregs + 15) / 16))).map (fun k => at_ + 0x8000 + g.grow / 2 + k)

/-- The places, among its words, of those of a group's registers that are poisoned: they leave with it (R389). -/
def Group.regPoison (core : Nat) (s : State) (g : Group) : NatSet :=
  if s.poison.isEmpty then []
  else (g.regWords core).zipIdx.filterMap (fun e => if NatSet.mem s.poison e.1 then some e.2 else none)

/-- A group's registers take their place on a core again, with the poison that left with them (R389). -/
def putRegPoison (core : Nat) (g : Group) (s : State) : State :=
  { s with poison := g.badRegs.foldl (fun m i => NatSet.ins m ((g.regWords core).getD i 0)) s.poison }

/-- Place one group on a core, in the lowest free slot, if it has a live thread. The slot's debug registers stay as they are. DESIGN CHOICE, log 98. -/
def placeGroup (n team teamid gid core : Nat) (s : State) : State :=
  let l := s.launch n
  match freeSlots s n core, findRegs ((s.residents core).map (fun e => e.2)) l with
  | q :: _, some (vrow, vcol, grow) =>
    let g := (newGroup s n l team teamid gid core q vrow vcol grow).choose
    if g.threads.any (fun t => t.live) then
      clearRegPoison core g { s with groups := Tab.put s.groups s.uid g, uid := s.uid + 1 }
    else s
  | _, _ => s

/-- The slots of a core are zeroed, with format BF16 and band scale 0 (R292, R348). -/
def zeroSlots (core : Nat) (s : State) : State :=
  clearPoison (2 ^ 47 + core * 0x100000 + 0xD0000) 0x18000 (s.modCore core (fun k => { k with slots := [] }))

/-- What the first team of a launch does to a core: the Loom claim (R292) and the dark partner (R348). -/
def claimCore (n core : Nat) (s : State) : State :=
  let l := s.launch n
  let p := partnerOf core
  let s := if l.ttab ≠ 0 ∧ (s.core core).claim ≠ some n then
      let s := zeroSlots core (clearPoison (2 ^ 47 + core * 0x100000 + 0xB0000) 0x20000
        (s.modCore core (fun k => { k with claim := some n, acc := [], tags := [] })))
      if darkFor s p core then zeroSlots p s else s
    else s
  if 2 ≤ l.heat ∧ (s.core p).dark ≠ some (n, core) then
    zeroSlots p (clearLent p (s.modCore p (fun k => { k with dark := some (n, core) })))
  else s

/-- Start a team on a core or pair (R7, R12): a replay keeps the number its task has in the table of teams (R325). DEDUCED, log 90. -/
def startTeam (n core teamid : Nat) (re : Option ReplayTask) (s : State) : State :=
  let l := s.launch n
  let s := claimCore n core s
  let base := (findScratch (scratchOn s core) l.scratch 88).getD 0
  let odd := if l.pair then some (core + 1) else none
  let baseOdd := if l.pair then (findScratch (scratchOn s (core + 1)) l.scratch 88).getD 0 else 0
  let team := match re with
    | some r => r.team
    | none => s.uid
  let old := s.team team
  let t : Team := { Team.empty with
    launch := n, teamid := teamid, core := core, odd := odd, spbase := base, spodd := baseOdd, tensors := l.tensors,
    replay := re.map (fun r => r.replay), ticket := old.ticket, finished := old.finished, digest := old.digest }
  let s := { s with teams := Tab.put s.teams team t, uid := s.uid + 1 }
  let s := if l.pair then claimCore n (core + 1) s else s
  let s := s.modLaunch n (fun l => { l with waitSince := s.time, asked := false })
  (List.range l.gpt).foldl (fun s gid => placeGroup n team teamid gid (if gid < l.evenGroups then core else core + 1) s) s

/-- A launch whose teams may be placed: its gates have resolved; in a serial re-execution, its last team has ended and a quiet
period of 64 ref ticks has held (R342, R361). -/
def mayPlace (s : State) (n : Nat) : Bool :=
  let l := s.launch n
  l.phase == .running && l.unplaced
    && (!l.reexec || (match l.quietSince with
      | some t => decide (t + 64 * refTick ≤ s.time)
      | none => false))

/-- Place the next team of a launch: a replay first (R344). -/
def placeNext (n core : Nat) (s : State) : State :=
  let l := s.launch n
  match l.replays with
  | r :: rs => startTeam n core r.teamid (some r) (s.modLaunch n (fun l => { l with replays := rs, quietSince := none }))
  | [] =>
    match l.nextFor core with
    | some (t, l') => startTeam n core t none (s.modLaunch n (fun _ => { l' with quietSince := none }))
    | none => s

/-! ### The fence of an eviction (R26) -/

/-- A lane of the full/empty instruction of a request is parked or polled (R25). -/
def feParked (s : State) (r : Req) : Bool :=
  s.reqs.any (fun e => e.2.group == r.group && e.2.pc == r.pc && e.2.lanes == r.lanes && e.2.time == r.time && (match e.2.kind with
    | .fe _ _ _ _ _ _ (.parked _) | .fe _ _ _ _ _ _ (.polled _) => true
    | _ => false))

/-- A request of a group that its eviction leaves as a wake condition: a lane of a full/empty instruction that has a lane parked or polled, its blocking
point (R25, R66), or a load it is blocked on. DESIGN CHOICE, log 104. -/
def keptByEviction (s : State) (g : Group) (n : Nat) (r : Req) : Bool :=
  match r.kind with
  | .fe k _ _ _ _ _ w => feWaits k && w != .flying && feParked s r
  | .load _ _ => g.blocks.any (fun b => b.2.kind == .load n)
  | _ => false

/-- A lane of a full/empty instruction that waits for its word. -/
def Req.waitsFe (r : Req) : Bool :=
  match r.kind with
  | .fe k _ _ _ _ _ _ => feWaits k
  | _ => false

/-- The implicit FENCE FULL at .dev of a group has completed (R26, R271, R272), and no pending bit is set but those of what the group waits for (R66). -/
def fencedForEviction (s : State) (gid : Nat) (g : Group) : Bool :=
  let all : LaneSet := BitVec.allOnes 64
  s.reqs.all (fun e => !e.2.ofThreads gid all || keptByEviction s g e.1 e.2
      || ((e.2.group != gid || (e.2.dest.isEmpty && !e.2.waitsFe)) && e.2.released s.time 4))
    && earlyDone s gid all 4 && loomsDone s gid all

/-! ### Restoring and moving (R30, R346, R350) -/

/-- Give an evicted group a slot and registers on a core, which acquires what the wakes that came meanwhile acquired, and where what it still waits for
will take its effect (R275, R278). -/
def reseat (gid core : Nat) (s : State) : State :=
  match Tab.get? s.groups gid with
  | none => s
  | some g =>
    let l := s.launch g.launch
    let free := (List.range 16).filter (fun q => (s.slotGroup core q).isNone)
    match free, findRegs ((s.residents core).map (fun e => e.2)) l with
    | q :: _, some (vrow, vcol, grow) =>
      let g1 : Group := { g with place := .resident core q, vrow := vrow, vcol := vcol, grow := grow, residentSince := s.time, readySince := s.time,
                                 readyClocks := 0 }
      let s : State := { s with reqs := s.reqs.map (fun e => if e.2.group = gid then (e.1, { e.2 with core := core }) else e) }
      acquireAt core 5 false (fun _ => true) (putRegPoison core g1 (clearRegPoison core g1 (s.setGroup gid { g1.rechoose with badRegs := [] })))
    | _, _ => s

/-- The bytes of `n` 4 KiB units of a core's local store from unit `base`. -/
def padOf (s : State) (core base n : Nat) : Tab Byte :=
  ((s.core core).lstore.filter (fun e => decide (4096 * base ≤ e.1) && decide (e.1 < 4096 * (base + n)))).map
    (fun e => (e.1 - 4096 * base, e.2))

/-- PA of unit `base` of a core's local store (R248). -/
def padPa (core base : Nat) : Nat := 2 ^ 47 + core * 0x100000 + 0x50000 + 4096 * base

/-- The poisoned 8-byte words among those units, by their place from the first (R389). -/
def padPoison (s : State) (core base n : Nat) : NatSet :=
  (s.poison.filter (fun w => decide (padPa core base / 8 ≤ w) && decide (w < padPa core (base + n) / 8))).map (fun w => w - padPa core base / 8)

/-- Put saved bytes, with the poison saved with them (R389), into `n` 4 KiB units of a core's local store from unit `base`. -/
def putPad (core base n : Nat) (pad : Tab Byte) (bad : NatSet) (s : State) : State :=
  let s1 := clearPoison (padPa core base) (4096 * n) (s.modCore core (fun k =>
    let others := k.lstore.filter (fun e => decide (e.1 < 4096 * base) || decide (4096 * (base + n) ≤ e.1))
    { k with lstore := pad.foldl (fun m e => Tab.put m (4096 * base + e.1) e.2) others }))
  { s1 with poison := bad.foldl (fun m w => NatSet.ins m (padPa core base / 8 + w)) s1.poison }

/-- No group of a team is in a slot. -/
def wholeEvicted (s : State) (team : Nat) : Bool := s.groups.all (fun e => e.2.team != team || !e.2.resident)

/-- The scratchpad of a team is saved when the last of its groups is evicted, and its room on the cores is free (R24, R26). DEDUCED, log 29. -/
def savePads (team : Nat) (s : State) : State :=
  let t := s.team team
  let n := (s.launch t.launch).scratch
  if t.saved.isSome || !wholeEvicted s team then s
  else
    let odd := match t.odd with
      | some o => (padOf s o t.spodd n, padPoison s o t.spodd n)
      | none => ([], [])
    s.modTeam team (fun x => { x with saved := some (padOf s t.core t.spbase n, odd.1), savedBad := (padPoison s t.core t.spbase n, odd.2) })

/-- A saved scratchpad is given room again, as a group of the team is to be restored. -/
def loadPads (team : Nat) (s : State) : State :=
  let t := s.team team
  let n := (s.launch t.launch).scratch
  match t.saved with
  | none => s
  | some (even, odd) =>
    let base := (findScratch (scratchOn s t.core) n 88).getD 0
    let s1 := putPad t.core base n even t.savedBad.1 s
    let baseOdd := match t.odd with
      | some o => (findScratch (scratchOn s1 o) n 88).getD 0
      | none => 0
    let s2 := match t.odd with
      | some o => putPad o baseOdd n odd t.savedBad.2 s1
      | none => s1
    s2.modTeam team (fun x => { x with saved := none, savedBad := ([], []), spbase := base, spodd := baseOdd })

/-- The core, of the core or pair that a team is on, where a group of its launch goes (R7). -/
def Launch.coreFor (l : Launch) (core gid : Nat) : Nat := if l.pair && decide (l.evenGroups ≤ gid) then core + 1 else core

/-- The poisoned 8-byte words of the region that a dark core lends, by their place in its window (R251, R389). -/
def lentPoison (s : State) (core : Nat) : NatSet :=
  (s.poison.filter (fun w => decide (2 ^ 47 + core * 0x100000 ≤ 8 * w) && (decide (8 * w < 2 ^ 47 + core * 0x100000 + 0x40000)
    || (decide (padPa core 0 ≤ 8 * w) && decide (8 * w < padPa core 96))))).map (fun w => w - (2 ^ 47 + core * 0x100000) / 8)

/-- Move a team whose groups are all evicted to another core, or to the pair whose even core it is, with the lent region of a lit one (R346, R350). -/
def moveTeam (team core : Nat) (s : State) : State :=
  let t := s.team team
  let l := s.launch t.launch
  if t.core = core then s
  else
    let lit := decide (2 ≤ l.heat)
    let lentStore := (s.core (partnerOf t.core)).lstore
    let lentLrf := (s.core (partnerOf t.core)).lrf
    let s1 := if lit then claimCore t.launch core s else s
    let bad := (lentPoison s (partnerOf t.core)).map (fun w => (2 ^ 47 + partnerOf core * 0x100000) / 8 + w)
    let s2 := if lit then { s1.modCore (partnerOf core) (fun k => { k with lstore := lentStore, lrf := lentLrf }) with
        poison := bad.foldl NatSet.ins s1.poison } else s1
    let s3 : State := { s2 with groups := s2.groups.map (fun e =>
      if e.2.team = team then (e.1, { e.2 with place := .evicted (l.coreFor core e.2.gid) }) else e) }
    let s4 := s3.modTeam team (fun t => { t with core := core, odd := t.odd.map (fun _ => core + 1) })
    let s5 := releaseCore t.launch t.core s4
    match t.odd with
    | some o => releaseCore t.launch o s5
    | none => s5

/-- An evicted group waits for an answer that is poison, or that no peer has given in time: it can meet it only in a slot (log 103). -/
def poisonDue (s : State) (gid : Nat) : Bool :=
  s.reqs.any (fun e => e.2.group == gid && (match e.2.kind with
    | .load _ ps => ps.any (fun p => s.broken p.pa p.size || (aperture p.pa == 1 && decide (e.2.time + 100000 * refTick ≤ s.time)))
    | .fe k l va pa _ _ _ => feReady s k pa && !(fePoisoned s e.2 k l va pa).isEmpty
    | _ => false))

/-- The core, or the even core of the pair, that a team's groups are to be on where one of them goes to a core. -/
def Launch.baseFor (l : Launch) (core gid : Nat) : Nat := if l.pair && decide (l.evenGroups ≤ gid) then core - 1 else core

/-- An evicted group may be restored to a core (R24, R30, R332, R346): to the core it left; or, with its whole team evicted, to
another core of its C-die, or for a group of a pair to the same core of another pair there, for a launch that may leave. DEDUCED, log 79. -/
def mayRestore (s : State) (gid core : Nat) : Bool :=
  match Tab.get? s.groups gid with
  | none => false
  | some g =>
    let l := s.launch g.launch
    let whole := wholeEvicted s g.team
    let padRoom := fun (c k : Nat) => coreOpen s g.launch c && roomFor s g.launch c k whole
      && (!whole || (findScratch (scratchOn s c) l.scratch 88).isSome)
    !g.resident && !g.frozen && (!(g.lanesWhere g.runnable).isEmpty || timerDue s gid g || poisonDue s gid) && padRoom core 1
    && ((List.range 16).any (fun q => (s.slotGroup core q).isNone))
    && (findRegs ((s.residents core).map (fun e => e.2)) l).isSome
    && (!l.pair || !whole || padRoom (partnerOf core) 0)
    && (g.core == core || (whole && l.ttab == 0 && decide (l.heat < 2) && decide (core < 768) && dieOf core == dieOf g.core
      && (!l.pair || core % 2 == g.core % 2)))

/-- Test the words that the full/empty accesses of a group wait on. -/
def wakeOwn (gid : Nat) (s : State) : State :=
  (s.reqs.filterMap (fun e => match e.2.kind with
    | .fe k _ _ pa _ _ w => if e.2.group = gid ∧ feWaits k ∧ w ≠ .flying then some pa else none
    | _ => none)).foldl (fun s pa => wake pa s) s

/-- Restore an evicted group. -/
def restoreGroup (gid core : Nat) (s : State) : State :=
  match Tab.get? s.groups gid with
  | none => s
  | some g =>
    let base := (s.launch g.launch).baseFor core g.gid
    wakeOwn gid (reseat gid core (loadPads g.team (if g.core = core then s else moveTeam g.team base s)))

/-! ### The quiet tree and the end of a launch (R353 to R361) -/

/-- Nothing of a launch is at work, placing apart (R353): no group but frozen ones, no command, no request in flight, no park
record. A write that has been performed is not in flight, though its acknowledgement is outstanding. -/
def calm (s : State) (n : Nat) : Bool :=
  s.groups.all (fun e => e.2.launch != n || e.2.frozen)
    && s.cmds.all (fun e => e.2.launch != n || e.2.state == 3)
    && s.looms.all (fun e => e.2.launch != n)
    && s.reqs.all (fun e => e.2.launch != n || (match e.2.kind with
      | .store ps => ps.isEmpty
      | _ => false))

/-- A launch is quiet (R353). -/
def quiet (s : State) (n : Nat) : Bool :=
  let l := s.launch n
  l.phase == .running && !l.unplaced && calm s n

/-- D of R360. -/
def launchDigest (l : Launch) : DWord :=
  (List.range l.nteams).foldl (fun d t => genF (d + (Tab.get? l.digests t).getD 0)) 0

/-- PA of a virtual address of a launch. -/
def Launch.paOf (l : Launch) (va : Nat) : Nat :=
  match l.translate va with
  | some (_, pa) => pa
  | none => 0

/-- Release the ranges of a frozen carter's command (R188, R377): the command ceases to be outstanding. -/
def releaseCmd (n : Nat) (s : State) : State :=
  match Tab.get? s.cmds n with
  | none => s
  | some c =>
    ({ s with cmds := Tab.del s.cmds n, carters := s.carters.filter (fun k => k.2.cmd != some n) }).modTeam c.team
      (fun t => t.finish { ticket := c.ticket, state := 3, poison := c.poison, clamp := c.clamp })

/-- Release the frozen groups and carters of a launch (R223, R377). -/
def releaseFrozen (n : Nat) (s : State) : State :=
  let s := (s.groups.filter (fun e => e.2.launch == n)).foldl (fun s e => removeGroup e.1 s) s
  (s.cmds.filter (fun e => e.2.launch == n && e.2.state == 3)).foldl (fun s e => releaseCmd e.1 s) s

/-- PA of a launch's completion word: through its extents, or, where it was killed before it had any, where the tables lead (R338, R357). DEDUCED, log 64. -/
def Launch.compPa (s : State) (l : Launch) : Option Nat :=
  match l.translate l.compw with
  | some (_, pa) => some pa
  | none => carryPa s l.ctx l

/-- The end of a launch (R354, R355): the ring entry's outcome, the completion word, the lease, a kill's DONE. -/
def completeLaunch (out : Nat → Nat → List Byte → State → State) (n : Nat) (s : State) : State :=
  let l := s.launch n
  let place := l.compPa s
  let d := if l.det then launchDigest l else 0#64
  let value := match l.fail with
    | some f => failValue f 0
    | none => l.compv
  let s := match l.ring with
    | some r =>
      let s := ringState r (if l.fail.isSome then 3 else 2) (l.fail.getD 0) 0 n s
      let s := s.setByte (r + 0x13) (BitVec.ofNat 8 ((if l.reexec then 1 else 0) + (if l.froze then 4 else 0)))
      let s := s.poke (r + 0x0C) (leBytes 4 l.multiw)
      wake r (s.poke (r + 0x18) (leBytes 8 d.toNat))
    | none => s
  let s := match place with
    | some pa => completionWord out l.ctx n pa value s
    | none => s
  let s := s.modLaunch n (fun l => { l with phase := .ended })
  let s := if s.mode.getLsbD 2 then s else releaseFrozen n s
  if s.killBusy ∧ s.killLaunch.toNat = n then { s with killBusy := false, killDone := true } else s

/-- A quiet launch ends: under DET its digest is checked first, and a mismatch runs it again serially, once (R360, R361). -/
def endLaunch (out : Nat → Nat → List Byte → State → State) (n : Nat) (s : State) : State :=
  let l := s.launch n
  let want := bitsAt l.card 960 64
  if l.det && l.fail.isNone && want != 0 && (launchDigest l).toNat != want then
    if l.reexec then completeLaunch out n (s.modLaunch n (fun l => { l with fail := some 3 }))
    else
      (launchRecord 0x41 n (launchDigest l).toNat 0 s).modLaunch n (fun l =>
        { l with reexec := true, nextTeam := 0, digests := [], waves := [], homes := [], quietSince := none })
  else completeLaunch out n s

/-- Poison that a reduction or the Loom meets (R141, R304, R356, R389): record 0x43 while the launch runs; after completion
LATEP, if the ring entry still holds the launch, and record 0x42. -/
def poisonRecord (launch pa : Nat) (s : State) : State :=
  let l := s.launch launch
  if l.phase = .ended then
    let s := match l.ring with
      | some r => if s.read (r + 0x14) 4 = launch % 2 ^ 32 then wake r (s.setByte (r + 0x13) (s.byte (r + 0x13) ||| 2#8)) else s
      | none => s
    launchRecord 0x42 launch 0 pa s
  else launchRecord 0x43 launch 0 pa s

/-- Kill a launch (R357): every task ends, frozen groups included; teams not placed and gated or leasing cards go. -/
def kill (v : Word) (s : State) : State :=
  if s.killBusy then s
  else
    let n := v.toNat
    let s := { s with killLaunch := v }
    match Tab.get? s.launches n with
    | none => { s with killBad := true }
    | some l =>
      if l.phase = .ended then { s with killBad := true }
      else
        let s := { s with killBusy := true }
        let s := (s.modLaunch n (fun l => { l with fail := some 2, replays := [], gates := [], phase := .running, quietSince := none }))
        let s := s.teams.foldl (fun s e => if e.2.launch = n then discardDeferred e.1 s else s) s
        (s.groups.filter (fun e => e.2.launch == n)).foldl (fun s e => removeGroup e.1 s) s

end Sys2Proof.Machine
end

