-- ==== Sys2Proof/Machine/Registers.lean ====
section
/-! DEFINITION. The on-chip aperture (spec/12 R247 to R251, R260, R263): core windows, debug pages (spec/10 R227 to R232), event
counters, and the registers of the dies' memory pages (spec/16 R330, spec/18 R333, R336, R357, spec/20 R366 to R376, spec/22 R377,
R382, R384, R390 to R392). Reads and writes are made by aligned 8-byte units; a write carries the bytes it names as a mask. -/

namespace Sys2Proof.Machine

/-! ### Bytes and units -/

/-- The bits of the bytes that a mask names. -/
def byteMask (mask : Nat) : DWord :=
  (List.range 8).foldl (fun m k => if mask.testBit k then m ||| BitVec.ofNat 64 (0xFF * 256 ^ k) else m) 0#64

/-- Put the masked bytes of `v` over `old`. -/
def merge (old : DWord) (mask : Nat) (v : DWord) : DWord := (old &&& ~~~(byteMask mask)) ||| (v &&& byteMask mask)

/-- The two halves of a mask that some byte of the unit falls in. -/
def hitsLo (mask : Nat) : Bool := mask % 16 != 0
def hitsHi (mask : Nat) : Bool := mask / 16 % 16 != 0

/-! ### Core windows (R248, R249) -/

/-- Write a word of the lane register file, and of the group register file. -/
def writeLaneWord (core word : Nat) (x : Word) (s : State) : State :=
  match laneRegAt s core word with
  | some (g, lane, n) => s.modGroup g (fun y => y.modThread lane (fun t => t.setV n x))
  | none => s.modCore core (fun k => { k with lrf := Sparse.set 0#32 k.lrf word x })
def writeGroupWord (core word : Nat) (x : Word) (s : State) : State :=
  match groupRegAt s core word with
  | some (g, n) => s.modGroup g (fun y => y.setG n x)
  | none => s.modCore core (fun k => { k with grf := Sparse.set 0#32 k.grf word x })

/-- Resume a halted group (R230): its next issue tests no comparator, and the wakes recorded meanwhile are acted on. GSTAT.REASON, GSTAT.COMP, GLANES
and GPC keep the values of the last halt. DESIGN CHOICE, log 99. -/
def resumeGroup (core slot : Nat) (s : State) : State :=
  match s.slotGroup core slot with
  | some (n, g) => if g.halted then actWakes n (s.setGroup n { g with halted := false, resumed := true }) else s
  | none => s

/-- Release a frozen group (R223). -/
def releaseSlot (core slot : Nat) (s : State) : State :=
  match s.slotGroup core slot with
  | some (n, g) => if g.frozen then removeGroup n s else s
  | none => s

/-- Write GCTL (R228). -/
def writeGctl (core slot : Nat) (v : Word) (s : State) : State :=
  s.modCore core (fun k => { k with debugSlots := listModify k.debugSlots slot (fun d =>
    { d with sstep := v.getLsbD 0, frzteam := v.getLsbD 1, haltreq := v.getLsbD 2 }) })

/-- Write GSTAT (R228): HALTED and FROZEN are written 1 to act. -/
def writeGstat (core slot : Nat) (v : Word) (s : State) : State :=
  let s1 := if v.getLsbD 0 then resumeGroup core slot s else s
  if v.getLsbD 1 then releaseSlot core slot s1 else s1

/-- Write a unit of a debug page. `v` holds the masked bytes and 0 elsewhere. DEDUCED, log 84. -/
def writeDebug (core off mask : Nat) (v : DWord) (s : State) : State :=
  let new := merge (readDebug s core off) mask v
  if 0x100 ≤ off ∧ off < 0x180 then
    s.modCore core (fun k => { k with pcs := listModify k.pcs ((off - 0x100) / 0x20) (fun c =>
      match off % 0x20 with
      | 0 => { c with addr := new }
      | 8 => { c with lanes := new }
      | 16 => { c with ctrl := loW new &&& 0xFF#32 }
      | _ => c) })
  else if 0x200 ≤ off ∧ off < 0x280 then
    s.modCore core (fun k => { k with datas := listModify k.datas ((off - 0x200) / 0x20) (fun c =>
      match off % 0x20 with
      | 0 => { c with addr := new }
      | 8 => { c with mask := new }
      | 16 => { c with lanes := new }
      | _ => { c with ctrl := loW new &&& 0xFF#32 }) })
  else if 0x400 ≤ off ∧ off < 0x600 ∧ off % 0x20 = 0 then
    let q := (off - 0x400) / 0x20
    let s1 := if hitsLo mask then writeGctl core q (loW new) s else s
    if hitsHi mask then writeGstat core q (hiW v) s1 else s1
  else s

/-- Write an event counter (R390). -/
def writeCounter (off : Nat) (x : DWord) (k : Core) : Core :=
  match off with
  | 0x00 => { k with qclamp := x }
  | 0x08 => { k with droppf := x }
  | 0x10 => { k with fedrop := x }
  | 0x18 => { k with cesram := x }
  | 0x20 => { k with uesram := x }
  | _ => k

/-- Put words into a slot, keeping its format. An element whose two bytes are both written holds no longer the code that MLOADB wrote for a poisoned one
(R304). -/
def writeSlot (off mask : Nat) (x : DWord) (k : Core) : Core :=
  let b := Tab.getD k.slots (off / 0x2000) Slot.zero
  let words := (List.range 4).foldl (fun m i => Sparse.set 0#16 m (off % 0x2000 / 2 + i) (x.extractLsb' (16 * i) 16)) b.words
  let first := off % 0x2000 / 2
  let whole := fun (i : Nat) => decide (first ≤ i ∧ i < first + 4) && mask.testBit (2 * (i - first)) && mask.testBit (2 * (i - first) + 1)
  { k with slots := Tab.put k.slots (off / 0x2000) { b with words := words, bad := b.bad.filter (fun i => !whole i) } }

/-- Apply a word writer to the halves of a unit that the mask reaches. -/
def writeHalves (mask : Nat) (new : DWord) (put : Nat → Word → State → State) (s : State) : State :=
  let s1 := if hitsLo mask then put 0 (loW new) s else s
  if hitsHi mask then put 1 (hiW new) s1 else s1

/-- A byte written from outside the team to a shadowed place outlasts the transaction: it goes to the shadow too (R280, R323). -/
def Shadow.put (core : Nat) (x : Bool × Nat) (b : Byte) (h : Shadow) : Shadow :=
  if h.covers core x then { h with bytes := listModify h.bytes (x.2 - h.base) (fun _ => b) } else h

/-- Bytes of a unit are written to the shadows that cover them. -/
def putShadows (core off mask : Nat) (new : DWord) (s : State) : State :=
  { s with teams := s.teams.map (fun e => (e.1, { e.2 with tx := e.2.tx.map (fun t => { t with shadows := t.shadows.map (fun h =>
      (List.range 8).foldl (fun h i => match windowLocal (off + i) with
        | some x => if mask.testBit i then h.put core x (new.extractLsb' (8 * i) 8) else h
        | none => h) h) }) })) }

/-- Write a unit of a core window (R248, R250). -/
def writeWindow (core off mask : Nat) (v : DWord) (s : State) : State :=
  let new := merge (readWindow s core off) mask v
  if off < 0x40000 then writeHalves mask new (fun h x => writeLaneWord core (off / 4 + h) x) (putShadows core off mask new s)
  else if off < 0x42000 then writeHalves mask new (fun h x => writeGroupWord core ((off - 0x40000) / 4 + h) x) s
  else if 0x43000 ≤ off ∧ off < 0x44000 then writeDebug core (off - 0x43000) mask v s
  else if 0x44000 ≤ off ∧ off < 0x45000 then s.modCore core (writeCounter (off - 0x44000) new)
  else if 0x50000 ≤ off ∧ off < 0xB0000 then
    (List.range 8).foldl (fun s i =>
      if mask.testBit i ∧ localVisible s core (off - 0x50000 + i) then setLocal core (off - 0x50000 + i) (new.extractLsb' (8 * i) 8) s
      else s) (putShadows core off mask new s)
  else if 0xB0000 ≤ off ∧ off < 0xD0000 then
    writeHalves mask new (fun h x s => s.modCore core (fun k => { k with acc := Sparse.set 0#32 k.acc ((off - 0xB0000) / 4 + h) x })) s
  else if 0xD0000 ≤ off ∧ off < 0xE8000 then s.modCore core (writeSlot (off - 0xD0000) mask new)
  else s

/-! ### Clocks and the Smithy (R366 to R376) -/

/-- FE of a cluster changes: the clocks that its groups have waited are counted as they were (R29). -/
def countClocks (cluster : Nat) (s : State) : State :=
  { s with groups := s.groups.map (fun e =>
      if clusterOf e.2.core = cluster then (e.1, { e.2 with
        readyClocks := e.2.readyClocks + (s.time - e.2.readySince) * (s.cluster cluster).feeff, readySince := s.time })
      else e) }

/-- The clocks in force follow (R369). -/
def applyClocks (cluster : Nat) (s : State) : State :=
  let e := effectiveClocks s cluster
  (if e.1 = (s.cluster cluster).feeff then s else countClocks cluster s).modCluster cluster (fun c => { c with feeff := e.1, rateff := e.2.1, peff := e.2.2 })

/-- A CLKCTL value that R368 accepts. -/
def clkctlOk (v : Word) : Bool :=
  let fe := bitsAt v 0 6
  let r := bitsAt v 6 2
  decide (19 ≤ fe) && decide (fe ≤ 38) && r != 3 && bitsAt v 8 2 != 3 && bitsAt v 10 6 == 0 && bitsAt v 24 8 == 0
    && decide (fe * 2 ^ r ≤ 2 * 38)

/-- Write CLKCTL (R368, R372). -/
def writeClkctl (cluster : Nat) (v : Word) (s : State) : State :=
  s.modCluster cluster (fun c =>
    if clkctlOk v then
      (if bitsAt v 16 8 = 0 then { c with clkctl := v, cfloor := 0, below := 0 } else { c with clkctl := v })
    else { c with badw := true })

/-- The power registers take writes from the Smithy, or in host-assisted power mode from the host (R366). -/
def powerWriter (s : State) (who : Agent) : Bool := if s.mode.getLsbD 1 then who == .host else who == .smithy

/-- Write SMHB (R374): the watchdog restarts. -/
def writeSmhb (d : Nat) (v : Word) (s : State) : State :=
  s.modDie d (fun x => { x with smhb := v, smhbTime := s.time, expired := false })

/-- The one team of an HC3 launch on a lit core of a die, if it is the only one there (R376). -/
def migrant (s : State) (d core : Nat) : Option Nat :=
  match (s.teams.filter (fun e => e.2.core == core && !s.teamEmpty e.1)).filter (fun e => (s.launch e.2.launch).heat == 3) with
  | [e] => if dieOf core = d ∧ parityOf core = 0 ∧ core < 768 then some e.1 else none
  | _ => none

/-- A team may migrate (R226, R350). -/
def mayMigrate (s : State) (team : Nat) : Bool :=
  let t := s.team team
  s.groups.all (fun e => e.2.team != team || (s.blocked e.1 e.2 && !e.2.handler && !e.2.halted && !e.2.frozen))
    && s.cmds.all (fun e => e.2.team != team) && t.tx.isNone && (s.launch t.launch).ttab == 0

/-- A lit core that a team may move to (R350). -/
def migrateTo (s : State) (team d core : Nat) : Bool :=
  let t := s.team team
  let n := s.groups.countP (fun e => e.2.team == team)
  core != t.core && dieOf core == d && decide (core < 768) && parityOf core == 0 && coreOpen s t.launch core
    && roomFor s t.launch core n true && (findScratch (scratchOn s core) (s.launch t.launch).scratch 88).isSome
    && regsFor s t.launch (s.launch t.launch) n ((s.residents core).map (fun e => e.2))
    && s.groups.all (fun e => e.2.launch != t.launch || e.2.core != core)
    && decide (n ≤ ((List.range 16).filter (fun q => (s.slotGroup core q).isNone)).length)

/-- Move a team (R350): its groups leave their registers, the team moves, and those that were resident take slots there. -/
def migrate (team core : Nat) (s : State) : State :=
  let was := s.groups.filter (fun e => e.2.team == team && e.2.resident)
  let s := was.foldl (fun s e =>
    (leaveRegisters e.2 s).modGroup e.1 (fun g => { g with place := .evicted g.core, dues := [], badRegs := g.regPoison g.core s })) s
  let s := was.foldl (fun s e => acquireDev e.2.core s) s
  let s := { s with reqs := s.reqs.map (fun e => if e.2.team = team then (e.1, { e.2 with core := core }) else e) }
  let s := moveTeam team core (savePads team s)
  was.foldl (fun s e => reseat e.1 core s) (if was.isEmpty then s else loadPads team s)

/-- The implicit FENCE FULL of every resident group of a team has completed (R26). -/
def fencedToMove (s : State) (team : Nat) : Bool := s.groups.all (fun e => e.2.team != team || !e.2.resident || fencedForEviction s e.1 e.2)

/-- The migration request that MIGREQ holds (R350, R376): the team is moved once its fence has completed, BUSY until then, or the request is
dropped. DESIGN CHOICE, log 77. DESIGN CHOICE, log 124. DESIGN CHOICE, log 140. -/
def tryMigrate (d : Nat) (s : State) : State :=
  let v := (s.die d).migreq
  let dest := bitsAt v 10 10
  let drop := s.modDie d (fun x => { x with migDrop := true, migBusy := false })
  match migrant s d (bitsAt v 0 10) with
  | none => drop
  | some team =>
    if mayMigrate s team then
      match (List.range 192).find? (fun k => (dest == 0x3FF || dest == 192 * d + k) && migrateTo s team d (192 * d + k)) with
      | some k =>
        if fencedToMove s team then (migrate team (192 * d + k) s).modDie d (fun x => { x with migDone := true, migBusy := false })
        else s.modDie d (fun x => { x with migBusy := true })
      | none => drop
    else drop

/-- Write MIGREQ (R376). -/
def writeMigreq (d : Nat) (v : Word) (s : State) : State :=
  if (s.die d).migBusy then s else tryMigrate d (s.modDie d (fun x => { x with migreq := v &&& 0x000F_FFFF#32 }))

/-- The safe table begins on a die, if it is not in force: PREQ keeps its value until it ends (R374). DEDUCED, log 78. -/
def beginSafe (d : Nat) (s : State) : State :=
  if safeTable s d then s
  else { s with clusters := s.clusters.map (fun e =>
    if e.1 / 48 = d then (e.1, { e.2 with preq := bitsAt e.2.clkctl 8 2 }) else e) }

/-- Write SMCTL (R374): UPD. -/
def writeSmctl (d : Nat) (v : Word) (s : State) : State :=
  (if v.getLsbD 0 then beginSafe d s else s).modDie d (fun x => { x with upd := v.getLsbD 0 })

/-! ### Quotas and the assay table (R247, R330) -/

/-- Write L2QUOTA (R247): ignored whole where the quotas sum above 16. -/
def writeL2quota (d : Nat) (v : Word) (s : State) : State :=
  if bitsAt v 0 5 + bitsAt v 8 5 + bitsAt v 16 5 + bitsAt v 24 5 ≤ 16 then s.modDie d (fun x => { x with l2quota := v &&& 0x1F1F_1F1F#32 })
  else s

/-- Write ASSAYCLR (R330): writing 0 has no effect. -/
def writeAssayclr (v : Word) (s : State) : State := if v.getLsbD 0 then { s with assayclr := true } else s

/-! ### Pages to free (R263) -/

/-- Write FREEPG (R263). DONE and BAD of an earlier page stay as they are: DESIGN CHOICE, log 151. -/
def writeFreepg (d : Nat) (v : DWord) (s : State) : State :=
  if (s.die d).freeBusy then s
  else
    let pa := bitsAt v 0 48
    let bad := pa % (if v.getLsbD 63 then 0x200000 else 0x10000) != 0 || aperture pa != 0 || !s.populated pa || homeDie pa != d
    s.modDie d (fun x => { x with freepg := v &&& 0x8000_FFFF_FFFF_FFFF#64, freeBad := x.freeBad || bad, freeBusy := !bad })

/-! ### Device queues (R333, R378) -/

/-- A context descriptor whose fields are sound (R235, R332, R378): EN of a queue that names another stays 0. DESIGN CHOICE, log 125. -/
def ctxSound (s : State) (ctx : Nat) : Bool :=
  let f := fun (off n : Nat) => s.read (ctx + off) n
  ctx % 64 == 0 && decide (ctx < 2 ^ 39) && f 0 8 % 2 ^ 11 == 0 && decide (f 0 8 < 2 ^ 39) && f 0x10 2 != 0 && decide (f 0x12 1 < 4)
    && f 0x13 5 == 0
    && (let n := f 0x20 8
        decide (4 ≤ n) && decide (n < 16) && f 0x18 8 % (64 * 2 ^ n) == 0 && decide (f 0x18 8 < 2 ^ 39))
    && f 0x28 8 % 32 == 0 && decide (f 0x28 8 < 2 ^ 39) && f 0x30 8 % 8 == 0 && decide (f 0x30 8 < 2 ^ 39) && f 0x38 8 % 8 == 0
    && decide (f 0x38 8 < 2 ^ 39)

/-- Write the flags of a queue descriptor, LOG2N to HFLUSH (R333). DEDUCED, log 42. -/
def writeQueueFlags (q : Nat) (v : DWord) (s : State) : State :=
  let d := s.queue q
  if d.en then s
  else
    let n := bitsAt v 0 4
    let ok := decide (4 ≤ n) && decide (n ≤ 12) && d.base.toNat % (32 * 2 ^ n) == 0 && decide (d.base.toNat < 2 ^ 39)
      && ctxSound s d.ctx.toNat
    s.modQueue q (fun d => { d with log2n := n, prio := bitsAt v 4 2, en := v.getLsbD 6 && ok, devpost := v.getLsbD 7, hflush := v.getLsbD 8 })

/-- Write TAIL (R333): ignored for a queue fed by JPOST, and beyond the ring. -/
def writeTail (q : Nat) (t : Half) (s : State) : State :=
  let d := s.queue q
  if d.devpost ∨ 2 ^ d.log2n < (t - d.head).toNat then s else s.modQueue q (fun d => { d with tail := t })

/-- Write a unit of a queue descriptor. -/
def writeQueue (q off mask : Nat) (v : DWord) (s : State) : State :=
  let d := s.queue q
  let new := merge (readQueue d off) mask v
  match off with
  | 0 => if d.en then s else s.modQueue q (fun d => { d with base := new })
  | 8 => if d.en then s else s.modQueue q (fun d => { d with ctx := new })
  | 16 => writeQueueFlags q new s
  | _ => if mask % 4 = 0 then s else writeTail q (new.extractLsb' 0 16) s

/-! ### Start-up and attestation (R391, R392) -/

/-- Write BOOTCTL (R391): LEN is set, and GOB starts stage B once stage A is ready. -/
def writeBootctl (v : DWord) (s : State) : State :=
  let b := { s.boot with len := hiW v }
  if v.getLsbD 0 ∧ b.stage = 1 then { s with boot := { b with stage := 2, gob := false } }.message 1 2 else { s with boot := b }

/-- Write ATTCTL (R392): 1 copies the nonce and starts a report. DEDUCED, log 109. -/
def writeAttctl (v : Word) (s : State) : State :=
  if s.boot.attBusy ∨ v ≠ 1#32 then s
  else { s with boot := { s.boot with attBusy := true, attctl := 1, attNonce := s.boot.nonce } }

/-- Write CARTREL (R377). -/
def writeCartrel (v : Word) (s : State) : State :=
  let c := s.carter v.toNat
  if v.toNat < 32 ∧ c.frozen then
    match c.cmd with
    | some n => releaseCmd n s
    | none => s
  else s

/-! ### A die's memory page (R248) -/

/-- KILL is open to a launch, of the CTXID `src`, for launches of its own context (R357); a number that names no launch in progress sets BAD whoever
writes it. -/
def killOpen (s : State) (src : Option Nat) (v : Word) : Bool :=
  match src, Tab.get? s.launches v.toNat with
  | some c, some l => l.phase == .ended || c == l.ctxid
  | _, _ => true

/-- Write a register that die 0 alone has. -/
def writeDieZero (redo : Nat → State → State) (src : Option Nat) (off mask : Nat) (new v : DWord) (s : State) : State :=
  if 0x200 ≤ off ∧ off < 0x240 then
    { s with boot := { s.boot with nonce := listMapIdx (fun i x =>
        if 8 * (i / 8) = off - 0x200 ∧ mask.testBit (i % 8) then new.extractLsb' (8 * (i % 8)) 8 else x) 0 s.boot.nonce } }
  else if 0x1000 ≤ off ∧ off < 0x1800 then writeQueue ((off - 0x1000) / 0x20) (off % 0x20) mask v s
  else if !hitsLo mask ∧ off ≠ 0x188 then s
  else
    match off with
    | 0x040 => writeAssayclr (loW v) s
    | 0x080 => if killOpen s src (loW new) then kill (loW new) s else s
    | 0x088 => { s with killDone := s.killDone && !v.getLsbD 1, killBad := s.killBad && !v.getLsbD 2 }
    | 0x100 => { s with mode := new.extractLsb' 0 5 }
    | 0x108 => { s with weftSelf := bitsAt new 0 7, weftSize := bitsAt new 8 7 + 1 }
    | 0x110 => writeCartrel (loW v) s
    | 0x118 => redo (loW v).toNat s
    | 0x188 => writeBootctl (merge (BitVec.ofNat 64 (s.boot.len.toNat * 2 ^ 32)) mask v) s
    | 0x240 => writeAttctl (loW v) s
    | _ => s

/-- Write a unit of a die's memory page: by whom, and for a launch of which CTXID. `redo` is the walk that RESDONE asks for. -/
def writeDie (redo : Nat → State → State) (who : Agent) (src : Option Nat) (d off mask : Nat) (v : DWord) (s : State) : State :=
  let new := merge (readDie s d off) mask v
  let w := loW new
  if 0x4000 ≤ off ∧ off < 0x4600 then
    let c := 48 * d + (off - 0x4000) / 0x20
    if powerWriter s who then
      match off % 0x20 with
      | 0 => if hitsLo mask then writeClkctl c w s else s
      | 8 => s.modCluster c (fun x => { x with drpev := x.drpev && !v.getLsbD 16, badw := x.badw && !v.getLsbD 17 })
      | _ => s
    else s
  else
    match off with
    | 0x000 => writeL2quota d w s
    | 0x008 => s.modDie d (fun x => { x with tailtab := new })
    | 0x010 => s.modDie d (fun x => { x with replbase := new })
    | 0x018 => s.modDie d (fun x => { x with replsize := new })
    | 0x020 => writeFreepg d new s
    | 0x028 => s.modDie d (fun x => { x with freeDone := x.freeDone && !v.getLsbD 1, freeBad := x.freeBad && !v.getLsbD 2 })
    | 0x0C0 => if powerWriter s who ∧ hitsLo mask then writeSmhb d w s else s
    | 0x0C8 => if powerWriter s who ∧ hitsLo mask then writeSmctl d w s else s
    | 0x0D0 => if powerWriter s who ∧ hitsLo mask then writeMigreq d w s else s
    | 0x0D8 =>
      if powerWriter s who then s.modDie d (fun x => { x with migDone := x.migDone && !v.getLsbD 1, migDrop := x.migDrop && !v.getLsbD 2 })
      else s
    | 0x120 => s.modDie d (fun x => { x with cehbm := new })
    | 0x128 => s.modDie d (fun x => { x with uehbm := new })
    | _ => if d = 0 then writeDieZero redo src off mask new v s else s

/-! ### The aperture -/

/-- A clock or power register of a die's page (R366): the only registers that the Smithy writes. -/
def powerRegister (off : Nat) : Bool := (decide (0x4000 ≤ off) && decide (off < 0x4600)) || (decide (0x0C0 ≤ off) && decide (off < 0x0E0))

/-- Write one unit. -/
def writeUnit (redo : Nat → State → State) (who : Agent) (src : Option Nat) (pa mask : Nat) (v : DWord) (s : State) : State :=
  match onchipAt pa with
  | .window c off => if who = .smithy then s else writeWindow c off mask v s
  | .page d off => if who = .smithy ∧ !powerRegister off then s else writeDie redo who src d off mask v s
  | .rz => s

/-- Write bytes to the on-chip aperture, unit by unit in rising address; a word written whole loses its poison (R389). -/
def writeUnits (redo : Nat → State → State) (who : Agent) (src : Option Nat) (pa : Nat) (bytes : List Byte) (s : State) : State :=
  (if who = .smithy then id else clearPoison pa bytes.length) <| (List.range ((pa % 8 + bytes.length + 7) / 8)).foldl (fun s k =>
    let unit := pa - pa % 8 + 8 * k
    let here := (List.range 8).filter (fun i => decide (pa ≤ unit + i) && decide (unit + i < pa + bytes.length))
    let mask := (here.map (fun i => 2 ^ i)).sum
    let v := (here.map (fun i => (bytes.getD (unit + i - pa) 0#8).toNat * 256 ^ i)).sum
    writeUnit redo who src unit mask (BitVec.ofNat 64 v) s) s

/-- A completion word of the dispatcher in the on-chip aperture, for a launch of a CTXID. DEDUCED, log 39. -/
def writeCompletionUnit (ctxid pa : Nat) (bytes : List Byte) (s : State) : State :=
  writeUnits (fun _ s => s) .launch (some ctxid) pa bytes s

/-- A write of RESDONE makes the dispatcher walk again (R382). -/
def redoWalk (n : Nat) (s : State) : State := resdone writeCompletionUnit n s

/-- Write bytes to the on-chip aperture (R250); `src` is the CTXID of a launch that writes. -/
def writeOnchip (who : Agent) (src : Option Nat) (pa : Nat) (bytes : List Byte) (s : State) : State :=
  writeUnits redoWalk who src pa bytes s

end Sys2Proof.Machine
end

