-- ==== Sys2Proof/Machine/Access.lean ====
section
/-! DEFINITION. What every memory instruction shares: addresses (spec/07 R125), data comparators (spec/10 R229), the checks of
an access (spec/07 R129), the local address space (spec/12 R251), the overflow store with logs and shadows (spec/12 R252, R253,
spec/16 R322, R323), order among the requests of a thread and what releases and acquires wait for (spec/14 R267 to R275), the
copies that loads fill and read (R268 to R270), and how a load is performed. -/

namespace Sys2Proof.Machine

/-! ### Addresses (R125) -/

/-- The effective address of the FM forms in one lane. -/
def Ctx.ea (c : Ctx) (l : Nat) (a : BitVec 4) (o : BitVec 7) : DWord := c.aregAt l a + (c.val l o).signExtend 64
/-- The effective address of LDX and STX. -/
def Ctx.eax (c : Ctx) (l : Nat) (size : Nat) (a : BitVec 4) (o : BitVec 7) : DWord := c.val64 l o + BitVec.ofNat 64 (size * a.toNat)
/-- The local address of LDL, STL and the LAT forms. -/
def Ctx.la (c : Ctx) (l : Nat) (a : BitVec 4) (o : BitVec 7) : Nat := ((c.ea l a o).extractLsb' 0 32).toNat

/-! ### Data comparators (R229) -/

/-- The instruction raises an instruction-level cause (R213). -/
def Res.whole : Res → Bool
  | .trap c => c.why.rank == 0
  | _ => false

/-- Data comparators are tested after the instruction-level causes and before the lane-level causes (R229). DEDUCED, log 18. DEDUCED, log 113. -/
def Ctx.watched (c : Ctx) (s : State) (ts : List Touch) (r : Res) : Res :=
  if r.whole then r
  else
    match dataMatch s c.g ts with
    | some (n, m) => .halt n m
    | none => r

/-- The one access of a G-set instruction, which stands for every lane of its issue set. -/
def Ctx.groupTouch (c : Ctx) (va : DWord) (size : Nat) (rd wr : Bool) : List Touch :=
  c.lanes.map (fun l => { lane := l, va := va, size := size, rd := rd, wr := wr })

/-- The lanes' causes, if there are any, and else the effect (R100, R214). -/
def causesFirst (fs : List (Nat × Fail)) (r : Res) : Res :=
  match pickCause fs with
  | some c => .trap c
  | none => r

/-- A cause of a G-set access (R153). -/
def Ctx.raise (c : Ctx) (f : Fail) : Res := c.cause f.why f.detail f.addr

/-! ### Checks of one access (R126, R129) -/

/-- Alignment, then the checks of R243, then the range locks: PA, or the cause. -/
def accessVa (s : State) (g : Group) (a : Acc) (align size : Nat) (va : DWord) : Except Fail Nat :=
  if va.toNat % align ≠ 0 then .error ⟨.misaligned, 0, va⟩
  else
    match checkVa s (s.launch g.launch) g.keyperm a 0 va size with
    | .error f => .error f
    | .ok pa =>
      match rangeHit s g.core a.writes pa size with
      | some d => .error ⟨.rangeConflict, d, va⟩
      | none => .ok pa

/-- The failures among the lanes' results, and the addresses of the lanes that pass. -/
def errorsOf {α : Type} (xs : List (Nat × Except Fail α)) : List (Nat × Fail) :=
  xs.filterMap (fun x => match x.2 with
    | .error f => some (x.1, f)
    | .ok _ => none)
def okPa (x : Except Fail Nat) : Nat :=
  match x with
  | .ok pa => pa
  | .error _ => 0

/-! ### The local address space (R251) -/

/-- Where a local address lies: a byte offset in the local store of a core, or in the lane register file of a dark core. -/
structure LocalAt where
  core : Nat
  lrf : Bool
  off : Nat
deriving DecidableEq, Repr

/-- The place of `size` bytes at a local address of a group's team. -/
def localAt (s : State) (g : Group) (la size : Nat) : Option LocalAt :=
  let t := s.team g.team
  let l := s.launch g.launch
  let pad := l.scratch * 4096
  if la + size ≤ pad then some { core := t.core, lrf := false, off := t.spbase * 4096 + la }
  else if 0x100000 ≤ la ∧ la + size ≤ 0x100000 + pad then
    match t.odd with
    | some o => some { core := o, lrf := false, off := t.spodd * 4096 + (la - 0x100000) }
    | none => none
  else if 2 ≤ l.heat ∧ 0x200000 ≤ la ∧ la + size ≤ 0x260000 then
    some { core := partnerOf t.core, lrf := false, off := la - 0x200000 }
  else if 2 ≤ l.heat ∧ 0x260000 ≤ la ∧ la + size ≤ 0x2A0000 then
    some { core := partnerOf t.core, lrf := true, off := la - 0x260000 }
  else none

/-- The window address of a local place (R248, R251). -/
def LocalAt.pa (x : LocalAt) : Nat := 2 ^ 47 + x.core * 0x100000 + (if x.lrf then 0 else 0x50000) + x.off

/-- A byte of a local place. -/
def localByte (s : State) (x : LocalAt) (k : Nat) : Byte :=
  if x.lrf then (Sparse.get 0#32 (s.core x.core).lrf ((x.off + k) / 4)).extractLsb' (8 * ((x.off + k) % 4)) 8
  else Sparse.get 0#8 (s.core x.core).lstore (x.off + k)

/-- `n` bytes of a local place. -/
def localBytes (s : State) (x : LocalAt) (n : Nat) : List Byte := (List.range n).map (localByte s x)

/-- Put a byte into a 32-bit word. -/
def putByte (w : Word) (k : Nat) (b : Byte) : Word :=
  (w &&& ~~~(BitVec.ofNat 32 (0xFF * 256 ^ k))) ||| BitVec.ofNat 32 (b.toNat * 256 ^ k)

/-- Write bytes at a local place. -/
def localPoke (x : LocalAt) (bytes : List Byte) (s : State) : State :=
  clearPoison x.pa bytes.length <| bytes.zipIdx.foldl (fun s e =>
    if x.lrf then
      s.modCore x.core (fun k =>
        let w := (x.off + e.2) / 4
        { k with lrf := Sparse.set 0#32 k.lrf w (putByte (Sparse.get 0#32 k.lrf w) ((x.off + e.2) % 4) e.1) })
    else setLocal x.core (x.off + e.2) e.1 s) s

/-- The checks of a local access (R129, R251): alignment, the local address space, the range locks on its window; and the poison that a
read meets (R389). DESIGN CHOICE, log 16. -/
def accessLocal (s : State) (g : Group) (wr : Bool) (align size la : Nat) : Except Fail LocalAt :=
  let va := BitVec.ofNat 64 la
  if la % align ≠ 0 then .error ⟨.misaligned, 0, va⟩
  else
    match localAt s g la size with
    | none => .error ⟨.outOfLease, 3, va⟩
    | some x =>
      match rangeHit s g.core wr x.pa size with
      | some d => .error ⟨.rangeConflict, d, va⟩
      | none => if !wr && s.poisoned x.pa size then .error ⟨.poisoned, 0, va⟩ else .ok x

/-- An instruction that reads a block of 64 bytes at a local address: the comparators see the block (R229), once the instruction-level causes that its
contents raise are out of the way. -/
def Ctx.watchBlock (c : Ctx) (s : State) (la : Nat) (r : Res) : Res :=
  c.watched s (c.groupTouch (BitVec.ofNat 64 la) 64 true false) r

/-- Alignment and place of a block that an instruction reads from the local address space (R153, R172, R180). -/
def localBlock (s : State) (c : Ctx) (la size : Nat) : Except Fail LocalAt :=
  if la % 64 ≠ 0 then .error ⟨.misaligned, 0, BitVec.ofNat 64 la⟩
  else
    match localAt s c.g la size with
    | none => .error ⟨.outOfLease, 3, BitVec.ofNat 64 la⟩
    | some x => if s.poisoned x.pa size then .error ⟨.poisoned, 0, BitVec.ofNat 64 la⟩ else .ok x

/-! ### The overflow store (R252, R253) -/

/-- lo and hi of R253, in bytes. -/
def overflowLo (s : State) (core : Nat) : Nat :=
  ((s.residents core).map (fun e => (s.launch e.2.launch).ovmin)).foldl max 0 * 32768
def overflowHi (s : State) (core : Nat) : Nat :=
  let small := ((s.residents core).map (fun e => (s.launch e.2.launch).ovmax)).foldl min 11 * 32768
  let pads := ((scratchOn s core).map (fun u => u.2)).sum * 4096
  max (overflowLo s core) (min small (393216 - pads - 32768))

/-- The issue sets of a group that wait with a lane parked or polled at a full/empty access (R25, R252): each has a wait record. -/
def feWaiting (s : State) (gid : Nat) : Nat :=
  (s.reqs.foldl (fun (seen : List (DWord × LaneSet × Nat)) e => match e.2.kind with
    | .fe _ _ _ _ _ _ (.parked _) | .fe _ _ _ _ _ _ (.polled _) =>
      let x := (e.2.pc, e.2.lanes, e.2.time)
      if e.2.group = gid ∧ !seen.contains x then x :: seen else seen
    | _ => seen) []).length

/-- Bytes that wait records beyond the 32 on chip, store logs and shadows take in a core's overflow store. DESIGN CHOICE, log 8. -/
def overflowUsed (s : State) (core : Nat) : Nat :=
  let waits := ((s.residents core).map (fun e => e.2.blocks.length + feWaiting s e.1)).sum
  let logs := (s.teams.map (fun e => match e.2.tx with
    | some t => Tab.getD t.logBytes core 0 + 4096 * t.shadows.countP (fun x => x.holder == core)
    | none => 0)).sum
  (waits - 32) * Config.waitRecordBytes + logs

/-- A log or shadow of `n` more bytes fits. -/
def overflowFits (s : State) (core n : Nat) : Bool := decide (overflowUsed s core + n ≤ overflowHi s core)

/-- The overflow store grows at once to what it holds, up to hi (R253). -/
def overflowGrow (core : Nat) (s : State) : State :=
  let need := (min (overflowUsed s core) (overflowHi s core) + 32767) / 32768
  s.modCore core (fun k => { k with ov := max k.ov need })

/-! ### Transactions (R128, R322, R323) -/

/-- The open transaction of the issuing team. -/
def Ctx.tx (c : Ctx) (s : State) : Option Tx := (c.team s).tx

/-- Change the open transaction of a team. -/
def modTx (team : Nat) (f : Tx → Tx) (s : State) : State := s.modTeam team (fun t => { t with tx := t.tx.map f })

/-- Add entries to the store log, of 16 bytes each, on the core that made the access (R322). -/
def addLog (team core : Nat) (es : List LogEntry) (s : State) : State :=
  overflowGrow core (modTx team (fun t =>
    { t with log := t.log ++ es, logBytes := Tab.put t.logBytes core (Tab.getD t.logBytes core 0 + 16 * es.length) }) s)

/-- The 4 KiB segment of a local place. -/
def segmentOf (x : LocalAt) : Nat := x.off / 4096 * 4096

/-- A segment of the open transaction has its shadow. -/
def Tx.shadowed (t : Tx) (x : LocalAt) : Bool :=
  t.shadows.any (fun h => h.core == x.core && h.lrf == x.lrf && h.base == segmentOf x)

/-- The segments, not yet shadowed, that writes at these places touch, each once with the first lane that needs it. -/
def freshSegments (t : Tx) (xs : List (Nat × LocalAt)) : List (Nat × LocalAt) :=
  xs.foldl (fun acc x =>
    if t.shadowed x.2 || acc.any (fun y => y.2.core == x.2.core && y.2.lrf == x.2.lrf && segmentOf y.2 == segmentOf x.2) then acc
    else acc ++ [x]) []

/-- The poisoned 8-byte words of the segment of a local place, by their place in it (R389). -/
def segmentPoison (s : State) (x : LocalAt) : NatSet :=
  let w0 := segmentPa x.core x.lrf (segmentOf x) / 8
  (s.poison.filter (fun w => decide (w0 ≤ w) && decide (w < w0 + 512))).map (fun w => w - w0)

/-- Make the shadows that local writes need (R323), held in the overflow store of core `holder`. -/
def makeShadows (team holder : Nat) (xs : List (Nat × LocalAt)) (s : State) : State :=
  match (s.team team).tx with
  | none => s
  | some t =>
    (freshSegments t xs).foldl (fun s x =>
      overflowGrow holder (modTx team (fun t => { t with shadows := t.shadows ++
        [{ holder := holder, core := x.2.core, lrf := x.2.lrf, base := segmentOf x.2,
           bytes := localBytes s { x.2 with off := segmentOf x.2 } 4096, bad := segmentPoison s x.2 }] }) s)) s

/-- Two local places lie in one 4 KiB segment. -/
def LocalAt.sameSegment (x y : LocalAt) : Bool := x.core == y.core && x.lrf == y.lrf && segmentOf x == segmentOf y

/-- tx_capacity of local writes (R214, R323): every lane that writes to a segment whose shadow does not fit. -/
def shadowFails (s : State) (c : Ctx) (xs : List (Nat × LocalAt)) (addr : Nat → DWord) : List (Nat × Fail) :=
  match c.tx s with
  | none => []
  | some t =>
    let full := (freshSegments t xs).zipIdx.filterMap (fun e => if overflowFits s c.core (4096 * (e.2 + 1)) then none else some e.1.2)
    xs.filterMap (fun x => if full.any x.2.sameSegment then some (x.1, ⟨.txCapacity, 1, addr x.1⟩) else none)

/-! ### Requests in flight and a thread's program order (R127, R267) -/

/-- A request whose access is performed in one step later on, other than a plain store: a later access of its threads to the same
bytes waits for it. -/
def ReqKind.single : ReqKind → Bool
  | .load _ _ | .atomic _ _ _ _ _ _ => true
  | .fe k _ _ _ _ _ _ => !feWaits k
  | _ => false

/-- An access waits at issue for an earlier one of its threads to the same bytes, or for its team's commit (R127, R281). DEDUCED, log 15. -/
def clash (s : State) (c : Ctx) (ps : List (Nat × Nat)) : Bool :=
  s.reqs.any (fun e => (e.2.group == c.site.gid && e.2.lanes &&& c.mask != 0#64 && e.2.kind.single && e.2.meets ps)
    || (e.2.team == c.g.team && (match e.2.kind with
      | .commit _ _ _ => e.2.meets ps
      | _ => false)))

/-! ### What releases and acquires wait for (R168, R271, R272) -/

/-- Paths named by the PATHS mask of a FENCE (R167). -/
def pathBit : Path → Nat
  | .gen => 0
  | .con => 1
  | .tile => 2
  | .gath => 3

/-- The requests of the threads of an issue set. -/
def requestsOf (s : State) (gid : Nat) (lanes : LaneSet) : List Req :=
  (s.reqs.filter (fun e => e.2.ofThreads gid lanes)).map (fun e => e.2)

/-- The prior writes of these threads on the general path are where a release at a scope asks them to be (R271, R274). -/
def storesDone (s : State) (gid : Nat) (lanes : LaneSet) (scope : Nat) : Bool :=
  (requestsOf s gid lanes).all (fun r => r.visibleAt s.time scope)

/-- A request is a read of the threads that has not returned, on the paths named. -/
def Req.reading (r : Req) (paths : Path → Bool) : Bool :=
  match r.kind with
  | .load p _ => paths p
  | .atomic _ _ _ _ _ reg => paths .gen && reg.isSome
  | .fe k _ _ _ _ _ _ => paths .gen && !feWaits k
  | .append _ _ _ _ _ _ => paths .gen
  | _ => false

/-- Every earlier read of the threads has returned (R271). -/
def readsReturned (s : State) (gid : Nat) (lanes : LaneSet) (paths : Path → Bool) : Bool :=
  (requestsOf s gid lanes).all (fun r => !r.reading paths)

/-- All paths. -/
def allPaths : Path → Bool := fun _ => true

/-- A release at a scope on all paths, for the issuing threads, may complete (R271, R272, R275, R317). A prior read has reached every
visibility point once it has returned (DEDUCED, log entry 37). DEDUCED, log 14. -/
def Ctx.mayRelease (c : Ctx) (s : State) (scope : Nat) : Bool :=
  storesDone s c.site.gid c.mask scope && earlyDone s c.site.gid c.mask scope && loomsDone s c.site.gid c.mask
    && readsReturned s c.site.gid c.mask allPaths

/-- An acquire of the issuing threads on all paths may complete (R271). -/
def Ctx.mayAcquire (c : Ctx) (s : State) : Bool :=
  readsReturned s c.site.gid c.mask allPaths && loomReadsDone s c.site.gid c.mask

/-! ### Copies (R268, R270, R287) -/

/-- A byte over which a team's own logged stores lie (R128): a logged reduction is not seen. -/
def logByte (log : List LogEntry) (pa : Nat) (b : Byte) : Byte :=
  log.foldl (fun b e =>
    let bs := match e.op with
      | .write x => x.map some
      | .masked x => x
      | .fill d => (leBytes 8 d.toNat).map some
      | .reduce _ _ _ | .tile _ => []
    if e.pa ≤ pa then ((bs.getD (pa - e.pa) none).getD b) else b) b

/-- What a team itself reads: its own shadows hide nothing from it (R280). -/
def State.ownView (team : Nat) (s : State) : State := modTx team (fun t => { t with shadows := [] }) s

/-- The bytes of one part of a load. -/
def partBytes (s : State) (team core : Nat) (p : Path) (x : LoadPart) : List Byte :=
  match (s.team team).tx with
  | none => (List.range x.size).map (fun k => loadByte s core p (x.pa + k))
  | some t => (List.range x.size).map (fun k => logByte t.log (x.pa + k) (loadByte (s.ownView team) core p (x.pa + k)))

/-- The longest lease of a holder, in ns (R268). -/
def Holder.longest : Holder → Nat
  | .l1 _ => 1024
  | .cluster _ => 2048
  | .guest _ => 4096
  | .peer _ => 0

/-- The lines that a core's L1 (R248, R253) or a cluster cache, of 1 MiB (R2), has room for. -/
def Holder.room (s : State) : Holder → Option Nat
  | .l1 c => some ((393216 - ((scratchOn s c).map (fun u => u.2)).sum * 4096 - (s.core c).ov * 32768) / 128)
  | .cluster _ => some 8192
  | .guest _ | .peer _ => none

/-- The numbers of the copies that a holder has. -/
def copiesOf (s : State) (h : Holder) : List Nat := (s.copies.filter (fun e => e.2.holder == h)).map (fun e => e.1)

/-- A copy of a cache leaves it, whichever (R2). -/
def dropOne (h : Holder) (s : State) : State :=
  let mine := copiesOf s h
  { s with copies := Tab.del s.copies (mine.getD (Config.replaced s.free % mine.length) 0), free := s.free + 1 }

/-- Room for one more line in a cache: while it has none, a copy leaves it. DESIGN CHOICE, log 145. -/
def makeRoom (h : Holder) (s : State) : State :=
  match h.room s with
  | some n => (List.range ((copiesOf s h).length + 1 - n)).foldl (fun s _ => dropOne h s) s
  | none => s

/-- A holder keeps a copy of a line for at most `lease` ns (R268): what the nearest copy behind it or the home gives, for no longer
than that copy lasts. A line with poison, and lines of a peer that gives no answer and of the host and on-chip apertures, are not kept. -/
def install (h : Holder) (core : Nat) (p : Path) (pa lease : Nat) (s : State) : State :=
  let base := pa - pa % 128
  if aperture pa = 2 ∨ aperture pa = 3 ∨ !peerAnswers s pa ∨ s.poisoned base 128 ∨ (copyAt s h p (lineOf pa)).isSome then s
  else
    let behind := (holdersFor core pa).filter (fun x => match h, x with
      | .l1 _, .l1 _ => false
      | .l1 _, _ => true
      | .cluster _, .guest _ | .cluster _, .peer _ => true
      | _, _ => false)
    let limit := s.time + min lease h.longest
    let expiry := match (behind.filterMap (fun x => copyAt s x p (lineOf pa))).head? with
      | some k => (match k.holder with
        | .peer _ => limit
        | _ => min limit k.expiry)
      | none => limit
    let peer := match h with
      | .peer _ => true
      | _ => false
    if expiry ≤ s.time ∧ !peer then s
    else
      let data := (List.range 128).map (fun k => byteFrom s core behind (if h.near then some (clusterOf core) else none) p (base + k))
      let s0 := makeRoom h s
      let s1 : State := { s0 with
        copies := Tab.put s0.copies s.uid { holder := h, path := p, line := lineOf pa, data := data, expiry := expiry }, uid := s.uid + 1 }
      if peer then s1 else grantLease (lineOf pa) expiry s1

/-- Bring a line into some of a core's holders, the farthest first. -/
def bring (hs : List Holder) (core : Nat) (p : Path) (pa lease : Nat) (s : State) : State :=
  hs.reverse.foldl (fun s h => install h core p pa lease s) s

/-- A store changes the copies of its own core and cluster on the general path as it issues (R270). -/
def updateCopies (core : Nat) (ps : List StorePart) (s : State) : State :=
  { s with copies := s.copies.map (fun e =>
      if e.2.path = .gen ∧ (e.2.holder = .l1 core ∨ e.2.holder = .cluster (clusterOf core)) then
        (e.1, ps.foldl (fun k x =>
          if lineOf x.pa = k.line then
            { k with data := x.bytes.zipIdx.foldl (fun d b => listModify d (x.pa % 128 + b.2) (fun _ => b.1)) k.data }
          else k) e.2)
      else e) }

/-! ### Writes at their homes (R250, R269) -/

/-- Bytes of one 8-byte word are written where their address lies: in a home slice, in host memory, or in the on-chip aperture (R250). -/
def placeHome (team launch pa : Nat) (bytes : List Byte) (s : State) : State :=
  match aperture pa with
  | 0 => wake pa (tagLine team pa (s.poke pa bytes))
  | 1 => wake pa (s.poke pa bytes)
  | 2 => writeOnchip .launch (some (s.launch launch).ctxid) pa bytes s
  | _ => s.poke pa bytes

/-- The completion time of a write at an address (R269). -/
def writeCompletion (s : State) (pa : Nat) : Nat := if aperture pa ≤ 1 then completionOf s pa else s.time

/-! ### Spills and refills (R21) -/

/-- A spill store is performed where its address lies with the instruction that needs it, and what a release awaits of it stays behind (R265, R269,
R271); to a peer that gives no answer it is sent as any store (R384). -/
def spillStore (c : Ctx) (lane : Nat) (va : DWord) (pa : Nat) (v : DWord) (s : State) : State :=
  let r := fun (ps : List StorePart) => { c.req s [] (.store ps) with lanes := LaneSet.one lane }
  if !peerAnswers s pa then s.addReq (r [{ lane := some lane, va := va, pa := pa, bytes := leBytes 8 v.toNat }])
  else
    residue (r []) (writeCompletion s pa) (aperture pa == 3) (aperture pa == 1)
      (dropOwn c.core pa (placeHome c.g.team c.g.launch pa (leBytes 8 v.toNat) s))

/-! ### Loads (R130, R178) -/

/-- The registers that a loaded value of `size` bytes fills: a sign-extended one where the form says so. -/
def loadWrites (x : LoadPart) (bytes : List Byte) : List RegWrite :=
  let n := leNat bytes
  let w := fun (k : Nat) (v : Word) => ({ lane := x.lane, reg := x.reg + k, val := v } : RegWrite)
  if x.size ≤ 4 then
    [w 0 (if x.signed then (if x.size = 1 then (BitVec.ofNat 8 n).signExtend 32 else (BitVec.ofNat 16 n).signExtend 32)
      else BitVec.ofNat 32 n)]
  else (List.range (x.size / 4)).map (fun k => w k (BitVec.ofNat 32 (n / 2 ^ (32 * k))))

/-- A load that a peer device or the host must serve (R25, R287). -/
def servedAfar (s : State) (core : Nat) (p : Path) (pa : Nat) : Bool :=
  aperture pa == 3 || (aperture pa == 1 && (supplier s core p pa).isNone)

/-- Post a load (R63, R130): its destinations are pending until it lands; served from afar, it blocks its issue set (R25). -/
def postLoad (c : Ctx) (p : Path) (dest : List Reg) (parts : List LoadPart) (s : State) : State :=
  let n := s.uid
  let afar := parts.any (fun x => servedAfar s c.core p x.pa)
  let s := s.addReq (c.req s dest (.load p parts))
  if afar then { s.modGroup c.site.gid (fun g => g.block s.uid c.mask c.site.pc c.site.next (.load n)) with uid := s.uid + 1 } else s

/-- A load of a handler that a peer device or the host would serve, in a lane whose own checks pass, raises handler_block, which is an instruction-level
cause (R154, R213). DEDUCED, log 113. -/
def Ctx.blocksHandler (c : Ctx) (s : State) (p : Path) (xs : List (Except Fail Nat)) : Bool :=
  c.g.handler && xs.any (fun x => match x with
    | .ok pa => servedAfar s c.core p pa
    | .error _ => false)

/-- Bytes of a size code Z (R51). -/
def sizeOf (z : BitVec 3) : Nat := 2 ^ z.toNat

/-- The registers that a value of `size` bytes takes from a register on. -/
def destRegs (r : Nat → Reg) (d size : Nat) : List Reg := (List.range ((size + 3) / 4)).map (fun k => r (d + k))

/-- The load of one instruction at an address for each issuing lane (R129 to R133). -/
def laneLoad (p : Path) (size : Nat) (signed : Bool) (d : BitVec 7) (ea : Nat → DWord) (c : Ctx) (s : State) : Res :=
  c.watched s (c.lanes.map (fun l => { lane := l, va := ea l, size := size, rd := true, wr := false }))
    (let xs := c.lanes.map (fun l => (l, accessVa s c.g .load size size (ea l)))
     if c.blocksHandler s p (xs.map (fun x => x.2)) then c.cause .handlerBlock 0 0#64
     else causesFirst (errorsOf xs)
      (let parts := xs.map (fun x => ({ lane := some x.1, reg := d.toNat, va := ea x.1, pa := okPa x.2, size := size, signed := signed } : LoadPart))
       if clash s c (parts.map (fun x => (x.pa, x.size))) then .wait
       else .ok (postLoad c p (destRegs .v d.toNat size) parts s)))

/-- A uniform load (R178). -/
def uniformLoad (p : Path) (size : Nat) (d : BitVec 7) (ea : DWord) (c : Ctx) (s : State) : Res :=
  c.watched s (c.groupTouch ea size true false)
    (match accessVa s c.g .load size size ea with
     | .error f => c.raise f
     | .ok pa =>
       if c.blocksHandler s p [.ok pa] then c.cause .handlerBlock 0 0#64
       else if clash s c [(pa, size)] then .wait
       else .ok (postLoad c p (destRegs .g d.toNat size)
         [{ lane := none, reg := d.toNat, va := ea, pa := pa, size := size, signed := false }] s))

/-! ### Stores (R130, R178, R322) -/

/-- The parts of a store: at most eight bytes of one aligned 8-byte word each (R126). -/
def storeParts (lane : Option Nat) (va : DWord) (pa : Nat) (bytes : List Byte) : List StorePart :=
  if bytes.length ≤ 8 then [{ lane := lane, va := va, pa := pa, bytes := bytes }]
  else [{ lane := lane, va := va, pa := pa, bytes := bytes.take 8 },
        { lane := lane, va := va + 8#64, pa := pa + 8, bytes := bytes.drop 8 }]

/-- Send a store: its copies see it at once (R270), its home later. -/
def postStore (c : Ctx) (parts : List StorePart) (s : State) : State :=
  (updateCopies c.core parts s).addReq (c.req s [] (.store parts))

/-- What a transaction does to a store (R128, R322): the lanes it refuses, in order, with the log bytes taken before each. -/
def logFails (s : State) (c : Ctx) (xs : List (Nat × DWord × Nat × Nat)) : List (Nat × Fail) :=
  match c.tx s with
  | none => []
  | some _ =>
    (xs.foldl (fun (acc : List (Nat × Fail) × Nat) x =>
      let n := acc.2 + 16 * x.2.2.2
      if aperture x.2.2.1 ≠ 0 then ((x.1, ⟨.txForbidden, 0, x.2.1⟩) :: acc.1, acc.2)
      else if overflowFits s c.core n then (acc.1, n)
      else ((x.1, ⟨.txCapacity, 0, x.2.1⟩) :: acc.1, n)) ([], 0)).1.reverse

/-- An entry of the store log for an access of the issuing group. -/
def Ctx.entry (c : Ctx) (lane : Option Nat) (pa : Nat) (va : DWord) (op : LogOp) : LogEntry :=
  { core := c.core, group := c.site.gid, lane := lane, pa := pa, va := va, op := op }

/-- Entries of the store log for store parts. -/
def logParts (c : Ctx) (parts : List StorePart) : List LogEntry := parts.map (fun x => c.entry x.lane x.pa x.va (.write x.bytes))

/-- Store, or log inside a transaction. -/
def storeOrLog (c : Ctx) (parts : List StorePart) (s : State) : State :=
  if (c.tx s).isSome then addLog c.g.team c.core (logParts c parts) s else postStore c parts s

/-- The bytes that a store of a size takes from registers, the lowest first. -/
def regBytes (reg : Nat → Word) (size : Nat) : List Byte :=
  (List.range size).map (fun k => (reg (k / 4)).extractLsb' (8 * (k % 4)) 8)

/-- The store of one instruction at an address for each issuing lane (R129, R130, R133). -/
def laneStore (size : Nat) (d : BitVec 7) (ea : Nat → DWord) (c : Ctx) (s : State) : Res :=
  c.watched s (c.lanes.map (fun l => { lane := l, va := ea l, size := size, rd := false, wr := true }))
    (let xs := c.lanes.map (fun l => (l, accessVa s c.g .store size size (ea l)))
     causesFirst (errorsOf xs)
      (let n := if size = 16 then 2 else 1
       causesFirst (logFails s c (xs.map (fun x => (x.1, ea x.1, okPa x.2, n))))
        (let parts := xs.flatMap (fun x => storeParts (some x.1) (ea x.1) (okPa x.2) (regBytes (fun k => c.valAt x.1 d k) size))
         if clash s c (parts.map (fun x => (x.pa, x.bytes.length))) then .wait else .ok (storeOrLog c parts s))))

/-- A uniform store (R178). -/
def uniformStore (size : Nat) (d : BitVec 7) (ea : DWord) (c : Ctx) (s : State) : Res :=
  c.watched s (c.groupTouch ea size false true)
    (match accessVa s c.g .store size size ea with
     | .error f => c.raise f
     | .ok pa =>
       match logFails s c [(0, ea, pa, if size = 16 then 2 else 1)] with
       | x :: _ => c.raise x.2
       | [] =>
         if clash s c [(pa, size)] then .wait
         else .ok (storeOrLog c (storeParts none ea pa (regBytes (fun k => c.gAt (d.toNat + k)) size)) s))

end Sys2Proof.Machine
end

