-- ==== Sys2Proof/Machine/Control.lean ====
section
/-! DEFINITION. Control: branches, calls, meetings, ends of threads, traps and breakpoints of the L-set and the G-set (spec/07 R145
to R151, spec/08 R202 to R205). -/

namespace Sys2Proof.Machine

/-- A branch target (R37): the address of the word that holds the offset, plus 4 × imm. -/
def Ctx.target (c : Ctx) (imm : DWord) : DWord := c.site.next - 4#64 + (imm <<< 2)

/-- Set the PC of some of the issuing threads. -/
def setPcs (c : Ctx) (lanes : LaneSet) (pc : Nat → DWord) (s : State) : State :=
  s.modGroup c.site.gid (fun g => g.modLanes lanes (fun l t => { t with pc := pc l }))

/-- A branch of the issuing threads whose lane a test takes (R145). -/
def branchWhere (p : Nat → Bool) (imm : DWord) (c : Ctx) (s : State) : Res :=
  .ok (setPcs c (LaneSet.of (c.lanes.filter p)) (fun _ => c.target imm) s)

/-- The spills that a push needs, as data comparators see them. -/
def spillTouches (c : Ctx) (s : State) : List Touch :=
  c.lanes.filterMap (fun l =>
    let t := c.g.thread l
    if t.stack.length < 4 then none
    else some { lane := l, va := BitVec.ofNat 64 (spillSlot (c.launch s) c.g l + 8 * t.spilled), size := 8, rd := false, wr := true })

/-- The refills that a pop needs. -/
def refillTouches (c : Ctx) (s : State) : List Touch := c.lanes.filterMap (fun l => refillTouch s c.g l (c.g.thread l))

/-- Push an entry in every issuing lane (R21), with the spills it needs, and change the threads after it. -/
def pushAll (entry : Thread → StackEntry) (after : Nat → Thread → Thread) (c : Ctx) (s : State) : Res :=
  c.watched s (spillTouches c s)
    (let xs := c.lanes.map (fun l => (l, push s c.g l (c.g.thread l) (entry (c.g.thread l))))
     causesFirst (errorsOf xs)
      (let stores := xs.filterMap (fun x => match x.2 with
         | .ok (_, some w) => some (x.1, w)
         | _ => none)
       if spillWaits s c.site.gid c.g (stores.map (fun w => (w.1, w.2.2.1))) then .wait
       else
         let s := stores.foldl (fun s w => spillStore c w.1 w.2.1 w.2.2.1 w.2.2.2 s) s
         .ok (s.modGroup c.site.gid (fun g => xs.foldl (fun g x => match x.2 with
           | .ok (t, _) => g.modThread x.1 (fun u => after x.1 { u with stack := t.stack, spilled := t.spilled })
           | .error _ => g) g))))

/-- BRA under an optional prefix (R145). -/
def formBra (p : Prefix) (st : BitVec 2) (i : BitVec 21) (s : State) : Host.Outcome State Fault Refusal :=
  issue (.bra st i) p (branchWhere (fun _ => true) (immS p i)) s

/-- BRA (R145). -/
def execBra (st : BitVec 2) (i : BitVec 21) (s : State) : Host.Outcome State Fault Refusal := formBra none st i s

/-- BNZ under an optional prefix (R145). -/
def formBnz (p : Prefix) (st : BitVec 2) (cc : BitVec 7) (i : BitVec 14) (s : State) : Host.Outcome State Fault Refusal :=
  issue (.bnz st cc i) p (fun c s => branchWhere (fun l => c.val l cc != 0#32) (immS p i) c s) s

/-- BNZ (R145). -/
def execBnz (st : BitVec 2) (cc : BitVec 7) (i : BitVec 14) (s : State) : Host.Outcome State Fault Refusal := formBnz none st cc i s

/-- BZ under an optional prefix (R145). -/
def formBz (p : Prefix) (st : BitVec 2) (cc : BitVec 7) (i : BitVec 14) (s : State) : Host.Outcome State Fault Refusal :=
  issue (.bz st cc i) p (fun c s => branchWhere (fun l => c.val l cc == 0#32) (immS p i) c s) s

/-- BZ (R145). -/
def execBz (st : BitVec 2) (cc : BitVec 7) (i : BitVec 14) (s : State) : Host.Outcome State Fault Refusal := formBz none st cc i s

/-- CALL under an optional prefix (R146). -/
def formCall (p : Prefix) (st : BitVec 2) (i : BitVec 21) (s : State) : Host.Outcome State Fault Refusal :=
  issue (.call st i) p (fun c s =>
    pushAll (fun _ => mkEntry false c.site.next) (fun _ t => { t with pc := c.target (immS p i) }) c s) s

/-- CALL (R146). -/
def execCall (st : BitVec 2) (i : BitVec 21) (s : State) : Host.Outcome State Fault Refusal := formCall none st i s

/-- Targets of CALLR and JMPR whose bits [1:0] are not zero (R146, R148). -/
def badTargets (c : Ctx) (a : BitVec 7) : List (Nat × Fail) :=
  c.lanes.filterMap (fun l => if (c.val64 l a) &&& 3#64 = 0#64 then none else some (l, ⟨.misaligned, 1, c.val64 l a⟩))

/-- CALLR (R146). -/
def execCallr (st : BitVec 2) (a : BitVec 7) (s : State) : Host.Outcome State Fault Refusal :=
  issue (.callr st a) none (fun c s =>
    c.watched s (spillTouches c s)
      (causesFirst (badTargets c a)
        (pushAll (fun _ => mkEntry false c.site.next) (fun l t => { t with pc := c.val64 l a }) c s))) s

/-- RET (R147). -/
def execRet (st : BitVec 2) (s : State) : Host.Outcome State Fault Refusal :=
  issue (.ret st) none (fun c s =>
    if spillWaits s c.site.gid c.g ((refillTouches c s).filterMap (refillPa s c.g)) then .wait
    else
    let xs := c.lanes.map (fun l => (l, topEntry s c.g l (c.g.thread l)))
    let bad := xs.any (fun x => match x.2 with
      | .ok none => true
      | .ok (some (e, _)) => entryMeeting e || !entrySound e
      | .error _ => false)
    if bad then c.illegal 9
    else
      c.watched s (refillTouches c s)
        (causesFirst (errorsOf xs)
          (.ok (s.modGroup c.site.gid (fun g => xs.foldl (fun g x => match x.2 with
            | .ok (some (e, t)) => g.modThread x.1 (fun u => { u with stack := t.stack, spilled := t.spilled, early := t.early, seen := t.seen, pc := entryAddr e })
            | _ => g) g))))) s

/-- JMPR (R148). -/
def execJmpr (st : BitVec 2) (a : BitVec 7) (s : State) : Host.Outcome State Fault Refusal :=
  issue (.jmpr st a) none (fun c s => causesFirst (badTargets c a) (.ok (setPcs c c.mask (fun l => c.val64 l a) s))) s

/-- MEET under an optional prefix (R149). -/
def formMeet (p : Prefix) (st : BitVec 2) (i : BitVec 21) (s : State) : Host.Outcome State Fault Refusal :=
  issue (.meet st i) p (fun c s =>
    pushAll (fun t => mkEntry true t.meet)
      (fun _ t => { t with md := t.md + 1, record := t.meet :: t.record, meet := c.target (immS p i) }) c s) s

/-- MEET (R149). -/
def execMeet (st : BitVec 2) (i : BitVec 21) (s : State) : Host.Outcome State Fault Refusal := formMeet none st i s

/-- A thread ends: its stack, spilled entries included, is discarded (R150). -/
def Thread.finish (t : Thread) : Thread := { t with live := false, stack := [], spilled := 0, owes := false, wait := .run }

/-- Threads of an issue set end (R150, R203); a group with none left ends (R8). -/
def endThreads (c : Ctx) (s : State) : Res :=
  let s := s.modGroup c.site.gid (fun g => g.modLanes c.mask (fun _ t => t.finish))
  match Tab.get? s.groups c.site.gid with
  | some g => .ok (if g.threads.any (fun t => t.live) then s else removeGroup c.site.gid s)
  | none => .ok s

/-- EXIT (R150). -/
def execExit (st : BitVec 2) (s : State) : Host.Outcome State Fault Refusal := issue (.exit st) none endThreads s

/-- TRAPL (R151). -/
def execTrapl (st : BitVec 2) (i : BitVec 21) (s : State) : Host.Outcome State Fault Refusal :=
  issue (.trapl st i) none (fun c _ => c.cause .trap 0 0#64) s

/-- A breakpoint (R151, R232): a debugged group completes it and halts. -/
def breakpoint (c : Ctx) (s : State) : Res :=
  .ok (if (c.launch s).debug then haltGroup c.site.gid 4 0 c.mask c.site.next s else s)

/-- BKPTL (R151). -/
def execBkptl (st : BitVec 2) (i : BitVec 21) (s : State) : Host.Outcome State Fault Refusal := issue (.bkptl st i) none breakpoint s

/-- NOP (R151). -/
def execNop (st : BitVec 2) (s : State) : Host.Outcome State Fault Refusal := issue (.nop st) none (fun _ s => .ok s) s

/-- GBRA under an optional prefix (R202). -/
def formGbra (p : Prefix) (st : BitVec 2) (i : BitVec 21) (s : State) : Host.Outcome State Fault Refusal :=
  issue (.gbra st i) p (branchWhere (fun _ => true) (immS p i)) s

/-- GBRA (R202). -/
def execGbra (st : BitVec 2) (i : BitVec 21) (s : State) : Host.Outcome State Fault Refusal := formGbra none st i s

/-- GBNZ under an optional prefix (R202). -/
def formGbnz (p : Prefix) (st : BitVec 2) (cc : BitVec 7) (i : BitVec 14) (s : State) : Host.Outcome State Fault Refusal :=
  issue (.gbnz st cc i) p (fun c s => branchWhere (fun _ => c.gv cc != 0#32) (immS p i) c s) s

/-- GBNZ (R202). -/
def execGbnz (st : BitVec 2) (cc : BitVec 7) (i : BitVec 14) (s : State) : Host.Outcome State Fault Refusal := formGbnz none st cc i s

/-- GBZ under an optional prefix (R202). -/
def formGbz (p : Prefix) (st : BitVec 2) (cc : BitVec 7) (i : BitVec 14) (s : State) : Host.Outcome State Fault Refusal :=
  issue (.gbz st cc i) p (fun c s => branchWhere (fun _ => c.gv cc == 0#32) (immS p i) c s) s

/-- GBZ (R202). -/
def execGbz (st : BitVec 2) (cc : BitVec 7) (i : BitVec 14) (s : State) : Host.Outcome State Fault Refusal := formGbz none st cc i s

/-- GEXIT (R203). -/
def execGexit (st : BitVec 2) (s : State) : Host.Outcome State Fault Refusal := issue (.gexit st) none endThreads s

/-- TRAP (R204). -/
def execTrap (st : BitVec 2) (i : BitVec 21) (s : State) : Host.Outcome State Fault Refusal :=
  issue (.trap st i) none (fun c _ => c.cause .trap 0 0#64) s

/-- TRAPRET (R205, R219). -/
def execTrapret (st : BitVec 2) (s : State) : Host.Outcome State Fault Refusal :=
  issue (.trapret st) none (fun c s => .ok (s.modGroup c.site.gid trapReturn)) s

/-- BKPT (R204). -/
def execBkpt (st : BitVec 2) (i : BitVec 21) (s : State) : Host.Outcome State Fault Refusal := issue (.bkpt st i) none breakpoint s

/-- GNOP (R204). -/
def execGnop (st : BitVec 2) (s : State) : Host.Outcome State Fault Refusal := issue (.gnop st) none (fun _ s => .ok s) s

end Sys2Proof.Machine
end

