-- ==== Sys2Proof/Machine/LaneAlu.lean ====
section
/-! DEFINITION. The lane arithmetic of the L-set: integer and logic, binary32 and bf16×2, unary functions and immediates
(spec/07 R98 to R112, R123). Each meaning is a shared lane form over a pure function of Flags.lean. A form that EXT may prefix
takes the prefix; its unprefixed meaning passes none. -/

namespace Sys2Proof.Machine

/-- D := f(a, b) in every issuing lane (R101, R105). -/
def laneBin (f : Word → Word → Word) (d a b : BitVec 7) (c : Ctx) (s : State) : Res :=
  .ok (c.write (c.lanes.map (fun l => wV l d (f (c.val l a) (c.val l b)))) s)

/-- D := f(a, b, d) in every issuing lane, D read as well. -/
def laneTer (f : Word → Word → Word → Word) (d a b : BitVec 7) (c : Ctx) (s : State) : Res :=
  .ok (c.write (c.lanes.map (fun l => wV l d (f (c.val l a) (c.val l b) (c.val l d)))) s)

/-- The pair D := f(pair A, pair B) (R102). -/
def laneBin64 (f : DWord → DWord → DWord) (d a b : BitVec 7) (c : Ctx) (s : State) : Res :=
  .ok (c.write (c.lanes.flatMap (fun l => wV64 l d (f (c.val64 l a) (c.val64 l b)))) s)

/-- The pair D := f(pair A, b) (R102). -/
def laneShift64 (f : DWord → Word → DWord) (d a b : BitVec 7) (c : Ctx) (s : State) : Res :=
  .ok (c.write (c.lanes.flatMap (fun l => wV64 l d (f (c.val64 l a) (c.val l b)))) s)

/-- The pair D := f(a, b, pair D) (R102). -/
def laneWide (f : Word → Word → DWord → DWord) (d a b : BitVec 7) (c : Ctx) (s : State) : Res :=
  .ok (c.write (c.lanes.flatMap (fun l => wV64 l d (f (c.val l a) (c.val l b) (c.val64 l d)))) s)

/-- D := f(a) in every issuing lane (R104, R110 to R112). -/
def laneUn (f : Word → Word) (d a : BitVec 7) (c : Ctx) (s : State) : Res :=
  .ok (c.write (c.lanes.map (fun l => wV l d (f (c.val l a)))) s)

/-- The pair D := f(pair A) (R103). -/
def laneUn64 (f : DWord → DWord) (d a : BitVec 7) (c : Ctx) (s : State) : Res :=
  .ok (c.write (c.lanes.flatMap (fun l => wV64 l d (f (c.val64 l a)))) s)

/-- lo32 of an immediate (R99). -/
def lo32 (x : DWord) : Word := x.extractLsb' 0 32

/-- IADD (R101). -/
def execIadd (st : BitVec 2) (d : BitVec 7) (a : BitVec 7) (b : BitVec 7) (s : State) : Host.Outcome State Fault Refusal :=
  issue (.iadd st d a b) none (laneBin (· + ·) d a b) s

/-- ISUB (R101). -/
def execIsub (st : BitVec 2) (d : BitVec 7) (a : BitVec 7) (b : BitVec 7) (s : State) : Host.Outcome State Fault Refusal :=
  issue (.isub st d a b) none (laneBin (· - ·) d a b) s

/-- IMUL (R101). -/
def execImul (st : BitVec 2) (d : BitVec 7) (a : BitVec 7) (b : BitVec 7) (s : State) : Host.Outcome State Fault Refusal :=
  issue (.imul st d a b) none (laneBin (· * ·) d a b) s

/-- IMULHI (R101). -/
def execImulhi (st : BitVec 2) (d : BitVec 7) (a : BitVec 7) (b : BitVec 7) (s : State) : Host.Outcome State Fault Refusal :=
  issue (.imulhi st d a b) none (laneBin imulhiF d a b) s

/-- NMULHI (R101). -/
def execNmulhi (st : BitVec 2) (d : BitVec 7) (a : BitVec 7) (b : BitVec 7) (s : State) : Host.Outcome State Fault Refusal :=
  issue (.nmulhi st d a b) none (laneBin nmulhiF d a b) s

/-- IMAD (R101). -/
def execImad (st : BitVec 2) (d : BitVec 7) (a : BitVec 7) (b : BitVec 7) (s : State) : Host.Outcome State Fault Refusal :=
  issue (.imad st d a b) none (laneTer (fun a b d => a * b + d) d a b) s

/-- AND (R101). -/
def execAnd (st : BitVec 2) (d : BitVec 7) (a : BitVec 7) (b : BitVec 7) (s : State) : Host.Outcome State Fault Refusal :=
  issue (.and st d a b) none (laneBin (· &&& ·) d a b) s

/-- OR (R101). -/
def execOr (st : BitVec 2) (d : BitVec 7) (a : BitVec 7) (b : BitVec 7) (s : State) : Host.Outcome State Fault Refusal :=
  issue (.or st d a b) none (laneBin (· ||| ·) d a b) s

/-- XOR (R101). -/
def execXor (st : BitVec 2) (d : BitVec 7) (a : BitVec 7) (b : BitVec 7) (s : State) : Host.Outcome State Fault Refusal :=
  issue (.xor st d a b) none (laneBin (· ^^^ ·) d a b) s

/-- ANDN (R101). -/
def execAndn (st : BitVec 2) (d : BitVec 7) (a : BitVec 7) (b : BitVec 7) (s : State) : Host.Outcome State Fault Refusal :=
  issue (.andn st d a b) none (laneBin andnF d a b) s

/-- SHL (R101). -/
def execShl (st : BitVec 2) (d : BitVec 7) (a : BitVec 7) (b : BitVec 7) (s : State) : Host.Outcome State Fault Refusal :=
  issue (.shl st d a b) none (laneBin shlF d a b) s

/-- SHR (R101). -/
def execShr (st : BitVec 2) (d : BitVec 7) (a : BitVec 7) (b : BitVec 7) (s : State) : Host.Outcome State Fault Refusal :=
  issue (.shr st d a b) none (laneBin shrF d a b) s

/-- SAR (R101). -/
def execSar (st : BitVec 2) (d : BitVec 7) (a : BitVec 7) (b : BitVec 7) (s : State) : Host.Outcome State Fault Refusal :=
  issue (.sar st d a b) none (laneBin sarF d a b) s

/-- ROTL (R101). -/
def execRotl (st : BitVec 2) (d : BitVec 7) (a : BitVec 7) (b : BitVec 7) (s : State) : Host.Outcome State Fault Refusal :=
  issue (.rotl st d a b) none (laneBin rotlF d a b) s

/-- IMIN (R101). -/
def execImin (st : BitVec 2) (d : BitVec 7) (a : BitVec 7) (b : BitVec 7) (s : State) : Host.Outcome State Fault Refusal :=
  issue (.imin st d a b) none (laneBin iminF d a b) s

/-- IMAX (R101). -/
def execImax (st : BitVec 2) (d : BitVec 7) (a : BitVec 7) (b : BitVec 7) (s : State) : Host.Outcome State Fault Refusal :=
  issue (.imax st d a b) none (laneBin imaxF d a b) s

/-- NMIN (R101). -/
def execNmin (st : BitVec 2) (d : BitVec 7) (a : BitVec 7) (b : BitVec 7) (s : State) : Host.Outcome State Fault Refusal :=
  issue (.nmin st d a b) none (laneBin nminF d a b) s

/-- NMAX (R101). -/
def execNmax (st : BitVec 2) (d : BitVec 7) (a : BitVec 7) (b : BitVec 7) (s : State) : Host.Outcome State Fault Refusal :=
  issue (.nmax st d a b) none (laneBin nmaxF d a b) s

/-- ISLT (R101). -/
def execIslt (st : BitVec 2) (d : BitVec 7) (a : BitVec 7) (b : BitVec 7) (s : State) : Host.Outcome State Fault Refusal :=
  issue (.islt st d a b) none (laneBin isltF d a b) s

/-- ISLE (R101). -/
def execIsle (st : BitVec 2) (d : BitVec 7) (a : BitVec 7) (b : BitVec 7) (s : State) : Host.Outcome State Fault Refusal :=
  issue (.isle st d a b) none (laneBin isleF d a b) s

/-- NSLT (R101). -/
def execNslt (st : BitVec 2) (d : BitVec 7) (a : BitVec 7) (b : BitVec 7) (s : State) : Host.Outcome State Fault Refusal :=
  issue (.nslt st d a b) none (laneBin nsltF d a b) s

/-- NSLE (R101). -/
def execNsle (st : BitVec 2) (d : BitVec 7) (a : BitVec 7) (b : BitVec 7) (s : State) : Host.Outcome State Fault Refusal :=
  issue (.nsle st d a b) none (laneBin nsleF d a b) s

/-- IEQ (R101). -/
def execIeq (st : BitVec 2) (d : BitVec 7) (a : BitVec 7) (b : BitVec 7) (s : State) : Host.Outcome State Fault Refusal :=
  issue (.ieq st d a b) none (laneBin ieqF d a b) s

/-- INE (R101). -/
def execIne (st : BitVec 2) (d : BitVec 7) (a : BitVec 7) (b : BitVec 7) (s : State) : Host.Outcome State Fault Refusal :=
  issue (.ine st d a b) none (laneBin ineF d a b) s

/-- SEL (R101). -/
def execSel (st : BitVec 2) (d : BitVec 7) (a : BitVec 7) (b : BitVec 7) (s : State) : Host.Outcome State Fault Refusal :=
  issue (.sel st d a b) none (laneTer selF d a b) s

/-- FADD (R105). -/
def execFadd (st : BitVec 2) (d : BitVec 7) (a : BitVec 7) (b : BitVec 7) (s : State) : Host.Outcome State Fault Refusal :=
  issue (.fadd st d a b) none (laneBin faddF d a b) s

/-- FSUB (R105). -/
def execFsub (st : BitVec 2) (d : BitVec 7) (a : BitVec 7) (b : BitVec 7) (s : State) : Host.Outcome State Fault Refusal :=
  issue (.fsub st d a b) none (laneBin fsubF d a b) s

/-- FMUL (R105). -/
def execFmul (st : BitVec 2) (d : BitVec 7) (a : BitVec 7) (b : BitVec 7) (s : State) : Host.Outcome State Fault Refusal :=
  issue (.fmul st d a b) none (laneBin fmulF d a b) s

/-- FFMA (R105). -/
def execFfma (st : BitVec 2) (d : BitVec 7) (a : BitVec 7) (b : BitVec 7) (s : State) : Host.Outcome State Fault Refusal :=
  issue (.ffma st d a b) none (laneTer ffmaF d a b) s

/-- FMIN (R106). -/
def execFmin (st : BitVec 2) (d : BitVec 7) (a : BitVec 7) (b : BitVec 7) (s : State) : Host.Outcome State Fault Refusal :=
  issue (.fmin st d a b) none (laneBin fminF d a b) s

/-- FMAX (R106). -/
def execFmax (st : BitVec 2) (d : BitVec 7) (a : BitVec 7) (b : BitVec 7) (s : State) : Host.Outcome State Fault Refusal :=
  issue (.fmax st d a b) none (laneBin fmaxF d a b) s

/-- FSLT (R107). -/
def execFslt (st : BitVec 2) (d : BitVec 7) (a : BitVec 7) (b : BitVec 7) (s : State) : Host.Outcome State Fault Refusal :=
  issue (.fslt st d a b) none (laneBin fsltF d a b) s

/-- FSLE (R107). -/
def execFsle (st : BitVec 2) (d : BitVec 7) (a : BitVec 7) (b : BitVec 7) (s : State) : Host.Outcome State Fault Refusal :=
  issue (.fsle st d a b) none (laneBin fsleF d a b) s

/-- FSEQ (R107). -/
def execFseq (st : BitVec 2) (d : BitVec 7) (a : BitVec 7) (b : BitVec 7) (s : State) : Host.Outcome State Fault Refusal :=
  issue (.fseq st d a b) none (laneBin fseqF d a b) s

/-- FSNE (R107). -/
def execFsne (st : BitVec 2) (d : BitVec 7) (a : BitVec 7) (b : BitVec 7) (s : State) : Host.Outcome State Fault Refusal :=
  issue (.fsne st d a b) none (laneBin fsneF d a b) s

/-- FSUN (R107). -/
def execFsun (st : BitVec 2) (d : BitVec 7) (a : BitVec 7) (b : BitVec 7) (s : State) : Host.Outcome State Fault Refusal :=
  issue (.fsun st d a b) none (laneBin fsunF d a b) s

/-- FLDEXP (R108). -/
def execFldexp (st : BitVec 2) (d : BitVec 7) (a : BitVec 7) (b : BitVec 7) (s : State) : Host.Outcome State Fault Refusal :=
  issue (.fldexp st d a b) none (laneBin fldexpF d a b) s

/-- BADD2 (R109). -/
def execBadd2 (st : BitVec 2) (d : BitVec 7) (a : BitVec 7) (b : BitVec 7) (s : State) : Host.Outcome State Fault Refusal :=
  issue (.badd2 st d a b) none (laneBin badd2F d a b) s

/-- BMUL2 (R109). -/
def execBmul2 (st : BitVec 2) (d : BitVec 7) (a : BitVec 7) (b : BitVec 7) (s : State) : Host.Outcome State Fault Refusal :=
  issue (.bmul2 st d a b) none (laneBin bmul2F d a b) s

/-- BFMA2 (R109). -/
def execBfma2 (st : BitVec 2) (d : BitVec 7) (a : BitVec 7) (b : BitVec 7) (s : State) : Host.Outcome State Fault Refusal :=
  issue (.bfma2 st d a b) none (laneTer bfma2F d a b) s

/-- BDOT2 (R109). -/
def execBdot2 (st : BitVec 2) (d : BitVec 7) (a : BitVec 7) (b : BitVec 7) (s : State) : Host.Outcome State Fault Refusal :=
  issue (.bdot2 st d a b) none (laneTer bdot2F d a b) s

/-- IADD64 (R102). -/
def execIadd64 (st : BitVec 2) (d : BitVec 7) (a : BitVec 7) (b : BitVec 7) (s : State) : Host.Outcome State Fault Refusal :=
  issue (.iadd64 st d a b) none (laneBin64 (· + ·) d a b) s

/-- ISUB64 (R102). -/
def execIsub64 (st : BitVec 2) (d : BitVec 7) (a : BitVec 7) (b : BitVec 7) (s : State) : Host.Outcome State Fault Refusal :=
  issue (.isub64 st d a b) none (laneBin64 (· - ·) d a b) s

/-- IMADW (R102). -/
def execImadw (st : BitVec 2) (d : BitVec 7) (a : BitVec 7) (b : BitVec 7) (s : State) : Host.Outcome State Fault Refusal :=
  issue (.imadw st d a b) none (laneWide imadwF d a b) s

/-- NMADW (R102). -/
def execNmadw (st : BitVec 2) (d : BitVec 7) (a : BitVec 7) (b : BitVec 7) (s : State) : Host.Outcome State Fault Refusal :=
  issue (.nmadw st d a b) none (laneWide nmadwF d a b) s

/-- SHL64 (R102). -/
def execShl64 (st : BitVec 2) (d : BitVec 7) (a : BitVec 7) (b : BitVec 7) (s : State) : Host.Outcome State Fault Refusal :=
  issue (.shl64 st d a b) none (laneShift64 shl64F d a b) s

/-- SHR64 (R102). -/
def execShr64 (st : BitVec 2) (d : BitVec 7) (a : BitVec 7) (b : BitVec 7) (s : State) : Host.Outcome State Fault Refusal :=
  issue (.shr64 st d a b) none (laneShift64 shr64F d a b) s

/-- IADDI under an optional prefix (R103). -/
def formIaddi (p : Prefix) (st : BitVec 2) (d : BitVec 7) (a : BitVec 7) (i : BitVec 7) (s : State) : Host.Outcome State Fault Refusal :=
  issue (.iaddi st d a i) p (laneUn (fun a => a + lo32 (immS p i)) d a) s

/-- IADDI (R103). -/
def execIaddi (st : BitVec 2) (d : BitVec 7) (a : BitVec 7) (i : BitVec 7) (s : State) : Host.Outcome State Fault Refusal :=
  formIaddi none st d a i s

/-- ANDI under an optional prefix (R103). -/
def formAndi (p : Prefix) (st : BitVec 2) (d : BitVec 7) (a : BitVec 7) (i : BitVec 7) (s : State) : Host.Outcome State Fault Refusal :=
  issue (.andi st d a i) p (laneUn (fun a => a &&& lo32 (immS p i)) d a) s

/-- ANDI (R103). -/
def execAndi (st : BitVec 2) (d : BitVec 7) (a : BitVec 7) (i : BitVec 7) (s : State) : Host.Outcome State Fault Refusal :=
  formAndi none st d a i s

/-- ORI under an optional prefix (R103). -/
def formOri (p : Prefix) (st : BitVec 2) (d : BitVec 7) (a : BitVec 7) (i : BitVec 7) (s : State) : Host.Outcome State Fault Refusal :=
  issue (.ori st d a i) p (laneUn (fun a => a ||| lo32 (immZ p i)) d a) s

/-- ORI (R103). -/
def execOri (st : BitVec 2) (d : BitVec 7) (a : BitVec 7) (i : BitVec 7) (s : State) : Host.Outcome State Fault Refusal :=
  formOri none st d a i s

/-- XORI under an optional prefix (R103). -/
def formXori (p : Prefix) (st : BitVec 2) (d : BitVec 7) (a : BitVec 7) (i : BitVec 7) (s : State) : Host.Outcome State Fault Refusal :=
  issue (.xori st d a i) p (laneUn (fun a => a ^^^ lo32 (immZ p i)) d a) s

/-- XORI (R103). -/
def execXori (st : BitVec 2) (d : BitVec 7) (a : BitVec 7) (i : BitVec 7) (s : State) : Host.Outcome State Fault Refusal :=
  formXori none st d a i s

/-- SHLI (R103). -/
def execShli (st : BitVec 2) (d : BitVec 7) (a : BitVec 7) (i : BitVec 7) (s : State) : Host.Outcome State Fault Refusal :=
  issue (.shli st d a i) none (laneUn (fun a => shlF a (i.zeroExtend 32)) d a) s

/-- SHRI (R103). -/
def execShri (st : BitVec 2) (d : BitVec 7) (a : BitVec 7) (i : BitVec 7) (s : State) : Host.Outcome State Fault Refusal :=
  issue (.shri st d a i) none (laneUn (fun a => shrF a (i.zeroExtend 32)) d a) s

/-- SARI (R103). -/
def execSari (st : BitVec 2) (d : BitVec 7) (a : BitVec 7) (i : BitVec 7) (s : State) : Host.Outcome State Fault Refusal :=
  issue (.sari st d a i) none (laneUn (fun a => sarF a (i.zeroExtend 32)) d a) s

/-- ROTLI (R103). -/
def execRotli (st : BitVec 2) (d : BitVec 7) (a : BitVec 7) (i : BitVec 7) (s : State) : Host.Outcome State Fault Refusal :=
  issue (.rotli st d a i) none (laneUn (fun a => rotlF a (i.zeroExtend 32)) d a) s

/-- ISLTI under an optional prefix (R103). -/
def formIslti (p : Prefix) (st : BitVec 2) (d : BitVec 7) (a : BitVec 7) (i : BitVec 7) (s : State) : Host.Outcome State Fault Refusal :=
  issue (.islti st d a i) p (laneUn (fun a => flag ((a.signExtend 64).slt (immS p i))) d a) s

/-- ISLTI (R103). -/
def execIslti (st : BitVec 2) (d : BitVec 7) (a : BitVec 7) (i : BitVec 7) (s : State) : Host.Outcome State Fault Refusal :=
  formIslti none st d a i s

/-- IEQI under an optional prefix (R103). -/
def formIeqi (p : Prefix) (st : BitVec 2) (d : BitVec 7) (a : BitVec 7) (i : BitVec 7) (s : State) : Host.Outcome State Fault Refusal :=
  issue (.ieqi st d a i) p (laneUn (fun a => flag (a == lo32 (immS p i))) d a) s

/-- IEQI (R103). -/
def execIeqi (st : BitVec 2) (d : BitVec 7) (a : BitVec 7) (i : BitVec 7) (s : State) : Host.Outcome State Fault Refusal :=
  formIeqi none st d a i s

/-- SHL64I (R103). -/
def execShl64i (st : BitVec 2) (d : BitVec 7) (a : BitVec 7) (i : BitVec 7) (s : State) : Host.Outcome State Fault Refusal :=
  issue (.shl64i st d a i) none (laneUn64 (fun a => shl64F a (i.zeroExtend 32)) d a) s

/-- SHR64I (R103). -/
def execShr64i (st : BitVec 2) (d : BitVec 7) (a : BitVec 7) (i : BitVec 7) (s : State) : Host.Outcome State Fault Refusal :=
  issue (.shr64i st d a i) none (laneUn64 (fun a => shr64F a (i.zeroExtend 32)) d a) s

/-- ADD64I under an optional prefix (R103). -/
def formAdd64i (p : Prefix) (st : BitVec 2) (d : BitVec 7) (a : BitVec 7) (i : BitVec 7) (s : State) : Host.Outcome State Fault Refusal :=
  issue (.add64i st d a i) p (laneUn64 (fun a => a + immS p i) d a) s

/-- ADD64I (R103). -/
def execAdd64i (st : BitVec 2) (d : BitVec 7) (a : BitVec 7) (i : BitVec 7) (s : State) : Host.Outcome State Fault Refusal :=
  formAdd64i none st d a i s

/-- NOT (R104). -/
def execNot (st : BitVec 2) (d : BitVec 7) (a : BitVec 7) (s : State) : Host.Outcome State Fault Refusal :=
  issue (.not st d a) none (laneUn (fun a => ~~~a) d a) s

/-- NEG (R104). -/
def execNeg (st : BitVec 2) (d : BitVec 7) (a : BitVec 7) (s : State) : Host.Outcome State Fault Refusal :=
  issue (.neg st d a) none (laneUn (fun a => 0#32 - a) d a) s

/-- ABS (R104). -/
def execAbs (st : BitVec 2) (d : BitVec 7) (a : BitVec 7) (s : State) : Host.Outcome State Fault Refusal :=
  issue (.abs st d a) none (laneUn absF d a) s

/-- CLZ (R104). -/
def execClz (st : BitVec 2) (d : BitVec 7) (a : BitVec 7) (s : State) : Host.Outcome State Fault Refusal :=
  issue (.clz st d a) none (laneUn clzF d a) s

/-- POPC (R104). -/
def execPopc (st : BitVec 2) (d : BitVec 7) (a : BitVec 7) (s : State) : Host.Outcome State Fault Refusal :=
  issue (.popc st d a) none (laneUn popcF d a) s

/-- BREV (R104). -/
def execBrev (st : BitVec 2) (d : BitVec 7) (a : BitVec 7) (s : State) : Host.Outcome State Fault Refusal :=
  issue (.brev st d a) none (laneUn brevF d a) s

/-- SEXT8 (R104). -/
def execSext8 (st : BitVec 2) (d : BitVec 7) (a : BitVec 7) (s : State) : Host.Outcome State Fault Refusal :=
  issue (.sext8 st d a) none (laneUn (sextF 8) d a) s

/-- SEXT16 (R104). -/
def execSext16 (st : BitVec 2) (d : BitVec 7) (a : BitVec 7) (s : State) : Host.Outcome State Fault Refusal :=
  issue (.sext16 st d a) none (laneUn (sextF 16) d a) s

/-- ZEXT8 (R104). -/
def execZext8 (st : BitVec 2) (d : BitVec 7) (a : BitVec 7) (s : State) : Host.Outcome State Fault Refusal :=
  issue (.zext8 st d a) none (laneUn (zextF 8) d a) s

/-- ZEXT16 (R104). -/
def execZext16 (st : BitVec 2) (d : BitVec 7) (a : BitVec 7) (s : State) : Host.Outcome State Fault Refusal :=
  issue (.zext16 st d a) none (laneUn (zextF 16) d a) s

/-- FNEG (R110). -/
def execFneg (st : BitVec 2) (d : BitVec 7) (a : BitVec 7) (s : State) : Host.Outcome State Fault Refusal :=
  issue (.fneg st d a) none (laneUn fnegF d a) s

/-- FABS (R110). -/
def execFabs (st : BitVec 2) (d : BitVec 7) (a : BitVec 7) (s : State) : Host.Outcome State Fault Refusal :=
  issue (.fabs st d a) none (laneUn fabsF d a) s

/-- FRCP (R111). -/
def execFrcp (st : BitVec 2) (d : BitVec 7) (a : BitVec 7) (s : State) : Host.Outcome State Fault Refusal :=
  issue (.frcp st d a) none (laneUn frcpF d a) s

/-- FRSQ (R111). -/
def execFrsq (st : BitVec 2) (d : BitVec 7) (a : BitVec 7) (s : State) : Host.Outcome State Fault Refusal :=
  issue (.frsq st d a) none (laneUn frsqF d a) s

/-- FSQRT (R111). -/
def execFsqrt (st : BitVec 2) (d : BitVec 7) (a : BitVec 7) (s : State) : Host.Outcome State Fault Refusal :=
  issue (.fsqrt st d a) none (laneUn fsqrtF d a) s

/-- FEXP2 (R111). -/
def execFexp2 (st : BitVec 2) (d : BitVec 7) (a : BitVec 7) (s : State) : Host.Outcome State Fault Refusal :=
  issue (.fexp2 st d a) none (laneUn fexp2F d a) s

/-- FLOG2 (R111). -/
def execFlog2 (st : BitVec 2) (d : BitVec 7) (a : BitVec 7) (s : State) : Host.Outcome State Fault Refusal :=
  issue (.flog2 st d a) none (laneUn flog2F d a) s

/-- FSIN (R111). -/
def execFsin (st : BitVec 2) (d : BitVec 7) (a : BitVec 7) (s : State) : Host.Outcome State Fault Refusal :=
  issue (.fsin st d a) none (laneUn fsinF d a) s

/-- FCOS (R111). -/
def execFcos (st : BitVec 2) (d : BitVec 7) (a : BitVec 7) (s : State) : Host.Outcome State Fault Refusal :=
  issue (.fcos st d a) none (laneUn fcosF d a) s

/-- FTANH (R111). -/
def execFtanh (st : BitVec 2) (d : BitVec 7) (a : BitVec 7) (s : State) : Host.Outcome State Fault Refusal :=
  issue (.ftanh st d a) none (laneUn ftanhF d a) s

/-- FERF (R111). -/
def execFerf (st : BitVec 2) (d : BitVec 7) (a : BitVec 7) (s : State) : Host.Outcome State Fault Refusal :=
  issue (.ferf st d a) none (laneUn ferfF d a) s

/-- FFLOOR (R112). -/
def execFfloor (st : BitVec 2) (d : BitVec 7) (a : BitVec 7) (s : State) : Host.Outcome State Fault Refusal :=
  issue (.ffloor st d a) none (laneUn (fintF .rdn) d a) s

/-- FCEIL (R112). -/
def execFceil (st : BitVec 2) (d : BitVec 7) (a : BitVec 7) (s : State) : Host.Outcome State Fault Refusal :=
  issue (.fceil st d a) none (laneUn (fintF .rup) d a) s

/-- FTRUNC (R112). -/
def execFtrunc (st : BitVec 2) (d : BitVec 7) (a : BitVec 7) (s : State) : Host.Outcome State Fault Refusal :=
  issue (.ftrunc st d a) none (laneUn (fintF .rtz) d a) s

/-- FRINT (R112). -/
def execFrint (st : BitVec 2) (d : BitVec 7) (a : BitVec 7) (s : State) : Host.Outcome State Fault Refusal :=
  issue (.frint st d a) none (laneUn (fintF .rne) d a) s

/-- MOVI under an optional prefix (R123). -/
def formMovi (p : Prefix) (st : BitVec 2) (d : BitVec 7) (i : BitVec 14) (s : State) : Host.Outcome State Fault Refusal :=
  issue (.movi st d i) p (fun c s => .ok (c.write (c.lanes.map (fun l => wV l d (lo32 (immS p i)))) s)) s

/-- MOVI (R123). -/
def execMovi (st : BitVec 2) (d : BitVec 7) (i : BitVec 14) (s : State) : Host.Outcome State Fault Refusal :=
  formMovi none st d i s

end Sys2Proof.Machine
end

