-- ==== Sys2Proof/Machine/Memory.lean ====
section
/-! DEFINITION. Plain loads and stores, prefetch, the local store and its atomics (spec/07 R130 to R134, R144), and the uniform
accesses (spec/08 R177, R178). -/

namespace Sys2Proof.Machine

/-- LD (R130). -/
def execLd (st : BitVec 2) (d o : BitVec 7) (a : BitVec 4) (z : BitVec 3) (s : State) : Host.Outcome State Fault Refusal :=
  issue (.ld st d o a z) none (fun c s => laneLoad .gen (sizeOf z) false d (fun l => c.ea l a o) c s) s

/-- LDS (R130). -/
def execLds (st : BitVec 2) (d o : BitVec 7) (a : BitVec 4) (z : BitVec 3) (s : State) : Host.Outcome State Fault Refusal :=
  issue (.lds st d o a z) none (fun c s => laneLoad .gen (sizeOf z) true d (fun l => c.ea l a o) c s) s

/-- ST (R130). -/
def execSt (st : BitVec 2) (d o : BitVec 7) (a : BitVec 4) (z : BitVec 3) (s : State) : Host.Outcome State Fault Refusal :=
  issue (.st st d o a z) none (fun c s => laneStore (sizeOf z) d (fun l => c.ea l a o) c s) s

/-- LDK (R131). -/
def execLdk (st : BitVec 2) (d o : BitVec 7) (a : BitVec 4) (z : BitVec 3) (s : State) : Host.Outcome State Fault Refusal :=
  issue (.ldk st d o a z) none (fun c s => laneLoad .con (sizeOf z) false d (fun l => c.ea l a o) c s) s

/-- LDGA (R131). -/
def execLdga (st : BitVec 2) (d o : BitVec 7) (a : BitVec 4) (z : BitVec 3) (s : State) : Host.Outcome State Fault Refusal :=
  issue (.ldga st d o a z) none (fun c s => laneLoad .gath (sizeOf z) false d (fun l => c.ea l a o) c s) s

/-- LDX (R133). -/
def execLdx (st : BitVec 2) (d o : BitVec 7) (a : BitVec 4) (z : BitVec 3) (s : State) : Host.Outcome State Fault Refusal :=
  issue (.ldx st d o a z) none (fun c s => laneLoad .gen (sizeOf z) false d (fun l => c.eax l (sizeOf z) a o) c s) s

/-- STX (R133). -/
def execStx (st : BitVec 2) (d o : BitVec 7) (a : BitVec 4) (z : BitVec 3) (s : State) : Host.Outcome State Fault Refusal :=
  issue (.stx st d o a z) none (fun c s => laneStore (sizeOf z) d (fun l => c.eax l (sizeOf z) a o) c s) s

/-! ### Prefetch (R132) -/

/-- Count a dropped prefetch on a core (R132, R245). -/
def countDrop (core : Nat) (s : State) : State := s.modCore core (fun k => { k with droppf := k.droppf + 1#64 })

/-- Where PREF brings a line, by its Z. -/
def prefHolders (core pa : Nat) (z : BitVec 3) : List Holder :=
  match z.toNat with
  | 0 => [.l1 core]
  | 1 => [.cluster (clusterOf core)]
  | _ => (holdersFor core pa).drop 2

/-- PREF (R132): the line is brought in as the instruction issues, with the longest lease. DESIGN CHOICE, log 17. -/
def execPref (st : BitVec 2) (o : BitVec 7) (a : BitVec 4) (z : BitVec 3) (s : State) : Host.Outcome State Fault Refusal :=
  issue (.pref st o a z) none (fun c s =>
    .ok (c.lanes.foldl (fun s l =>
      match checkVa s (c.launch s) c.g.keyperm .load 0 (c.ea l a o) 1 with
      | .ok pa => bring (prefHolders c.core pa z) c.core .gen pa 4096 s
      | .error _ => countDrop c.core s) s)) s

/-! ### The local store (R134, R144, R279) -/

/-- The lanes' places in the local address space. -/
def localPlaces (s : State) (c : Ctx) (wr : Bool) (align size : Nat) (la : Nat → Nat) : List (Nat × Except Fail LocalAt) :=
  c.lanes.map (fun l => (l, accessLocal s c.g wr align size (la l)))

/-- The places of the lanes that pass. -/
def placesOf (xs : List (Nat × Except Fail LocalAt)) : List (Nat × LocalAt) :=
  xs.filterMap (fun x => match x.2 with
    | .ok p => some (x.1, p)
    | .error _ => none)

/-- The accesses of an instruction to local addresses, as data comparators see them. -/
def localTouches (c : Ctx) (size : Nat) (rd wr : Bool) (la : Nat → Nat) : List Touch :=
  c.lanes.map (fun l => { lane := l, va := BitVec.ofNat 64 (la l), size := size, rd := rd, wr := wr })

/-- Loaded registers of a local value. -/
def localWrites (lane : Nat) (d : BitVec 7) (size : Nat) (bytes : List Byte) : List RegWrite :=
  loadWrites { lane := some lane, reg := d.toNat, va := 0, pa := 0, size := size, signed := false } bytes

/-- LDL (R134). -/
def execLdl (st : BitVec 2) (d o : BitVec 7) (a : BitVec 4) (z : BitVec 3) (s : State) : Host.Outcome State Fault Refusal :=
  issue (.ldl st d o a z) none (fun c s =>
    let la := fun l => c.la l a o
    let n := sizeOf z
    c.watched s (localTouches c n true false la)
      (let xs := localPlaces s c false n n la
       causesFirst (errorsOf xs)
        (.ok (c.write ((placesOf xs).flatMap (fun x => localWrites x.1 d n (localBytes s x.2 n))) s)))) s

/-- STL (R134, R323): the highest lane's bytes stay (R127). -/
def execStl (st : BitVec 2) (d o : BitVec 7) (a : BitVec 4) (z : BitVec 3) (s : State) : Host.Outcome State Fault Refusal :=
  issue (.stl st d o a z) none (fun c s =>
    let la := fun l => c.la l a o
    let n := sizeOf z
    c.watched s (localTouches c n false true la)
      (let xs := localPlaces s c true n n la
       let ps := placesOf xs
       causesFirst (errorsOf xs)
        (causesFirst (shadowFails s c ps (fun l => BitVec.ofNat 64 (la l)))
          (.ok (ps.foldl (fun s x => localPoke x.2 (regBytes (fun k => c.valAt x.1 d k) n) s)
            (makeShadows c.g.team c.core ps s)))))) s

/-- One lane's operands of an atomic (R138, R140): x, and the new value of a compare and swap. -/
def atomOperands (reg : Nat → Word) (op : AtomOp) (ty : BitVec 3) : DWord × DWord :=
  if type64 ty then (reg 1 ++ reg 0, match op with
    | .cas => reg 3 ++ reg 2
    | _ => 0#64)
  else ((reg 0).zeroExtend 64, match op with
    | .cas => (reg 1).zeroExtend 64
    | _ => 0#64)

/-- The registers that an atomic's old value goes to. -/
def atomWrites (lane : Option Nat) (reg : Nat) (ty : BitVec 3) (old : DWord) : List RegWrite :=
  let lo : RegWrite := { lane := lane, reg := reg, val := old.extractLsb' 0 32 }
  if type64 ty then [lo, { lane := lane, reg := reg + 1, val := old.extractLsb' 32 32 }] else [lo]

/-- An atomic on the local store (R144): the lanes of the instruction in ascending order. -/
def localAtomic (op : AtomOp) (d o : BitVec 7) (a : BitVec 4) (ty : BitVec 3) (c : Ctx) (s : State) : Res :=
  let la := fun l => c.la l a o
  let n := typeSize ty
  c.watched s (localTouches c n true true la)
    (let xs := localPlaces s c true n n la
     let ps := placesOf xs
     let bad := ps.filterMap (fun x => if s.poisoned x.2.pa n then some (x.1, (⟨.poisoned, 1, BitVec.ofNat 64 (la x.1)⟩ : Fail)) else none)
     causesFirst (errorsOf xs)
      (causesFirst (shadowFails s c ps (fun l => BitVec.ofNat 64 (la l)) ++ bad)
        (let out := ps.foldl (fun (acc : State × List RegWrite) x =>
            let m := BitVec.ofNat 64 (leNat (localBytes acc.1 x.2 n))
            let v := atomOperands (fun k => c.valAt x.1 d k) op ty
            (localPoke x.2 (leBytes n (atomicF op ty m v.1 v.2).toNat) acc.1, acc.2 ++ atomWrites (some x.1) d.toNat ty m))
            (makeShadows c.g.team c.core ps s, [])
         .ok (c.write out.2 out.1))))

/-- LATADD (R144). -/
def execLatadd (st : BitVec 2) (d o : BitVec 7) (a : BitVec 4) (z : BitVec 3) (s : State) : Host.Outcome State Fault Refusal :=
  issue (.latadd st d o a z) none (localAtomic .add d o a z) s

/-- LATMIN (R144). -/
def execLatmin (st : BitVec 2) (d o : BitVec 7) (a : BitVec 4) (z : BitVec 3) (s : State) : Host.Outcome State Fault Refusal :=
  issue (.latmin st d o a z) none (localAtomic .min d o a z) s

/-- LATMAX (R144). -/
def execLatmax (st : BitVec 2) (d o : BitVec 7) (a : BitVec 4) (z : BitVec 3) (s : State) : Host.Outcome State Fault Refusal :=
  issue (.latmax st d o a z) none (localAtomic .max d o a z) s

/-- LATCAS (R144). -/
def execLatcas (st : BitVec 2) (d o : BitVec 7) (a : BitVec 4) (z : BitVec 3) (s : State) : Host.Outcome State Fault Refusal :=
  issue (.latcas st d o a z) none (localAtomic .cas d o a z) s

/-! ### Uniform accesses (R177, R178) -/

/-- GLD under an optional prefix (R178). -/
def formGld (p : Prefix) (st : BitVec 2) (d : BitVec 7) (a : BitVec 4) (z : BitVec 3) (i : BitVec 7) (s : State) :
    Host.Outcome State Fault Refusal :=
  issue (.gld st d a z i) p (fun c s => uniformLoad .gen (sizeOf z) d (c.areg a + immS p i) c s) s

/-- GLD (R178). -/
def execGld (st : BitVec 2) (d : BitVec 7) (a : BitVec 4) (z : BitVec 3) (i : BitVec 7) (s : State) : Host.Outcome State Fault Refusal :=
  formGld none st d a z i s

/-- GST under an optional prefix (R178). -/
def formGst (p : Prefix) (st : BitVec 2) (d : BitVec 7) (a : BitVec 4) (z : BitVec 3) (i : BitVec 7) (s : State) :
    Host.Outcome State Fault Refusal :=
  issue (.gst st d a z i) p (fun c s => uniformStore (sizeOf z) d (c.areg a + immS p i) c s) s

/-- GST (R178). -/
def execGst (st : BitVec 2) (d : BitVec 7) (a : BitVec 4) (z : BitVec 3) (i : BitVec 7) (s : State) : Host.Outcome State Fault Refusal :=
  formGst none st d a z i s

/-- GLDK under an optional prefix (R178). -/
def formGldk (p : Prefix) (st : BitVec 2) (d : BitVec 7) (a : BitVec 4) (z : BitVec 3) (i : BitVec 7) (s : State) :
    Host.Outcome State Fault Refusal :=
  issue (.gldk st d a z i) p (fun c s => uniformLoad .con (sizeOf z) d (c.areg a + immS p i) c s) s

/-- GLDK (R178). -/
def execGldk (st : BitVec 2) (d : BitVec 7) (a : BitVec 4) (z : BitVec 3) (i : BitVec 7) (s : State) : Host.Outcome State Fault Refusal :=
  formGldk none st d a z i s

end Sys2Proof.Machine
end

