-- ==== Sys2Proof/Machine/Uniform.lean ====
section
/-! DEFINITION. Uniform arithmetic, special registers and the cross-lane instructions of the G-set (spec/08 R156 to R166). -/

namespace Sys2Proof.Machine

/-- G[D] := f(G[A], G[B]) (R156, R158). -/
def uniBin (f : Word → Word → Word) (d a b : BitVec 7) (c : Ctx) (s : State) : Res := .ok (c.write [wG d (f (c.gv a) (c.gv b))] s)

/-- G[D] := f(G[A], G[B], G[D]) (R156, R158). -/
def uniTer (f : Word → Word → Word → Word) (d a b : BitVec 7) (c : Ctx) (s : State) : Res :=
  .ok (c.write [wG d (f (c.gv a) (c.gv b) (c.gv d))] s)

/-- The pair at a G code. -/
def Ctx.gp (c : Ctx) (code : BitVec 7) : DWord := c.g64 code.toNat

/-- The pair D := f(pair A, pair B) (R157). -/
def uniBin64 (f : DWord → DWord → DWord) (d a b : BitVec 7) (c : Ctx) (s : State) : Res :=
  .ok (c.write (wG64 d (f (c.gp a) (c.gp b))) s)

/-- The pair D := f(pair A, G[B]) (R157). -/
def uniShift64 (f : DWord → Word → DWord) (d a b : BitVec 7) (c : Ctx) (s : State) : Res :=
  .ok (c.write (wG64 d (f (c.gp a) (c.gv b))) s)

/-- G[D] := f(G[A]) (R159). -/
def uniUn (f : Word → Word) (d a : BitVec 7) (c : Ctx) (s : State) : Res := .ok (c.write [wG d (f (c.gv a))] s)

/-! ### Across the lanes (R164 to R166) -/

/-- The values of a source of kind x in the issuing lanes, in ascending lane (R164). -/
def Ctx.xvals (c : Ctx) (a : BitVec 7) : List Word := c.lanes.map (fun l => c.xval l a)

/-- The issuing lanes whose source is not 0. -/
def Ctx.xset (c : Ctx) (a : BitVec 7) : List Nat := c.lanes.filter (fun l => c.xval l a != 0#32)

/-- G[D] := a function of the lanes' values (R165). -/
def across (f : List Word → Word) (d a : BitVec 7) (c : Ctx) (s : State) : Res := .ok (c.write [wG d (f (c.xvals a))] s)

/-- A value that binary32 arithmetic leaves as it is, a NaN canonical (R166). -/
def canonF (x : Word) : Word := if (valF32 x).isNan then f32Nan else x

/-- Combine the values from the first one on (R165, R166). -/
def foldFirst (first : Word → Word) (f : Word → Word → Word) : List Word → Word
  | [] => 0#32
  | x :: t => t.foldl f (first x)

/-- GADD (R156). -/
def execGadd (st : BitVec 2) (d : BitVec 7) (a : BitVec 7) (b : BitVec 7) (s : State) : Host.Outcome State Fault Refusal :=
  issue (.gadd st d a b) none (uniBin (· + ·) d a b) s

/-- GSUB (R156). -/
def execGsub (st : BitVec 2) (d : BitVec 7) (a : BitVec 7) (b : BitVec 7) (s : State) : Host.Outcome State Fault Refusal :=
  issue (.gsub st d a b) none (uniBin (· - ·) d a b) s

/-- GMUL (R156). -/
def execGmul (st : BitVec 2) (d : BitVec 7) (a : BitVec 7) (b : BitVec 7) (s : State) : Host.Outcome State Fault Refusal :=
  issue (.gmul st d a b) none (uniBin (· * ·) d a b) s

/-- GMULHI (R156). -/
def execGmulhi (st : BitVec 2) (d : BitVec 7) (a : BitVec 7) (b : BitVec 7) (s : State) : Host.Outcome State Fault Refusal :=
  issue (.gmulhi st d a b) none (uniBin imulhiF d a b) s

/-- GNMULHI (R156). -/
def execGnmulhi (st : BitVec 2) (d : BitVec 7) (a : BitVec 7) (b : BitVec 7) (s : State) : Host.Outcome State Fault Refusal :=
  issue (.gnmulhi st d a b) none (uniBin nmulhiF d a b) s

/-- GAND (R156). -/
def execGand (st : BitVec 2) (d : BitVec 7) (a : BitVec 7) (b : BitVec 7) (s : State) : Host.Outcome State Fault Refusal :=
  issue (.gand st d a b) none (uniBin (· &&& ·) d a b) s

/-- GOR (R156). -/
def execGor (st : BitVec 2) (d : BitVec 7) (a : BitVec 7) (b : BitVec 7) (s : State) : Host.Outcome State Fault Refusal :=
  issue (.gor st d a b) none (uniBin (· ||| ·) d a b) s

/-- GXOR (R156). -/
def execGxor (st : BitVec 2) (d : BitVec 7) (a : BitVec 7) (b : BitVec 7) (s : State) : Host.Outcome State Fault Refusal :=
  issue (.gxor st d a b) none (uniBin (· ^^^ ·) d a b) s

/-- GSHL (R156). -/
def execGshl (st : BitVec 2) (d : BitVec 7) (a : BitVec 7) (b : BitVec 7) (s : State) : Host.Outcome State Fault Refusal :=
  issue (.gshl st d a b) none (uniBin shlF d a b) s

/-- GSHR (R156). -/
def execGshr (st : BitVec 2) (d : BitVec 7) (a : BitVec 7) (b : BitVec 7) (s : State) : Host.Outcome State Fault Refusal :=
  issue (.gshr st d a b) none (uniBin shrF d a b) s

/-- GSAR (R156). -/
def execGsar (st : BitVec 2) (d : BitVec 7) (a : BitVec 7) (b : BitVec 7) (s : State) : Host.Outcome State Fault Refusal :=
  issue (.gsar st d a b) none (uniBin sarF d a b) s

/-- GMIN (R156). -/
def execGmin (st : BitVec 2) (d : BitVec 7) (a : BitVec 7) (b : BitVec 7) (s : State) : Host.Outcome State Fault Refusal :=
  issue (.gmin st d a b) none (uniBin iminF d a b) s

/-- GMAX (R156). -/
def execGmax (st : BitVec 2) (d : BitVec 7) (a : BitVec 7) (b : BitVec 7) (s : State) : Host.Outcome State Fault Refusal :=
  issue (.gmax st d a b) none (uniBin imaxF d a b) s

/-- GNMIN (R156). -/
def execGnmin (st : BitVec 2) (d : BitVec 7) (a : BitVec 7) (b : BitVec 7) (s : State) : Host.Outcome State Fault Refusal :=
  issue (.gnmin st d a b) none (uniBin nminF d a b) s

/-- GNMAX (R156). -/
def execGnmax (st : BitVec 2) (d : BitVec 7) (a : BitVec 7) (b : BitVec 7) (s : State) : Host.Outcome State Fault Refusal :=
  issue (.gnmax st d a b) none (uniBin nmaxF d a b) s

/-- GSLT (R156). -/
def execGslt (st : BitVec 2) (d : BitVec 7) (a : BitVec 7) (b : BitVec 7) (s : State) : Host.Outcome State Fault Refusal :=
  issue (.gslt st d a b) none (uniBin isltF d a b) s

/-- GSLE (R156). -/
def execGsle (st : BitVec 2) (d : BitVec 7) (a : BitVec 7) (b : BitVec 7) (s : State) : Host.Outcome State Fault Refusal :=
  issue (.gsle st d a b) none (uniBin isleF d a b) s

/-- GNSLT (R156). -/
def execGnslt (st : BitVec 2) (d : BitVec 7) (a : BitVec 7) (b : BitVec 7) (s : State) : Host.Outcome State Fault Refusal :=
  issue (.gnslt st d a b) none (uniBin nsltF d a b) s

/-- GNSLE (R156). -/
def execGnsle (st : BitVec 2) (d : BitVec 7) (a : BitVec 7) (b : BitVec 7) (s : State) : Host.Outcome State Fault Refusal :=
  issue (.gnsle st d a b) none (uniBin nsleF d a b) s

/-- GEQ (R156). -/
def execGeq (st : BitVec 2) (d : BitVec 7) (a : BitVec 7) (b : BitVec 7) (s : State) : Host.Outcome State Fault Refusal :=
  issue (.geq st d a b) none (uniBin ieqF d a b) s

/-- GNE (R156). -/
def execGne (st : BitVec 2) (d : BitVec 7) (a : BitVec 7) (b : BitVec 7) (s : State) : Host.Outcome State Fault Refusal :=
  issue (.gne st d a b) none (uniBin ineF d a b) s

/-- GSEL (R156). -/
def execGsel (st : BitVec 2) (d : BitVec 7) (a : BitVec 7) (b : BitVec 7) (s : State) : Host.Outcome State Fault Refusal :=
  issue (.gsel st d a b) none (uniTer selF d a b) s

/-- GADD64 (R157). -/
def execGadd64 (st : BitVec 2) (d : BitVec 7) (a : BitVec 7) (b : BitVec 7) (s : State) : Host.Outcome State Fault Refusal :=
  issue (.gadd64 st d a b) none (uniBin64 (· + ·) d a b) s

/-- GSUB64 (R157). -/
def execGsub64 (st : BitVec 2) (d : BitVec 7) (a : BitVec 7) (b : BitVec 7) (s : State) : Host.Outcome State Fault Refusal :=
  issue (.gsub64 st d a b) none (uniBin64 (· - ·) d a b) s

/-- GSHL64 (R157). -/
def execGshl64 (st : BitVec 2) (d : BitVec 7) (a : BitVec 7) (b : BitVec 7) (s : State) : Host.Outcome State Fault Refusal :=
  issue (.gshl64 st d a b) none (uniShift64 shl64F d a b) s

/-- GSHR64 (R157). -/
def execGshr64 (st : BitVec 2) (d : BitVec 7) (a : BitVec 7) (b : BitVec 7) (s : State) : Host.Outcome State Fault Refusal :=
  issue (.gshr64 st d a b) none (uniShift64 shr64F d a b) s

/-- GMADW (R157). -/
def execGmadw (st : BitVec 2) (d : BitVec 7) (a : BitVec 7) (b : BitVec 7) (s : State) : Host.Outcome State Fault Refusal :=
  issue (.gmadw st d a b) none (fun c s => .ok (c.write (wG64 d (imadwF (c.gv a) (c.gv b) (c.gp d))) s)) s

/-- GFADD (R158). -/
def execGfadd (st : BitVec 2) (d : BitVec 7) (a : BitVec 7) (b : BitVec 7) (s : State) : Host.Outcome State Fault Refusal :=
  issue (.gfadd st d a b) none (uniBin faddF d a b) s

/-- GFMUL (R158). -/
def execGfmul (st : BitVec 2) (d : BitVec 7) (a : BitVec 7) (b : BitVec 7) (s : State) : Host.Outcome State Fault Refusal :=
  issue (.gfmul st d a b) none (uniBin fmulF d a b) s

/-- GFMIN (R158). -/
def execGfmin (st : BitVec 2) (d : BitVec 7) (a : BitVec 7) (b : BitVec 7) (s : State) : Host.Outcome State Fault Refusal :=
  issue (.gfmin st d a b) none (uniBin fminF d a b) s

/-- GFMAX (R158). -/
def execGfmax (st : BitVec 2) (d : BitVec 7) (a : BitVec 7) (b : BitVec 7) (s : State) : Host.Outcome State Fault Refusal :=
  issue (.gfmax st d a b) none (uniBin fmaxF d a b) s

/-- GFSLT (R158). -/
def execGfslt (st : BitVec 2) (d : BitVec 7) (a : BitVec 7) (b : BitVec 7) (s : State) : Host.Outcome State Fault Refusal :=
  issue (.gfslt st d a b) none (uniBin fsltF d a b) s

/-- GFFMA (R158). -/
def execGffma (st : BitVec 2) (d : BitVec 7) (a : BitVec 7) (b : BitVec 7) (s : State) : Host.Outcome State Fault Refusal :=
  issue (.gffma st d a b) none (uniTer ffmaF d a b) s

/-- GMOVI under an optional prefix (R159). -/
def formGmovi (p : Prefix) (st : BitVec 2) (d : BitVec 7) (i : BitVec 14) (s : State) : Host.Outcome State Fault Refusal :=
  issue (.gmovi st d i) p (fun c s => .ok (c.write [wG d ((immS p i).extractLsb' 0 32)] s)) s

/-- GMOVI (R159). -/
def execGmovi (st : BitVec 2) (d : BitVec 7) (i : BitVec 14) (s : State) : Host.Outcome State Fault Refusal :=
  formGmovi none st d i s

/-- GADDI under an optional prefix (R159). -/
def formGaddi (p : Prefix) (st : BitVec 2) (d : BitVec 7) (a : BitVec 7) (i : BitVec 7) (s : State) : Host.Outcome State Fault Refusal :=
  issue (.gaddi st d a i) p (uniUn (fun a => a + (immS p i).extractLsb' 0 32) d a) s

/-- GADDI (R159). -/
def execGaddi (st : BitVec 2) (d : BitVec 7) (a : BitVec 7) (i : BitVec 7) (s : State) : Host.Outcome State Fault Refusal :=
  formGaddi none st d a i s

/-- GANDI under an optional prefix (R159). -/
def formGandi (p : Prefix) (st : BitVec 2) (d : BitVec 7) (a : BitVec 7) (i : BitVec 7) (s : State) : Host.Outcome State Fault Refusal :=
  issue (.gandi st d a i) p (uniUn (fun a => a &&& (immS p i).extractLsb' 0 32) d a) s

/-- GANDI (R159). -/
def execGandi (st : BitVec 2) (d : BitVec 7) (a : BitVec 7) (i : BitVec 7) (s : State) : Host.Outcome State Fault Refusal :=
  formGandi none st d a i s

/-- GORI under an optional prefix (R159). -/
def formGori (p : Prefix) (st : BitVec 2) (d : BitVec 7) (a : BitVec 7) (i : BitVec 7) (s : State) : Host.Outcome State Fault Refusal :=
  issue (.gori st d a i) p (uniUn (fun a => a ||| (immZ p i).extractLsb' 0 32) d a) s

/-- GORI (R159). -/
def execGori (st : BitVec 2) (d : BitVec 7) (a : BitVec 7) (i : BitVec 7) (s : State) : Host.Outcome State Fault Refusal :=
  formGori none st d a i s

/-- GSHLI (R159). -/
def execGshli (st : BitVec 2) (d : BitVec 7) (a : BitVec 7) (i : BitVec 7) (s : State) : Host.Outcome State Fault Refusal :=
  issue (.gshli st d a i) none (uniUn (fun a => shlF a (i.zeroExtend 32)) d a) s

/-- GSHRI (R159). -/
def execGshri (st : BitVec 2) (d : BitVec 7) (a : BitVec 7) (i : BitVec 7) (s : State) : Host.Outcome State Fault Refusal :=
  issue (.gshri st d a i) none (uniUn (fun a => shrF a (i.zeroExtend 32)) d a) s

/-- GLUI (R159). -/
def execGlui (st : BitVec 2) (d : BitVec 7) (i : BitVec 14) (s : State) : Host.Outcome State Fault Refusal :=
  issue (.glui st d i) none (fun c s => .ok (c.write [wG d ((i.zeroExtend 32 <<< 18) ||| (c.gv d &&& 0x3FFFF#32))] s)) s

/-- GRDS (R160, R43). -/
def execGrds (st : BitVec 2) (d : BitVec 7) (i : BitVec 14) (s : State) : Host.Outcome State Fault Refusal :=
  issue (.grds st d i) none (fun c s =>
    let v := specialValue s c.g (c.lanes.headD 0) i.toNat
    .ok (c.write (if specialWide i then wG64 d v else [wG d (v.extractLsb' 0 32)]) s)) s

/-- What GWRS writes (R160, R65, R163, R212, R216). -/
def writeSpecial (c : Ctx) (n : Nat) (v : DWord) (g : Group) : Group :=
  match n with
  | 0x0020 => g.modLanes c.mask (fun _ t => { t with febudget := v.extractLsb' 0 32 })
  | 0x0022 => { g with srkey := v }
  | 0x0023 => { g with stallchk := v.getLsbD 0 }
  | 0x0030 => { g with trapvec := v &&& ~~~3#64 }
  | 0x0031 => { g with trapcause := v.extractLsb' 0 17 }
  | 0x0033 => { g with trappc := v &&& ~~~3#64 }
  | _ => g

/-- GWRS (R160). -/
def execGwrs (st : BitVec 2) (d : BitVec 7) (i : BitVec 14) (s : State) : Host.Outcome State Fault Refusal :=
  issue (.gwrs st d i) none (fun c s =>
    .ok (s.modGroup c.site.gid (writeSpecial c i.toNat (if specialWide i then c.gp d else (c.gv d).zeroExtend 64)))) s

/-- LBALLOT (R165). -/
def execLballot (st : BitVec 2) (d : BitVec 7) (a : BitVec 7) (s : State) : Host.Outcome State Fault Refusal :=
  issue (.lballot st d a) none (fun c s => .ok (c.write (wG64 d (LaneSet.of (c.xset a))) s)) s

/-- LANY (R165). -/
def execLany (st : BitVec 2) (d : BitVec 7) (a : BitVec 7) (s : State) : Host.Outcome State Fault Refusal :=
  issue (.lany st d a) none (across (fun vs => flag (vs.any (fun v => v != 0#32))) d a) s

/-- LALL (R165). -/
def execLall (st : BitVec 2) (d : BitVec 7) (a : BitVec 7) (s : State) : Host.Outcome State Fault Refusal :=
  issue (.lall st d a) none (across (fun vs => flag (vs.all (fun v => v != 0#32))) d a) s

/-- LREAD (R165): a G code in A gives G[A], whatever j is (DEDUCED, log entry 36). -/
def execLread (st : BitVec 2) (d : BitVec 7) (a : BitVec 7) (b : BitVec 7) (s : State) : Host.Outcome State Fault Refusal :=
  issue (.lread st d a b) none (fun c s =>
    let j := (c.gv b).toNat
    .ok (c.write [wG d (if j < c.g.width ∨ a.toNat < 64 then c.xval j a else 0#32)] s)) s

/-- LWRITE (R165). -/
def execLwrite (st : BitVec 2) (d : BitVec 7) (a : BitVec 7) (b : BitVec 7) (s : State) : Host.Outcome State Fault Refusal :=
  issue (.lwrite st d a b) none (fun c s =>
    let j := (c.gv b).toNat
    .ok (if c.lanes.contains j then c.write [{ lane := some j, reg := d.toNat - 64, val := c.gv a }] s else s)) s

/-- LSUM (R165). -/
def execLsum (st : BitVec 2) (d : BitVec 7) (a : BitVec 7) (s : State) : Host.Outcome State Fault Refusal :=
  issue (.lsum st d a) none (across (fun vs => vs.foldl (· + ·) 0#32) d a) s

/-- LFSUM (R166). -/
def execLfsum (st : BitVec 2) (d : BitVec 7) (a : BitVec 7) (s : State) : Host.Outcome State Fault Refusal :=
  issue (.lfsum st d a) none (across (foldFirst canonF faddF) d a) s

/-- LMAX (R165). -/
def execLmax (st : BitVec 2) (d : BitVec 7) (a : BitVec 7) (s : State) : Host.Outcome State Fault Refusal :=
  issue (.lmax st d a) none (across (foldFirst id imaxF) d a) s

/-- LMIN (R165). -/
def execLmin (st : BitVec 2) (d : BitVec 7) (a : BitVec 7) (s : State) : Host.Outcome State Fault Refusal :=
  issue (.lmin st d a) none (across (foldFirst id iminF) d a) s

/-- LFMAX (R165). DEDUCED, log 89. -/
def execLfmax (st : BitVec 2) (d : BitVec 7) (a : BitVec 7) (s : State) : Host.Outcome State Fault Refusal :=
  issue (.lfmax st d a) none (across (foldFirst canonF fmaxF) d a) s

/-- LPOPC (R165). -/
def execLpopc (st : BitVec 2) (d : BitVec 7) (a : BitVec 7) (s : State) : Host.Outcome State Fault Refusal :=
  issue (.lpopc st d a) none (fun c s => .ok (c.write [wG d (BitVec.ofNat 32 (c.xset a).length)] s)) s

/-- LFIRST (R165). -/
def execLfirst (st : BitVec 2) (d : BitVec 7) (a : BitVec 7) (s : State) : Host.Outcome State Fault Refusal :=
  issue (.lfirst st d a) none (fun c s =>
    .ok (c.write [wG d (match (c.xset a).head? with
      | some l => BitVec.ofNat 32 l
      | none => 0xFFFFFFFF#32)] s)) s

end Sys2Proof.Machine
end

