-- ==== Sys2Proof/Machine/Ext.lean ====
section
/-! DEFINITION. EXT pairs (spec/03 R57 to R59) and words that match no row of the opcode table (R45, R56). -/

namespace Sys2Proof.Machine

/-- A follower whose I field is of kind s or z, under its prefix (R58, R59); none for every other instruction. -/
def formPrefixed (e : BitVec 21) (i : Instr) (s : State) : Option (Host.Outcome State Fault Refusal) :=
  match i with
  | .iaddi st d a i => some (formIaddi (some e) st d a i s)
  | .andi st d a i => some (formAndi (some e) st d a i s)
  | .islti st d a i => some (formIslti (some e) st d a i s)
  | .ieqi st d a i => some (formIeqi (some e) st d a i s)
  | .add64i st d a i => some (formAdd64i (some e) st d a i s)
  | .ori st d a i => some (formOri (some e) st d a i s)
  | .xori st d a i => some (formXori (some e) st d a i s)
  | .movi st d i => some (formMovi (some e) st d i s)
  | .bra st i => some (formBra (some e) st i s)
  | .call st i => some (formCall (some e) st i s)
  | .meet st i => some (formMeet (some e) st i s)
  | .bnz st c i => some (formBnz (some e) st c i s)
  | .bz st c i => some (formBz (some e) st c i s)
  | .gmovi st d i => some (formGmovi (some e) st d i s)
  | .gaddi st d a i => some (formGaddi (some e) st d a i s)
  | .gandi st d a i => some (formGandi (some e) st d a i s)
  | .gori st d a i => some (formGori (some e) st d a i s)
  | .gld st d a z i => some (formGld (some e) st d a z i s)
  | .gst st d a z i => some (formGst (some e) st d a z i s)
  | .gldk st d a z i => some (formGldk (some e) st d a z i s)
  | .gbra st i => some (formGbra (some e) st i s)
  | .gbnz st c i => some (formGbnz (some e) st c i s)
  | .gbz st c i => some (formGbz (some e) st c i s)
  | _ => none

/-- EXT with its follower (R57 to R59). The checks run in the order of R45: a reserved follower, a misplaced EXT, the S field of EXT, then
the follower's own. -/
def execExt (st : BitVec 2) (e : BitVec 21) (w : Word) (s : State) : Host.Outcome State Fault Refusal :=
  if isExtWord w then issuePairBad 5 e w s
  else
    match decodeDefined w with
    | none =>
      issueForm { word := w, reads := [], writes := [], lat := 0,
                  detail := fun sh => some (if !isMwriteWord w && !isMstatWord w && reservedDetail sh w == 1 then 1 else 5) }
        (some e) (fun _ _ => .wait) s
    | some i =>
      match formPrefixed e i s with
      | none => issuePairBad 5 e w s
      | some r => if st ≠ 0#2 then issuePairBad 4 e w s else r

/-- A word that matches no row (R45, R56): the issue set traps illegal_op with the detail of R45. -/
def execReservedSlot (w : Word) (s : State) : Host.Outcome State Fault Refusal :=
  issueForm { word := w, reads := [], writes := [], lat := 0, detail := fun sh => some (reservedDetail sh w) } none (fun _ _ => .wait) s

end Sys2Proof.Machine
end

