-- ==== Sys2Proof/Machine/Sync.lean ====
section
/-! DEFINITION. Accesses that the home slice performs: the full/empty forms (spec/07 R135 to R137), atomics and reductions (R138 to
R141), appends (R142, R143), GATOM (spec/08 R179) and SEAL (R191), as they issue. -/

namespace Sys2Proof.Machine

/-- tx_forbidden on every lane inside a transaction (R128). -/
def forbidFails (s : State) (c : Ctx) (xs : List (Nat × DWord)) : List (Nat × Fail) :=
  match c.tx s with
  | some _ => xs.map (fun x => (x.1, ⟨.txForbidden, 0, x.2⟩))
  | none => []

/-- The threads of an issue set stay at the instruction until a slice has answered (R136, R210). -/
def holdAtSlice (c : Ctx) (lanes : LaneSet) (s : State) : State :=
  s.modGroup c.site.gid (fun g => g.modLanes lanes (fun _ t => { t with wait := .slice, pc := c.site.pc }))

/-! ### Full/empty forms (R135, R136) -/

/-- Send one request for each lane of a full/empty form. -/
def postFe (kind : FeKind) (dest : List Reg) (reg : Nat) (xs : List (Nat × DWord × Nat)) (data : Nat → DWord) (c : Ctx) (s : State) : State :=
  let s := xs.foldl (fun s x => s.addReq (c.req s dest (.fe kind x.1 x.2.1 x.2.2 (data x.1) reg .flying))) s
  if feWaits kind then holdAtSlice c c.mask s else s

/-- A full/empty form (R135): checks, the transaction's refusal, its release or acquire, then the requests. -/
def fullEmpty (kind : FeKind) (acc : Acc) (dest : BitVec 7 → List Reg) (data : Ctx → BitVec 7 → Nat → DWord) (d o : BitVec 7) (a : BitVec 4)
    (c : Ctx) (s : State) : Res :=
  c.watched s (c.lanes.map (fun l => { lane := l, va := c.ea l a o, size := 8, rd := true, wr := true }))
    (let xs := c.lanes.map (fun l => (l, accessVa s c.g acc 8 8 (c.ea l a o)))
     causesFirst (errorsOf xs)
      (causesFirst (if kind == .feget then [] else forbidFails s c (c.lanes.map (fun l => (l, c.ea l a o))))
        (let ps := xs.map (fun x => (x.1, c.ea x.1 a o, okPa x.2))
         let frees := kind == .stf || (kind == .feset && c.lanes.any (fun l => (data c d l).getLsbD 0))
         let takes := c.lanes.any (fun l => feAcquires kind (data c d l))
         if clash s c (ps.map (fun x => (x.2.2, 8))) || (frees && !c.mayRelease s (deviceScope (ps.map (fun x => x.2.2))))
             || (takes && !c.mayAcquire s) then .wait
         else .ok (postFe kind (dest d) d.toNat ps (data c d) c s))))

/-- LDW (R135, R136). -/
def execLdw (st : BitVec 2) (d o : BitVec 7) (a : BitVec 4) (s : State) : Host.Outcome State Fault Refusal :=
  issue (.ldw st d o a) none (fullEmpty .ldw .feRead (fun d => destRegs .v d.toNat 8) (fun _ _ _ => 0#64) d o a) s

/-- LDC (R135, R136). -/
def execLdc (st : BitVec 2) (d o : BitVec 7) (a : BitVec 4) (s : State) : Host.Outcome State Fault Refusal :=
  issue (.ldc st d o a) none (fullEmpty .ldc .atomic (fun d => destRegs .v d.toNat 8) (fun _ _ _ => 0#64) d o a) s

/-- STF (R135, R136). -/
def execStf (st : BitVec 2) (d o : BitVec 7) (a : BitVec 4) (s : State) : Host.Outcome State Fault Refusal :=
  issue (.stf st d o a) none (fullEmpty .stf .slice (fun _ => []) (fun c d l => c.val64 l d) d o a) s

/-- FESET (R135). -/
def execFeset (st : BitVec 2) (d o : BitVec 7) (a : BitVec 4) (s : State) : Host.Outcome State Fault Refusal :=
  issue (.feset st d o a) none (fullEmpty .feset .slice (fun _ => []) (fun c d l => (c.val l d).zeroExtend 64) d o a) s

/-- FEGET (R135). -/
def execFeget (st : BitVec 2) (d o : BitVec 7) (a : BitVec 4) (s : State) : Host.Outcome State Fault Refusal :=
  issue (.feget st d o a) none (fullEmpty .feget .feRead (fun d => destRegs .v d.toNat 4) (fun _ _ _ => 0#64) d o a) s

/-- STFS (R135, R128): one request, so that double_fill on a lane leaves every lane without effect; logged inside a transaction. DEDUCED, log 54. -/
def execStfs (st : BitVec 2) (d o : BitVec 7) (a : BitVec 4) (s : State) : Host.Outcome State Fault Refusal :=
  issue (.stfs st d o a) none (fun c s =>
    let ea := fun l => c.ea l a o
    c.watched s (c.lanes.map (fun l => { lane := l, va := ea l, size := 8, rd := true, wr := true }))
      (let xs := c.lanes.map (fun l => (l, accessVa s c.g .slice 8 8 (ea l)))
       causesFirst (errorsOf xs)
        (causesFirst (logFails s c (xs.map (fun x => (x.1, ea x.1, okPa x.2, 1))))
          (if clash s c (xs.map (fun x => (okPa x.2, 8))) then .wait
           else if (c.tx s).isSome then
             .ok (addLog c.g.team c.core (xs.map (fun x => c.entry (some x.1) (okPa x.2) (ea x.1) (.fill (c.val64 x.1 d)))) s)
           else if !c.mayRelease s (deviceScope (xs.map (fun x => okPa x.2))) then .wait
           else .ok (holdAtSlice c c.mask (s.addReq (c.req s [] (.stfs (xs.map (fun x =>
             { lane := x.1, va := ea x.1, pa := okPa x.2, data := c.val64 x.1 d })))))))))) s

/-! ### Atomics and reductions (R138 to R141) -/

/-- One request for each distinct word, with its lanes in ascending order (R139). -/
def postWords (op : AtomOp) (ty : BitVec 3) (dest : List Reg) (reg : Option Nat) (xs : List (Nat × DWord × Nat)) (ops : Nat → DWord × DWord)
    (c : Ctx) (s : State) : State :=
  let words := xs.foldl (fun (acc : List (Nat × DWord)) x => if acc.any (fun y => y.1 == x.2.2) then acc else acc ++ [(x.2.2, x.2.1)]) []
  words.foldl (fun s w =>
    let ls := (xs.filter (fun x => x.2.2 == w.1)).map (fun x => x.1)
    s.addReq { c.req s dest (.atomic op ty w.2 w.1 (ls.map (fun l => { lane := some l, x := (ops l).1, new := (ops l).2 })) reg) with
      lanes := LaneSet.of ls }) s

/-- An atomic on global memory (R138 to R140). -/
def laneAtomic (op : AtomOp) (d o : BitVec 7) (a : BitVec 4) (ty : BitVec 3) (c : Ctx) (s : State) : Res :=
  let ea := fun l => c.ea l a o
  let n := typeSize ty
  c.watched s (c.lanes.map (fun l => { lane := l, va := ea l, size := n, rd := true, wr := true }))
    (let xs := c.lanes.map (fun l => (l, accessVa s c.g .atomic n n (ea l)))
     causesFirst (errorsOf xs)
      (causesFirst (forbidFails s c (c.lanes.map (fun l => (l, ea l))))
        (let ps := xs.map (fun x => (x.1, ea x.1, okPa x.2))
         if clash s c (ps.map (fun x => (x.2.2, n))) then .wait
         else .ok (postWords op ty (destRegs .v d.toNat n) (some d.toNat) ps (fun l => atomOperands (fun k => c.valAt l d k) op ty) c s))))

/-- A reduction (R141, R128). DESIGN CHOICE, log 118. -/
def laneReduce (op : AtomOp) (d o : BitVec 7) (a : BitVec 4) (ty : BitVec 3) (c : Ctx) (s : State) : Res :=
  let ea := fun l => c.ea l a o
  let n := typeSize ty
  let x := fun l => (atomOperands (fun k => c.valAt l d k) op ty).1
  c.watched s (c.lanes.map (fun l => { lane := l, va := ea l, size := n, rd := true, wr := true }))
    (let xs := c.lanes.map (fun l => (l, accessVa s c.g .slice n n (ea l)))
     causesFirst (errorsOf xs)
      (causesFirst (logFails s c (xs.map (fun x => (x.1, ea x.1, okPa x.2, 1))))
        (let ps := xs.map (fun x => (x.1, ea x.1, okPa x.2))
         if (c.tx s).isSome then
           .ok (addLog c.g.team c.core (ps.map (fun y => c.entry (some y.1) y.2.2 y.2.1 (.reduce op ty (x y.1)))) s)
         else if clash s c (ps.map (fun x => (x.2.2, n))) then .wait
         else .ok (postWords op ty [] none ps (fun l => (x l, 0#64)) c s))))

/-- ATADD (R138). -/
def execAtadd (st : BitVec 2) (d o : BitVec 7) (a : BitVec 4) (z : BitVec 3) (s : State) : Host.Outcome State Fault Refusal :=
  issue (.atadd st d o a z) none (laneAtomic .add d o a z) s

/-- ATMIN (R138). -/
def execAtmin (st : BitVec 2) (d o : BitVec 7) (a : BitVec 4) (z : BitVec 3) (s : State) : Host.Outcome State Fault Refusal :=
  issue (.atmin st d o a z) none (laneAtomic .min d o a z) s

/-- ATMAX (R138). -/
def execAtmax (st : BitVec 2) (d o : BitVec 7) (a : BitVec 4) (z : BitVec 3) (s : State) : Host.Outcome State Fault Refusal :=
  issue (.atmax st d o a z) none (laneAtomic .max d o a z) s

/-- ATAND (R138). -/
def execAtand (st : BitVec 2) (d o : BitVec 7) (a : BitVec 4) (z : BitVec 3) (s : State) : Host.Outcome State Fault Refusal :=
  issue (.atand st d o a z) none (laneAtomic .and d o a z) s

/-- ATOR (R138). -/
def execAtor (st : BitVec 2) (d o : BitVec 7) (a : BitVec 4) (z : BitVec 3) (s : State) : Host.Outcome State Fault Refusal :=
  issue (.ator st d o a z) none (laneAtomic .or d o a z) s

/-- ATXOR (R138). -/
def execAtxor (st : BitVec 2) (d o : BitVec 7) (a : BitVec 4) (z : BitVec 3) (s : State) : Host.Outcome State Fault Refusal :=
  issue (.atxor st d o a z) none (laneAtomic .xor d o a z) s

/-- ATXCH (R138). -/
def execAtxch (st : BitVec 2) (d o : BitVec 7) (a : BitVec 4) (z : BitVec 3) (s : State) : Host.Outcome State Fault Refusal :=
  issue (.atxch st d o a z) none (laneAtomic .xch d o a z) s

/-- ATCAS (R140). -/
def execAtcas (st : BitVec 2) (d o : BitVec 7) (a : BitVec 4) (z : BitVec 3) (s : State) : Host.Outcome State Fault Refusal :=
  issue (.atcas st d o a z) none (laneAtomic .cas d o a z) s

/-- REDADD (R141). -/
def execRedadd (st : BitVec 2) (d o : BitVec 7) (a : BitVec 4) (z : BitVec 3) (s : State) : Host.Outcome State Fault Refusal :=
  issue (.redadd st d o a z) none (laneReduce .add d o a z) s

/-- REDMIN (R141). -/
def execRedmin (st : BitVec 2) (d o : BitVec 7) (a : BitVec 4) (z : BitVec 3) (s : State) : Host.Outcome State Fault Refusal :=
  issue (.redmin st d o a z) none (laneReduce .min d o a z) s

/-- REDMAX (R141). -/
def execRedmax (st : BitVec 2) (d o : BitVec 7) (a : BitVec 4) (z : BitVec 3) (s : State) : Host.Outcome State Fault Refusal :=
  issue (.redmax st d o a z) none (laneReduce .max d o a z) s

/-- REDAND (R141). -/
def execRedand (st : BitVec 2) (d o : BitVec 7) (a : BitVec 4) (z : BitVec 3) (s : State) : Host.Outcome State Fault Refusal :=
  issue (.redand st d o a z) none (laneReduce .and d o a z) s

/-- REDOR (R141). -/
def execRedor (st : BitVec 2) (d o : BitVec 7) (a : BitVec 4) (z : BitVec 3) (s : State) : Host.Outcome State Fault Refusal :=
  issue (.redor st d o a z) none (laneReduce .or d o a z) s

/-- REDXOR (R141). -/
def execRedxor (st : BitVec 2) (d o : BitVec 7) (a : BitVec 4) (z : BitVec 3) (s : State) : Host.Outcome State Fault Refusal :=
  issue (.redxor st d o a z) none (laneReduce .xor d o a z) s

/-! ### Appends (R142, R143) -/

/-- The page that an address of an append extent lies in: its base (PA and VA) and its size. -/
def appendPage (l : Launch) (va : DWord) (pa : Nat) : Nat × DWord × Nat :=
  match l.translate va.toNat with
  | some (e, _) => (e.pageBase pa, va - BitVec.ofNat 64 (pa - e.pageBase pa), e.page)
  | none => (pa, va, 0)

/-- The lanes whose page is sealed as their APPEND issues: a cause of a later rank that another lane raises comes behind theirs (R214). DEDUCED, log 146. -/
def sealFails (s : State) (c : Ctx) (ea : Nat → DWord) : List (Nat × Fail) :=
  c.lanes.filterMap (fun l => match (c.launch s).translate (ea l).toNat with
    | some (e, pa) => if s.sealed (e.pageBase pa) then some (l, ⟨.writeAfterSeal, 0, ea l⟩) else none
    | none => none)

/-- An append (R142): one request for each page, with its lanes in ascending order; fetch of the group is suspended until every slice
has answered (R210). A page sealed is found there, but where another cause stops the instruction as it issues (R214). The
bytes of the record at the lane's address are compared with registered ranges: DESIGN CHOICE, log 149. -/
def laneAppend (trial : Bool) (d o : BitVec 7) (a : BitVec 4) (z : BitVec 3) (c : Ctx) (s : State) : Res :=
  let ea := fun l => c.ea l a o
  let n := sizeOf z
  c.watched s (c.lanes.map (fun l => { lane := l, va := ea l, size := n, rd := true, wr := true }))
    (let xs := c.lanes.map (fun l => (l, accessVa s c.g .append n n (ea l)))
     let early := errorsOf xs ++ forbidFails s c (c.lanes.map (fun l => (l, ea l)))
     causesFirst (early ++ (if trial || early.isEmpty then [] else sealFails s c ea))
        (let ps := xs.map (fun x => (x.1, ea x.1, appendPage (c.launch s) (ea x.1) (okPa x.2)))
         let pages := ps.foldl (fun (acc : List (Nat × DWord × Nat)) x => if acc.any (fun y => y.1 == x.2.2.1) then acc else acc ++ [x.2.2]) []
         if clash s c (pages.map (fun p => (p.1, p.2.2))) then .wait
         else
           let s := pages.foldl (fun s p =>
             let recs := (ps.filter (fun x => x.2.2.1 == p.1)).map (fun x =>
               ({ lane := x.1, va := x.2.1, bytes := regBytes (fun k => c.valAt x.1 d k) n } : AppendRec))
             s.addReq { c.req s [.v d.toNat] (.append trial p.1 p.2.2 n recs d.toNat) with lanes := LaneSet.of (recs.map (fun r => r.lane)) }) s
           let job : AppendJob :=
             { left := pages.length, lanes := c.mask, pc := c.site.pc, next := c.site.next, word := c.site.word, pfx := c.site.pfx, sealed := [] }
           .ok (holdAtSlice c c.mask (s.modGroup c.site.gid (fun g => { g with append := some job })))))

/-- APPEND (R142). -/
def execAppend (st : BitVec 2) (d o : BitVec 7) (a : BitVec 4) (z : BitVec 3) (s : State) : Host.Outcome State Fault Refusal :=
  issue (.append st d o a z) none (laneAppend false d o a z) s

/-- APPENDT (R142). -/
def execAppendt (st : BitVec 2) (d o : BitVec 7) (a : BitVec 4) (z : BitVec 3) (s : State) : Host.Outcome State Fault Refusal :=
  issue (.appendt st d o a z) none (laneAppend true d o a z) s

/-! ### GATOM and SEAL (R179, R191) -/

/-- The operation that OPS of GATOM names (R179). -/
def gatomOp (p : BitVec 4) : AtomOp :=
  match p.toNat with
  | 0 => .add
  | 1 => .min
  | 2 => .max
  | 3 => .and
  | 4 => .or
  | 5 => .xor
  | 6 => .xch
  | _ => .cas

/-- GATOM (R179). -/
def execGatom (st : BitVec 2) (d : BitVec 7) (a : BitVec 4) (z : BitVec 3) (p : BitVec 4) (s : State) : Host.Outcome State Fault Refusal :=
  issue (.gatom st d a z p) none (fun c s =>
    let ea := c.areg a
    let n := typeSize z
    c.watched s (c.groupTouch ea n true true)
      (match accessVa s c.g .atomic n n ea with
       | .error f => c.raise f
       | .ok pa =>
         if (c.tx s).isSome then c.cause .txForbidden 0 ea
         else if clash s c [(pa, n)] then .wait
         else
           let v := atomOperands (fun k => c.gAt (d.toNat + k)) (gatomOp p) z
           .ok (s.addReq (c.req s (destRegs .g d.toNat n)
             (.atomic (gatomOp p) z ea pa [{ lane := none, x := v.1, new := v.2 }] (some d.toNat)))))) s

/-- SEAL (R191): a release at .dev, then a request to the page's home slice. DESIGN CHOICE, log 119. -/
def execSealPage (st : BitVec 2) (d a : BitVec 7) (s : State) : Host.Outcome State Fault Refusal :=
  issue (.sealPage st d a) none (fun c s =>
    let va := c.gp a
    c.watched s (c.groupTouch va 1 true true)
      (match accessVa s c.g .append 1 1 va with
       | .error f => c.raise f
       | .ok pa =>
         if (c.tx s).isSome then c.cause .txForbidden 0 va
         else if !c.mayRelease s 4 then .wait
         else .ok (s.addReq (c.req s [.g d.toNat] (.seal (appendPage (c.launch s) va pa).1 d.toNat))))) s

end Sys2Proof.Machine
end

