-- ==== Sys2Proof/Machine/Engines.lean ====
section
/-! DEFINITION. Commands for carters and cards for queues, as they issue: CPY, CPYQ and CPYSTAT (spec/08 R180 to R188), JPOST (R189,
R190, spec/18 R336, R337, spec/22 R386). -/

namespace Sys2Proof.Machine

/-! ### Ranges (R182, R243) -/

/-- The pieces of a virtual range by extent, or the first address that lies in none. -/
def rangePieces (l : Launch) : Nat → Nat → Nat → Except Nat (List (Extent × Seg))
  | 0, va, n => if n = 0 then .ok [] else .error va
  | fuel + 1, va, n =>
    if n = 0 then .ok []
    else
      match l.translate va with
      | none => .error va
      | some (e, pa) =>
        let k := min n (e.va + e.len - va)
        match rangePieces l fuel (va + k) (n - k) with
        | .error x => .error x
        | .ok rest => .ok ((e, { va := va, pa := pa, len := k }) :: rest)

/-- Check the whole of a range (R182): extents, their permissions, keys and class, in the order of R243. -/
def checkRange (s : State) (l : Launch) (keyperm : DWord) (a : Acc) (va n : Nat) : Except Fail (List Seg) :=
  let at_ := fun (x : Nat) => BitVec.ofNat 64 x
  if !canonical va || !canonical ((va + n - 1) % 2 ^ 64) || decide (2 ^ 64 < va + n) then .error ⟨.outOfLease, 0, at_ va⟩
  else
    match rangePieces l (l.extents.length + 1) va n with
    | .error x => .error ⟨.outOfLease, 0, at_ x⟩
    | .ok ps =>
      match ps.find? (fun p => (a.reads && !p.1.rd) || (a.writes && !p.1.wr)) with
      | some p => .error ⟨.outOfLease, 0, at_ p.2.va⟩
      | none =>
        match ps.find? (fun p => a.reads && !keyperm.getLsbD (2 * p.1.key)) with
        | some p => .error ⟨.keyDenied, 0, at_ p.2.va⟩
        | none =>
          match ps.find? (fun p => a.writes && !keyperm.getLsbD (2 * p.1.key + 1)) with
          | some p => .error ⟨.keyDenied, 1, at_ p.2.va⟩
          | none =>
            match ps.find? (fun p => (classDetail s p.1 p.2.pa a).isSome) with
            | some p => .error ⟨.classViolation, (classDetail s p.1 p.2.pa a).getD 0, at_ p.2.va⟩
            | none => .ok (ps.map (fun p => p.2))

/-- Check several ranges; their pieces, or the cause of the lowest rank, of the first range that raises it. -/
def checkRanges (s : State) (l : Launch) (keyperm : DWord) (a : Acc) (rs : List (Nat × Nat)) : Except Fail (List Seg) :=
  let xs := rs.map (fun r => checkRange s l keyperm a r.1 r.2)
  match firstLeast (fun f => f.why.rank) (xs.filterMap (fun x => match x with
      | .error f => some f
      | .ok _ => none)) with
  | some f => .error f
  | none => .ok (xs.flatMap (fun x => match x with
    | .ok ps => ps
    | .error _ => []))

/-- A range of window addresses that a command may name (R182): inside the windows of the team's own local address space, or for
PRIV = 1 anywhere in the on-chip aperture. -/
def checkWindow (s : State) (g : Group) (pa n : Nat) : Except Fail (List Seg) :=
  let t := s.team g.team
  let l := s.launch g.launch
  let base := fun (core off : Nat) => 2 ^ 47 + core * 0x100000 + off
  let pad := fun (core sp : Nat) => (base core (0x50000 + sp * 4096), l.scratch * 4096)
  let own := [pad t.core t.spbase] ++ (match t.odd with
      | some o => [pad o t.spodd]
      | none => [])
    ++ (if 2 ≤ l.heat then [(base (partnerOf t.core) 0x50000, 0x60000), (base (partnerOf t.core) 0, 0x40000)] else [])
    ++ (if l.priv = 1 then [(2 ^ 47, 2 ^ 46)] else [])
  if own.any (fun w => decide (w.1 ≤ pa ∧ pa + n ≤ w.1 + w.2)) then .ok [{ va := pa, pa := pa, len := n }]
  else .error ⟨.outOfLease, 0, BitVec.ofNat 64 pa⟩

/-! ### Posting a command (R180, R182, R187) -/

/-- The ticket after one (R180). -/
def nextTicket (t : Word) : Word := if t + 1 = 0#32 then 1#32 else t + 1

/-- A command of the issuing group, with nothing performed. -/
def Ctx.command (c : Ctx) (s : State) (quant : Bool) (block : BitVec 512) (src dst : List Seg) (compw : Nat) : Cmd :=
  { launch := c.g.launch, team := c.g.team, group := c.site.gid, gid := c.g.gid, core := c.core, die := dieOf c.core,
    ticket := (c.team s).ticket, quant := quant, block := block, src := src, dst := dst, compw := compw,
    state := if (c.tx s).isSome then 4 else 0, poison := false, clamp := 0, carter := none, out := [], performed := [], complete := 0,
    hostAck := false, peerAck := false, compDue := false, srcT := 0, dstT := 0 }

/-- COMPF of a command block (R181). -/
def compF (b : BitVec 512) : Bool := b.getLsbD 167
/-- FEMODE, SCOPE and the fields that follow (R181). -/
def feMode (b : BitVec 512) : Nat := bitsAt b 160 2
def dstWin (b : BitVec 512) : Bool := b.getLsbD 162
def srcWin (b : BitVec 512) : Bool := b.getLsbD 163
def cmdScope (b : BitVec 512) : Nat := bitsAt b 164 3
def cmdCompw (b : BitVec 512) : Nat := bitsAt b 192 64

/-- PA of the completion word, checked (R182); 0 without COMPF. -/
def checkCompw (s : State) (c : Ctx) (b : BitVec 512) : Except Fail Nat :=
  if !compF b then .ok 0
  else if cmdCompw b % 8 ≠ 0 then .error ⟨.misaligned, 0, BitVec.ofNat 64 (cmdCompw b)⟩
  else checkVa s (c.launch s) c.g.keyperm .store 0 (BitVec.ofNat 64 (cmdCompw b)) 8

/-- Post a command (R180, R182): the next ticket, with its ranges registered unless it is deferred. DEDUCED, log 55. -/
def postCommand (c : Ctx) (d : BitVec 7) (k : Cmd) (s : State) : State :=
  c.write [wG d k.ticket] { s.modTeam c.g.team (fun t => { t with ticket := nextTicket t.ticket }) with
    cmds := Tab.put s.cmds s.uid k, uid := s.uid + 1 }

/-- The block's own address, then its contents, then the command (R153): a team at its limit of 64 waits at issue (R180). -/
def postBlock (malformed : Ctx → State → BitVec 512 → Bool) (make : Ctx → State → BitVec 512 → Except Fail Cmd) (d a : BitVec 7)
    (c : Ctx) (s : State) : Res :=
  match localBlock s c (c.gv a).toNat 64 with
  | .error f => c.watchBlock s (c.gv a).toNat (c.raise f)
  | .ok x =>
    let b := BitVec.ofNat 512 (leNat (localBytes s x 64))
    if malformed c s b then c.illegal 10
    else c.watchBlock s (c.gv a).toNat <|
      match make c s b with
      | .error f => c.raise f
      | .ok k => if 64 ≤ s.cmds.countP (fun e => e.2.team == c.g.team) then .wait else .ok (postCommand c d k s)

/-! ### CPY (R181, R182) -/

def cpySrc (b : BitVec 512) : Nat := bitsAt b 0 64
def cpyDst (b : BitVec 512) : Nat := bitsAt b 64 64
def cpyLen (b : BitVec 512) : Nat := bitsAt b 128 32

/-- The CPY block is malformed (R181). DEDUCED, log 76. -/
def cpyBad (b : BitVec 512) : Bool :=
  let n := cpyLen b
  n == 0 || n % 8 != 0 || bitsAt b 168 24 != 0 || bitsAt b 320 192 != 0 || decide (5 < cmdScope b)
    || (srcWin b == dstWin b && meetRanges (cpySrc b) n (cpyDst b) n)

/-- The least-ranked of several causes, the first of them. DEDUCED, log 40. -/
def firstFail (fs : List (Option Fail)) : Option Fail := firstLeast (fun f => f.why.rank) (fs.filterMap id)

/-- The cause in a result. -/
def failOf {α : Type} : Except Fail α → Option Fail
  | .error f => some f
  | .ok _ => none

/-- The pieces in a result. -/
def segsOf : Except Fail (List Seg) → List Seg
  | .ok ps => ps
  | .error _ => []

/-- Check a CPY (R182) and make its command. -/
def cpyCommand (c : Ctx) (s : State) (b : BitVec 512) : Except Fail Cmd :=
  let n := cpyLen b
  let odd := fun (x : Nat) => if x % 8 = 0 then none else some (⟨.misaligned, 0, BitVec.ofNat 64 x⟩ : Fail)
  let l := c.launch s
  let src := if srcWin b then checkWindow s c.g (cpySrc b) n else checkRange s l c.g.keyperm .load (cpySrc b) n
  let dst := if dstWin b then checkWindow s c.g (cpyDst b) n else checkRange s l c.g.keyperm .store (cpyDst b) n
  let comp := checkCompw s c b
  match firstFail [odd (cpySrc b), odd (cpyDst b), failOf src, failOf dst, failOf comp] with
  | some f => .error f
  | none => .ok (c.command s false b (segsOf src) (segsOf dst) (okPa comp))

/-- CPY (R180 to R183). -/
def execCpy (st : BitVec 2) (d a : BitVec 7) (s : State) : Host.Outcome State Fault Refusal :=
  issue (.cpy st d a) none (postBlock (fun _ _ b => cpyBad b) cpyCommand d a) s

/-! ### CPYQ (R184, R185) -/

def cpyqFirst (b : BitVec 512) : Nat := bitsAt b 0 64
def cpyqCount (b : BitVec 512) : Nat := bitsAt b 64 64
def cpyqRound (b : BitVec 512) : Nat := bitsAt b 336 3

/-- A tensor of the issuing team's table. -/
def Ctx.tensor (c : Ctx) (s : State) (n : Nat) : Option Tensor := Tab.get? (c.team s).tensors n

/-- The CPYQ block is malformed (R184). -/
def cpyqBad (c : Ctx) (s : State) (b : BitVec 512) : Bool :=
  let first := cpyqFirst b
  let count := cpyqCount b
  count == 0 || bitsAt b 128 32 != 0 || feMode b == 1 || dstWin b || srcWin b || bitsAt b 168 24 != 0 || decide (5 < cmdScope b)
    || decide (4 < cpyqRound b) || bitsAt b 339 173 != 0
    || (match c.tensor s (bitsAt b 320 8), c.tensor s (bitsAt b 328 8) with
      | some x, some y =>
        let size := tRows y * tCols y
        let unit := if tScaling y = 2 then 64 * tCols y else 32
        tElem x != 15 || !(tScaling y == 1 || tScaling y == 2) || decide (2 ^ 64 ≤ first + count) || decide (tRows x * tCols x < first + count)
          || decide (size < first + count) || first % unit != 0 || (count % unit != 0 && first + count != size)
      | _, _ => true)

/-- The columns of each row that linear indices `first` to `first + count - 1` cover: row, first and last column. -/
def rowSpans (t : Tensor) (first count : Nat) : List (Nat × Nat × Nat) :=
  let cols := tCols t
  let last := first + count - 1
  (List.range (last / cols - first / cols + 1)).map (fun k =>
    let r := first / cols + k
    (r, if k = 0 then first % cols else 0, if r = last / cols then last % cols else cols - 1))

/-- The byte ranges of elements. -/
def elemRanges (t : Tensor) (first count : Nat) : List (Nat × Nat) :=
  (rowSpans t first count).map (fun x => rowRange t x.1 x.2.1 x.2.2)

/-- The byte ranges of the scales of elements: block scales, then band scales. -/
def scaleRanges (t : Tensor) (first count : Nat) : List (Nat × Nat) :=
  let rows := rowSpans t first count
  if tScaling t = 0 then []
  else
    rows.map (fun x => scaleRange t x.1 x.2.1 x.2.2)
      ++ (if tScaling t = 2 then (rows.filter (fun x => x.1 % 64 == 0)).map (fun x => (bandVa t x.1, 2)) else [])

/-- Check a CPYQ (R182, R185) and make its command. -/
def cpyqCommand (c : Ctx) (s : State) (b : BitVec 512) : Except Fail Cmd :=
  let x := (c.tensor s (bitsAt b 320 8)).getD 0
  let y := (c.tensor s (bitsAt b 328 8)).getD 0
  let l := c.launch s
  let src := checkRanges s l c.g.keyperm .load (elemRanges x (cpyqFirst b) (cpyqCount b))
  let dst := checkRanges s l c.g.keyperm .store (elemRanges y (cpyqFirst b) (cpyqCount b) ++ scaleRanges y (cpyqFirst b) (cpyqCount b))
  let comp := checkCompw s c b
  match firstFail [failOf src, failOf dst, failOf comp] with
  | some f => .error f
  | none => .ok { c.command s true b (segsOf src) (segsOf dst) (okPa comp) with srcT := x, dstT := y }

/-- CPYQ (R184, R185). -/
def execCpyq (st : BitVec 2) (d a : BitVec 7) (s : State) : Host.Outcome State Fault Refusal :=
  issue (.cpyq st d a) none (postBlock cpyqBad cpyqCommand d a) s

/-! ### CPYSTAT (R186) -/

/-- The status word of a ticket. -/
def statusWord (s : State) (team : Nat) (ticket : Word) : DWord :=
  match ticketStatus s team ticket with
  | some f => BitVec.ofNat 64 (f.state % 8 + (if f.poison then 8 else 0) + min f.clamp (2 ^ 32 - 1) * 2 ^ 32)
  | none => 0x12#64

/-- CPYSTAT (R186). -/
def execCpystat (st : BitVec 2) (d a : BitVec 7) (s : State) : Host.Outcome State Fault Refusal :=
  issue (.cpystat st d a) none (fun c s => .ok (c.write (wG64 d (statusWord s c.g.team (c.gv a))) s)) s

/-! ### JPOST (R189, R190) -/

/-- Two clusters are neighbours (R331). -/
def neighbours (a b : Nat) : Bool :=
  let gap := fun (x y : Nat) => (x - y) + (y - x)
  a / 48 == b / 48 && gap (a % 48 % 8) (b % 48 % 8) + gap (a % 48 / 8) (b % 48 / 8) == 1

/-- Offer a card to a cluster queue (R336): the lowest free entry. -/
def postCluster (cluster : Nat) (card : DWord) (launch : Nat) (s : State) : Nat × State :=
  match listFindIdx (fun e => !e.valid) 0 (s.cluster cluster).queue with
  | none => (1, s)
  | some k =>
    let l := s.launch launch
    let e : ClusterEntry := { card := card, valid := true, taken := false, ctxid := l.ctxid, parent := launch, ctx := l.ctx, order := s.uid }
    (0, { s.modCluster cluster (fun c => { c with queue := listModify c.queue k (fun _ => e) }) with uid := s.uid + 1 })

/-- Offer a card to a device queue (R337). DEDUCED, log 41. -/
def postDevice (q : Nat) (card : DWord) (launch : Nat) (s : State) : Nat × State :=
  let d := s.queue q
  if !d.devpost || d.ctx.toNat != (s.launch launch).ctx then (2, s)
  else if (d.tail - d.head).toNat = 2 ^ d.log2n then (1, s)
  else
    let pa := d.base.toNat + 32 * (d.tail.toNat % 2 ^ d.log2n)
    let s := wake pa (s.poke pa (leBytes 32 card.toNat))
    (0, s.modQueue q (fun d => { d with tail := d.tail + 1#16, parents := Tab.put d.parents d.tail.toNat launch }))

/-- Offer a card to a queue of the Ultra Ethernet engine (R386). DEDUCED, log 94. -/
def postEngine (q : Nat) (card : DWord) (launch : Nat) (s : State) : Nat × State :=
  if 256 ≤ (s.engine.queues.getD q []).length then (1, s)
  else
    (0, { s with
      engine := { s.engine with queues := listModify s.engine.queues q (fun x => x ++ [{ order := s.uid, launch := launch, card := card }]) }
      uid := s.uid + 1 })

/-- Offer a card to the target that a word describes (R189, R190): the status, and the state after. DESIGN CHOICE, log 135. -/
def offer (target : Word) (card : DWord) (core launch : Nat) (s : State) : Nat × State :=
  let kind := bitsAt target 0 2
  let cluster := bitsAt target 8 8
  let queue := bitsAt target 16 6
  if bitsAt target 2 6 ≠ 0 ∨ bitsAt target 22 10 ≠ 0 ∨ (kind ≠ 1 ∧ cluster ≠ 0) ∨ (kind < 2 ∧ queue ≠ 0) then (2, s)
  else
    match kind with
    | 0 => postCluster (clusterOf core) card launch s
    | 1 => if neighbours (clusterOf core) cluster && decide (cluster < 192) then postCluster cluster card launch s else (2, s)
    | 2 => postDevice queue card launch s
    | _ => if queue < 8 then postEngine queue card launch s else (2, s)

/-- JPOST (R189, R190): a release at .dev, the card's checks, the offer. -/
def execJpost (st : BitVec 2) (d a b : BitVec 7) (s : State) : Host.Outcome State Fault Refusal :=
  issue (.jpost st d a b) none (fun c s =>
    let card := c.gp a
    c.watched s (c.groupTouch card 128 true false)
      (if card.toNat % 8 ≠ 0 then c.cause .misaligned 0 card
       else
         match checkRange s (c.launch s) c.g.keyperm .load card.toNat 128 with
         | .error f => c.raise f
         | .ok _ =>
           if (c.tx s).isSome then c.cause .txForbidden 0 card
           else if !c.mayRelease s 4 then .wait
           else
             let out := offer (c.gv b) card c.core c.g.launch s
             .ok (c.write [wG d (BitVec.ofNat 32 out.1)] out.2))) s

end Sys2Proof.Machine
end

