-- ==== Sys2Proof/Machine/Transactions.lean ====
section
/-! DEFINITION. Tile transactions as their instructions open and close them (spec/08 R192 to R195, spec/16 R318 to R328), the assay
table (R329), and the tensor table's own instructions (spec/08 R196, R197). -/

namespace Sys2Proof.Machine

/-! ### The assay table (R329) -/

/-- The way is tagged so. DESIGN CHOICE, log 46. -/
def AssayWay.tagged (w : AssayWay) (ctx : Nat) (entry : DWord) (ladder : Nat) : Bool :=
  w.ctx == ctx && w.entry == entry && w.ladder == ladder

/-- The tag of a ladder in a launch and the way that holds it in a tile's set. -/
def assayWay (s : State) (l : Launch) (ladder tile : Nat) : Option AssayWay :=
  (Tab.getD s.assay (tile % 4096) []).find? (fun w => w.tagged l.ctxid l.entry ladder)

/-- Put a way at the front of its set; the least recently used way beyond four leaves. -/
def assayPut (tile : Nat) (w : AssayWay) (s : State) : State :=
  let others := (Tab.getD s.assay (tile % 4096) []).filter (fun x => !x.tagged w.ctx w.entry w.ladder)
  { s with assay := Tab.put s.assay (tile % 4096) ((w :: others).take 4) }

/-- How a transaction ends, as the assay table tells outcomes apart. -/
inductive TxEnd where
  | trip | calm | forced
deriving DecidableEq, Repr

/-- The update after a transaction of a launch. -/
def assayUpdate (l : Launch) (x : Tx) (how : TxEnd) (s : State) : State :=
  let held := assayWay s l x.ladder x.tile
  let w := held.getD { ctx := l.ctxid, entry := l.entry, ladder := x.ladder, rung := 0, calm := 0 }
  match how with
  | .trip => assayPut x.tile { w with rung := max w.rung (x.rung + 1), calm := 0 } s
  | .forced => assayPut x.tile { w with rung := x.top, calm := 0 } s
  | .calm =>
    if held.isNone then s
    else if w.calm + 1 = 3 then assayPut x.tile { w with rung := w.rung - 1, calm := 0 } s
    else assayPut x.tile { w with calm := w.calm + 1 } s

/-! ### Opening (R192, R319) -/

/-- The rung at which a transaction starts, and the assay table after its reading. -/
def startRung (s : State) (l : Launch) (t : Team) (n tile top : Nat) : Nat × State :=
  let predicted :=
    if l.det then (0, s)
    else
      match assayWay s l n tile with
      | some w => (min w.rung top, assayPut tile w s)
      | none => (0, s)
  match t.replay with
  | some r => if r.ladder = n ∧ r.tile = tile then (r.rung, s) else predicted
  | none => predicted

/-- TXBEGIN (R192, R319). -/
def execTxbegin (st : BitVec 2) (d a : BitVec 7) (n : BitVec 3) (s : State) : Host.Outcome State Fault Refusal :=
  issue (.txbegin st d a n) none (fun c s =>
    let l := c.launch s
    let lad := l.ladders.getD n.toNat 0
    let tile := (c.gv a).toNat
    if !ladderValid lad || decide (2 ^ 24 ≤ tile) then c.illegal 10
    else if c.g.gid ≠ 0 ∨ (c.tx s).isSome then c.cause .txForbidden 0 0#64
    else
      let r := startRung s l (c.team s) n.toNat tile (ladderTop lad)
      let x : Tx :=
        { id := s.uid, ladder := n.toNat, tile := tile, rung := r.1, top := ladderTop lad, range := 0, cancel := 0, rtrip := false,
          ctrip := false, log := [], logBytes := [], shadows := [] }
      let s := { r.2.modTeam c.g.team (fun t => { t with tx := some x, replay := none }) with uid := s.uid + 1 }
      .ok (c.write [wG d (BitVec.ofNat 32 r.1)] s)) s

/-! ### Closing (R193, R194, R324 to R326) -/

/-- A Loom command issued in the open transaction has not retired, or a load of the team has not returned: the transaction does not
close yet. DEDUCED, log 45. -/
def txBusy (s : State) (team : Nat) (x : Tx) : Bool :=
  s.looms.any (fun e => e.2.team == team && e.2.tx == some x.id)
    || s.reqs.any (fun e => e.2.team == team && (match e.2.kind with
      | .load _ _ => true
      | _ => false))

/-- A failed commit, or the end of a transaction under R328: log, shadows and deferred commands are discarded, the team's groups end,
and its task waits to be run again at a rung (R280, R325). -/
def requeue (team rung : Nat) (s : State) : State :=
  let t := s.team team
  match t.tx with
  | none => s
  | some x =>
    let r : ReplayTask := { teamid := t.teamid, team := team, replay := { ladder := x.ladder, tile := x.tile, rung := rung, top := x.top } }
    let s := (abortTx team s).modLaunch t.launch (fun l => if l.fail.isSome then l else { l with replays := l.replays ++ [r] })
    dropGroups team (fun _ _ => true) s

/-- Every write of the team is where a release at .dev asks it to be, with the writes whose values its groups have read early (R272), and every Loom
command of the team has retired (R281, R317). -/
def teamReleased (s : State) (team : Nat) : Bool :=
  s.reqs.all (fun e => e.2.team != team || e.2.released s.time 4) && s.looms.all (fun e => e.2.team != team)
    && s.groups.all (fun e => e.2.team != team || earlyDone s e.1 (LaneSet.below e.2.threads.length) 4)

/-- The result of a commit (R193). -/
def commitResult (x : Tx) (forced : Bool) : Word := BitVec.ofNat 32 (1 + (if forced then 2 else 0) + x.rung * 256)

/-- The threads whose stores a log holds, by group: every lane of a group for one of its uniform stores. -/
def logThreads (log : List LogEntry) : Tab LaneSet :=
  log.foldl (fun m e => Tab.put m e.group (Tab.getD m e.group 0#64 ||| (match e.lane with
    | some l => LaneSet.one l
    | none => LaneSet.below 64))) []

/-- Apply the log as one release at .dev (R281, R324): it goes to the home slices as one request, which carries the logged stores of their threads (R271)
and whose values threads of the team may have read (R272); and deferred commands cease to be deferred: they register their ranges now (R187). -/
def commitTx (d : BitVec 7) (x : Tx) (forced : Bool) (c : Ctx) (s : State) : State :=
  let team := c.g.team
  let s := s.modTeam team (fun t => { t with tx := none })
  let s : State := { s with cmds := s.cmds.map (fun e => if e.2.team = team then (e.1, { e.2 with deferred := false }) else e) }
  let s := (s.cmds.filter (fun e => e.2.team == team && e.2.state == 4)).foldl (fun s e =>
    { s with cmds := Tab.put (Tab.del s.cmds e.1) s.uid { e.2 with state := 0, deferred := true }, uid := s.uid + 1 }) s
  if x.log.isEmpty then c.write [wG d (commitResult x forced)] s
  else
    let n := s.uid
    x.readers.foldl (fun s e => s.modGroup e.1 (fun g => g.modLanes e.2 (fun _ t => { t with early := NatSet.ins t.early n })))
      (s.addReq { c.req s [.g d.toNat] (.commit x.log d.toNat (commitResult x forced)) with others := logThreads x.log })

/-- TXCOMMIT in either form (R193, R326). -/
def closeTx (force : Bool) (d : BitVec 7) (c : Ctx) (s : State) : Res :=
  match c.tx s with
  | none => c.cause .txForbidden 0 0#64
  | some x =>
    let tripped := x.rtrip || x.ctrip
    if c.g.gid ≠ 0 ∨ (force && !(c.g.handler && c.g.entered == Why.ladderExhausted.code)) then c.cause .txForbidden 0 0#64
    else if txBusy s c.g.team x then .wait
    else if tripped && !force then
      if x.rung < x.top then .ok (requeue c.g.team (x.rung + 1) (assayUpdate (c.launch s) x .trip s))
      else c.cause .ladderExhausted x.rung 0#64
    else if !teamReleased s c.g.team || !c.mayRelease s 4 then .wait
    else .ok (commitTx d x tripped c (assayUpdate (c.launch s) x (if tripped then .forced else .calm) s))

/-- TXCOMMIT (R193). -/
def execTxcommit (st : BitVec 2) (d : BitVec 7) (s : State) : Host.Outcome State Fault Refusal :=
  issue (.txcommit st d) none (closeTx false d) s

/-- TXCOMMIT.force (R193). -/
def execTxcommitForce (st : BitVec 2) (d : BitVec 7) (s : State) : Host.Outcome State Fault Refusal :=
  issue (.txcommitForce st d) none (closeTx true d) s

/-- TXABORT (R194). DEDUCED, log 45. -/
def execTxabort (st : BitVec 2) (s : State) : Host.Outcome State Fault Refusal :=
  issue (.txabort st) none (fun c s =>
    match c.tx s with
    | none => c.cause .txForbidden 0 0#64
    | some _ =>
      if c.g.gid ≠ 0 then c.cause .txForbidden 0 0#64
      else if s.reqs.any (fun e => e.2.team == c.g.team && (match e.2.kind with
          | .load _ _ => true
          | _ => false)) then .wait
      else .ok (abortTx c.g.team s)) s

/-- What TXSTAT reads of an open transaction (R195). -/
def Tx.stat (x : Tx) (sel : Nat) : Nat :=
  match sel with
  | 0 => x.range
  | 1 => x.cancel
  | 2 => (x.logBytes.map (fun e => e.2)).sum
  | _ => x.shadows.length

/-- TXSTAT (R195). -/
def execTxstat (st : BitVec 2) (d : BitVec 7) (e : BitVec 2) (s : State) : Host.Outcome State Fault Refusal :=
  issue (.txstat st d e) none (fun c s =>
    .ok (c.write [wG d (BitVec.ofNat 32 (match c.tx s with
      | some x => x.stat e.toNat
      | none => 0))] s)) s

/-! ### The tensor table (R196, R197) -/

/-- Put entries into a team's tensor table from a number on; an entry with VALID 0 is undefined. -/
def putTensors (first : Nat) (es : List Tensor) (t : Team) : Team :=
  { t with tensors := es.zipIdx.foldl (fun m e => if tValid e.1 then Tab.put m (first + e.2) e.1 else Tab.del m (first + e.2)) t.tensors }

/-- The bytes of pieces of memory, read on the general path. -/
def piecesBytes (s : State) (core : Nat) (ps : List Seg) : List Byte :=
  ps.flatMap (fun p => (List.range p.len).map (fun k => loadByte s core .gen (p.pa + k)))

/-- The range locks that a read of pieces meets (R129). -/
def piecesLocked (s : State) (core : Nat) (ps : List Seg) : Option Fail :=
  (ps.filterMap (fun p => (rangeHit s core false p.pa p.len).map (fun d => (⟨.rangeConflict, d, BitVec.ofNat 64 p.va⟩ : Fail)))).head?

/-- TTLOAD (R196, R153): the image is 64-byte aligned, and a read of the issuing threads (R272). DEDUCED, log 43. -/
def execTtload (st : BitVec 2) (d a b : BitVec 7) (s : State) : Host.Outcome State Fault Refusal :=
  issue (.ttload st d a b) none (fun c s =>
    let first := (c.gv d).toNat
    let count := (c.gv b).toNat
    let va := c.gp a
    if 255 < first ∨ count = 0 ∨ 256 < count ∨ 256 < first + count then c.illegal 10
    else
      c.watched s (c.groupTouch va (64 * count) true false)
        (if va.toNat % 64 ≠ 0 then c.cause .misaligned 0 va
         else
           match checkRange s (c.launch s) c.g.keyperm .load va.toNat (64 * count) with
           | .error f => c.raise f
           | .ok ps =>
             match piecesLocked s c.core ps with
             | some f => c.raise f
             | none =>
               let bytes := piecesBytes s c.core ps
               let es := (List.range count).map (fun k => (BitVec.ofNat 512 (leNat ((bytes.drop (64 * k)).take 64)) : Tensor))
               let bad := ps.any (fun p => s.unreadable p.pa p.len)
               if !bad && es.any (fun e => tValid e && tensorBad e) then c.illegal 10
               else if (c.tx s).isSome then c.cause .txForbidden 0 va
               else if bad then c.cause .poisoned 0 va
               else if clash s c (ps.map (fun p => (p.pa, p.len))) then .wait
               else
                 let pas := ps.flatMap (fun p => (List.range p.len).map (fun k => p.pa + k))
                 .ok ((noteRead c.site.gid c.mask (storesSeen s c.core .gen (ps.map (fun p => (p.pa, p.len)))) (readUntil s c.core .gen pas) s).modTeam
                   c.g.team (putTensors first es)))) s

/-- A tensor entry with one of its 64-bit fields changed. DEDUCED, log 44. -/
def setTensorField (t : Tensor) (f : Nat) (v : DWord) : Tensor :=
  (t &&& ~~~(BitVec.ofNat 512 ((2 ^ 64 - 1) * 2 ^ (64 * f)))) ||| BitVec.ofNat 512 (v.toNat * 2 ^ (64 * f))

/-- TTSET (R197, R297). -/
def execTtset (st : BitVec 2) (f a b : BitVec 7) (s : State) : Host.Outcome State Fault Refusal :=
  issue (.ttset st f a b) none (fun c s =>
    let n := (c.gv a).toNat
    if 255 < n then c.illegal 10
    else
      match c.tensor s n with
      | none => if (c.tx s).isSome then c.cause .txForbidden 0 0#64 else .ok s
      | some t =>
        let t' := setTensorField t f.toNat (c.gp b)
        if tensorBad t' then c.illegal 10
        else if (c.tx s).isSome then c.cause .txForbidden 0 0#64
        else .ok (s.modTeam c.g.team (putTensors n [t']))) s

end Sys2Proof.Machine
end

