-- ==== Sys2Proof/Machine/Landing.lean ====
section
/-! DEFINITION. What happens to a request after its instruction has issued: results that land (spec/01 R63, spec/10 R210), writes, atomics,
appends, seals and full/empty accesses performed at their home slices (spec/07 R135 to R143, spec/12 R254 to R264, spec/14 R267 to R281,
spec/16 R324), and the steps of waits and timeouts (spec/07 R136, R137, spec/08 R175, spec/12 R259, spec/18 R341). A step named while what it
needs does not hold leaves the state as it is. -/

namespace Sys2Proof.Machine

/-! ### Results that land (R63, R210) -/

/-- The block of a load served from afar that a request answers (R25). -/
def Group.loadBlock (g : Group) (n : Nat) : Option (Nat × Block) := g.blocks.find? (fun b => b.2.kind == .load n)

/-- Register writes of request `n` land, the issue set that the load blocked goes on (R25), and the group chooses if it had nothing to issue. -/
def landResult (n gid : Nat) (ws : List RegWrite) (s : State) : State :=
  (s.delReq n).modGroup gid (fun g =>
    let g := g.land ws
    match g.loadBlock n with
    | some b => (g.goOn b.1).rechoose
    | none => g.rechoose)

/-- The response of a load that blocks an issue set of a halted group is held until the resume (R230). -/
def heldByHalt (s : State) (n gid : Nat) : Bool :=
  match Tab.get? s.groups gid with
  | some g => g.halted && (g.loadBlock n).isSome
  | none => false

/-- A result lands, or is held. -/
def landWrites (n gid : Nat) (ws : List RegWrite) (s : State) : State :=
  if heldByHalt s n gid then s.modReq n (fun q => { q with kind := .value ws }) else landResult n gid ws s

/-- An 8-byte word that a thread reads early, or from its team's log, and so not from memory (R128, R270). -/
def wordCovered (s : State) (r : Req) (p : Path) (w : Nat) : Bool :=
  (p == .gen && s.reqs.any (fun e => clusterOf e.2.core == clusterOf r.core && (match e.2.kind with
    | .store ps => ps.any (fun x => x.pa == 8 * w && x.bytes.length == 8)
    | _ => false)))
  || (match (s.team r.team).tx with
    | some t => t.log.any (fun e => e.pa == 8 * w && (match e.op with
      | .write b => b.length == 8
      | .masked b => b.all Option.isSome
      | .fill _ => true
      | .reduce _ _ _ | .tile _ => false))
    | none => false)

/-- A part of a load reads poison: its home, its replica or the copy that serves it holds a poisoned word. -/
def partPoisoned (s : State) (r : Req) (p : Path) (x : LoadPart) : Bool :=
  (List.range ((x.pa + x.size - 1) / 8 - x.pa / 8 + 1)).any (fun k =>
    let w := x.pa / 8 + k
    (match supplier s r.core p x.pa with
      | some c => NatSet.mem c.bad (w % 16)
      | none => NatSet.mem s.poison (replicaOf s r.core (8 * w) / 8)) && !wordCovered s r p w)

/-- A load outside local memory reads where it goes: it waits for its cluster's earlier stores to those bytes; and its peer answers. -/
def loadReady (s : State) (n : Nat) (r : Req) (parts : List LoadPart) : Bool :=
  parts.all (fun x => peerAnswers s x.pa
    && (aperture x.pa == 0 || !storesAhead s (clusterOf r.core) n [(x.pa, x.size)]))

/-- Bytes and F/E bits of a page are copied to another place in local HBM. -/
def copyPage (src dst n : Nat) (s : State) : State :=
  let outside := fun (a : Nat) => decide (a < dst) || decide (dst + n ≤ a)
  { s with
    mem := (s.mem.filter (fun c => decide (src ≤ c.1 ∧ c.1 < src + n))).foldl (fun m c => Sparse.set memDefault m (dst + (c.1 - src)) c.2)
      (s.mem.filter (fun c => outside c.1))
    full := (s.full.filter (fun w => decide (src ≤ 8 * w ∧ 8 * w < src + n))).foldl (fun m w => NatSet.ins m ((dst + (8 * w - src)) / 8))
      (s.full.filter (fun w => outside (8 * w)))
    poison := s.poison.filter (fun w => outside (8 * w)) }

/-- A free place for `n` bytes in the replica pool of a die: at its start, or behind a replica. -/
def poolPlace (d : Die) (n : Nat) : Option Nat :=
  let base := d.replbase.toNat * 0x200000
  (base :: d.replicas.map (fun e => e.2.1 + e.2.2)).find? (fun a =>
    decide (base ≤ a) && decide (a + n ≤ base + d.replsize.toNat * 0x200000) && d.replicas.all (fun e => !meetRanges a n e.2.1 e.2.2))

/-- In hardware replica mode a die that reads a sealed page of another die copies the page, with its F/E bits, into its replica pool, while that has
room (R262). A page that holds poison is not copied. DEDUCED, log 65. -/
def replicate (launch core : Nat) (x : LoadPart) (s : State) : State :=
  let die := dieOf core
  match (s.launch launch).translate x.va.toNat with
  | none => s
  | some (e, pa) =>
    let base := e.pageBase pa
    if e.append && !s.mode.getLsbD 3 && aperture pa == 0 && homeDie pa != die && s.sealed base && !s.poisoned base e.page
        && (Tab.get? (s.die die).replicas base).isNone then
      match poolPlace (s.die die) e.page with
      | some at_ =>
        if aperture at_ = 0 ∧ s.populated (at_ + e.page - 1) then
          wakeWhere (fun sector => decide (at_ / 64 ≤ sector) && decide (sector < (at_ + e.page) / 64))
            ((copyPage base at_ e.page s).modDie die (fun d => { d with replicas := Tab.put d.replicas base (at_, e.page) }))
        else s
      | none => s
    else s

/-- An entry of a log has its words: it is not the place of an MSTORE that has still to retire (R322). -/
def LogOp.written : LogOp → Bool
  | .tile _ => false
  | _ => true

/-- Threads that read bytes which their team's log holds read what its commit will write: a later release of theirs awaits that (R272). -/
def noteLogged (r : Req) (parts : List LoadPart) (s : State) : State :=
  match (s.team r.team).tx with
  | some t =>
    if t.log.any (fun e => e.op.written && parts.any (fun x => meetRanges (e.pa - e.pa % 8) 8 x.pa x.size)) then
      modTx r.team (fun t => { t with readers := Tab.put t.readers r.group (Tab.getD t.readers r.group 0#64 ||| r.lanes) }) s
    else s
  | none => s

/-- A load reads its bytes now, and its result lands in every lane (R63, R127, R130). Copies of the lines are kept for up to `lease` ns
(R268). DEDUCED, log 74. -/
def landLoad (n : Nat) (r : Req) (p : Path) (parts : List LoadPart) (lease : Nat) (s : State) : State :=
  if !loadReady s n r parts then s
  else
    let bad := parts.filter (partPoisoned s r p)
    match bad with
    | x :: _ =>
      let lanes := LaneSet.of (bad.filterMap (fun x => x.lane))
      poisonStop r 0 (if x.lane.isSome then lanes else r.lanes) x.va (endRequest n r) s
    | [] =>
      let ws := parts.flatMap (fun x => loadWrites x (partBytes s r.team r.core p x))
      let seen := storesSeen s r.core p (parts.map (fun x => (x.pa, x.size)))
      let until_ := (parts.map (fun x => if aperture x.pa ≤ 1 then staleUntil s x.pa (partBytes s r.team r.core p x) else 0)).foldl max 0
      let s := noteLogged r parts (noteRead r.group r.lanes seen until_ s)
      let s := parts.foldl (fun s x => replicate r.launch r.core x s) s
      let s := if lease = 0 then s else parts.foldl (fun s x => bring (holdersFor r.core x.pa) r.core p x.pa lease s) s
      landWrites n r.group ws s

/-- PENDING_WRITE_LANDS (R63, R210): a result that has been found, or a load, lands. `lease` is the lease in ns that the caches take on
the lines of a load. -/
def execPendingWriteLands (req lease : Nat) (s : State) : Host.Outcome State Fault Refusal :=
  .next (match Tab.get? s.reqs req with
    | none => s
    | some r =>
      match r.kind with
      | .value ws => if r.notBefore ≤ s.time then landWrites req r.group ws s else s
      | .load p parts => landLoad req r p parts lease s
      | _ => s)

/-! ### Writes performed (R269, R281, R286, R324) -/

/-- A word written to global memory, and not to a window, is folded into the task's digest (R360). -/
def foldWrite (team : Nat) (v : DWord) (pa : Nat) (s : State) : State := if aperture pa = 2 then s else foldTask team v s

/-- Bytes of one 8-byte word are written where their address lies, and folded. -/
def writeHome (team launch : Nat) (va : DWord) (pa : Nat) (bytes : List Byte) (s : State) : State :=
  foldWrite team (if aperture pa = 2 then 0#64 else foldBytes va bytes) pa (placeHome team launch pa bytes s)

/-- Bytes of an aligned 8-byte word are written, and the others kept; only a whole word clears poison (R389). -/
def State.pokeMasked (s : State) (pa : Nat) (bytes : List (Option Byte)) : State :=
  if bytes.all Option.isSome then s.poke pa (bytes.filterMap id)
  else bytes.zipIdx.foldl (fun s b => match b.1 with
    | some x => s.setByte (pa + b.2) x
    | none => s) s

/-- What a word that a carter or the Loom writes adds to the digest (R360): one fold for the word. -/
def foldMasked (va : DWord) (bytes : List (Option Byte)) : DWord := foldBytes va (bytes.map (fun b => b.getD 0#8))

/-- Bytes of an aligned 8-byte word are written where it lies, and the word is folded. -/
def writeMasked (team launch : Nat) (va : DWord) (pa : Nat) (bytes : List (Option Byte)) (s : State) : State :=
  foldWrite team (if aperture pa = 2 then 0#64 else foldMasked va bytes) pa
    (match aperture pa with
     | 0 => wake pa (tagLine team pa (s.pokeMasked pa bytes))
     | 1 => wake pa (s.pokeMasked pa bytes)
     | 2 =>
       if bytes.all Option.isSome then placeHome team launch pa (bytes.filterMap id) s
       else bytes.zipIdx.foldl (fun s b => match b.1 with
         | some x => placeHome team launch (pa + b.2) [x] s
         | none => s) s
     | _ => s.pokeMasked pa bytes)

/-- A request whose writes have all been performed, completed and acknowledged. -/
def Req.finished (r : Req) (time : Nat) : Bool :=
  (match r.kind with
    | .store ps => ps.isEmpty && r.dest.isEmpty
    | _ => false) && decide (r.notBefore ≤ time) && !r.hostAck && !r.peerAck

/-- Requests that have finished are forgotten. -/
def reap (s : State) : State := { s with reqs := s.reqs.filter (fun e => !e.2.finished s.time) }

/-- A store's part that may be performed: its cluster's earlier stores to those bytes, and its own lower lanes', have been; a peer
answers. -/
def partReady (s : State) (n : Nat) (r : Req) (ps : List StorePart) (part : Nat) (x : StorePart) : Bool :=
  peerAnswers s x.pa && !storesAhead s (clusterOf r.core) n [(x.pa, x.bytes.length)]
    && (ps.take part).all (fun y => !meetRanges y.pa y.bytes.length x.pa x.bytes.length)

/-- One part of a store is performed (R126, R269). -/
def performPart (n : Nat) (r : Req) (ps : List StorePart) (part : Nat) (s : State) : State :=
  match ps[part]? with
  | none => s
  | some x =>
    if !partReady s n r ps part x then s
    else
      let done := writeCompletion s x.pa
      let s1 := dropFar r.core x.pa (writeHome r.team r.launch x.va x.pa x.bytes s)
      reap (s1.modReq n (fun q => { q with
        kind := .store (ps.eraseIdx part), notBefore := max q.notBefore done, hostAck := q.hostAck || aperture x.pa == 3,
        peerAck := q.peerAck || aperture x.pa == 1 }))

/-- A reduction meets no poison: it is performed on its word, and folded (R138, R141, R360). -/
def reduceHome (team : Nat) (op : AtomOp) (ty : BitVec 3) (va : DWord) (pa : Nat) (ops : List AtomLane) (s : State) : State × List DWord :=
  let size := typeSize ty
  let m := BitVec.ofNat 64 (s.read pa size)
  let out := ops.foldl (fun (acc : DWord × List DWord) x => (atomicF op ty acc.1 x.x x.new, acc.2 ++ [acc.1])) (m, [])
  let s1 := s.poke pa (leBytes size out.1.toNat)
  let s2 := if aperture pa = 0 then tagLine team pa s1 else s1
  (wake pa (ops.foldl (fun s x => foldAtomic team op va x.x x.new s) s2), out.2)

/-- One entry of a committed log is performed (R324): a write; a fill, unless its word is full, which counts in FEDROP; a reduction,
whose poison is recorded against the launch (R141). Every core of the team reads its own writes from then on, on every path, as it did
from the log (R128, R267, R281). -/
def performEntry (team launch : Nat) (e : LogEntry) (s : State) : State :=
  let t := s.team team
  (e.core :: t.core :: t.odd.toList).foldl (fun s c => dropAll c e.pa s) (match e.op with
    | .write b => writeHome team launch e.va e.pa b s
    | .masked b => writeMasked team launch e.va e.pa b s
    | .tile _ => s
    | .fill d =>
      if s.isFull e.pa then s.modCore e.core (fun k => { k with fedrop := k.fedrop + 1#64 })
      else wake e.pa (feEffect team .stfs e.va e.pa d s).2.1
    | .reduce op ty x =>
      if s.poisoned e.pa (typeSize ty) then poisonRecord launch e.pa s
      else (reduceHome team op ty e.va e.pa [{ lane := e.lane, x := x, new := 0 }] s).1)

/-- The next entry of a committed log is performed, in entry order (R281, R324). After the last, the result may land once every
completion time has passed. -/
def performLog (n : Nat) (r : Req) (es : List LogEntry) (reg : Nat) (result : Word) (s : State) : State :=
  match es with
  | [] => s
  | e :: rest =>
    if storesAhead s (clusterOf r.core) n [(e.pa - e.pa % 8, 8)] || !peerAnswers s e.pa then s
    else
      let done := writeCompletion s e.pa
      (performEntry r.team r.launch e s).modReq n (fun q => { q with
        notBefore := max q.notBefore done,
        kind := if rest.isEmpty then .value [{ lane := none, reg := reg, val := result }] else .commit rest reg result })

/-! ### Atomics and reductions (R138 to R141, R264) -/

/-- The lanes and addresses at which the words of one atomic instruction, that have still to be performed, hold poison or lie at an absent peer: no
lane of it then has an effect (R100, R384). -/
def atomicPoisoned (s : State) (r : Req) : List (List Nat × DWord) :=
  (siblings s r).filterMap (fun e => match e.2.kind with
    | .atomic _ ty va pa ops (some _) => if s.broken pa (typeSize ty) then some (ops.filterMap (fun o => o.lane), va) else none
    | _ => none)

/-- What an atomic or reduction does as it is performed on its word: the lanes in ascending order, with nothing between (R139). -/
def atomicEffect (n : Nat) (r : Req) (op : AtomOp) (ty : BitVec 3) (va : DWord) (pa : Nat) (ops : List AtomLane) (reg : Option Nat) (s : State) :
    State :=
  let done := writeCompletion s pa
  let out := reduceHome r.team op ty va pa ops s
  let s1 := residue r done false (aperture pa == 1) (dropOwn r.core pa out.1)
  match reg with
  | none => s1.delReq n
  | some d => s1.modReq n (fun q => { q with kind := .value ((ops.zip out.2).flatMap (fun x => atomWrites x.1.lane d ty x.2)) })

/-- An atomic or reduction reaches its word (R139). The words of one atomic are performed each in its own time, once none of them can raise a cause
any more (R100). A reduction to a peer that gives no answer stays until it is dropped (R384); one that meets poison leaves the word as it is. DESIGN
CHOICE, log 127. -/
def performAtomic (n : Nat) (r : Req) (op : AtomOp) (ty : BitVec 3) (va : DWord) (pa : Nat) (ops : List AtomLane) (reg : Option Nat)
    (s : State) : State :=
  if storesAhead s (clusterOf r.core) n [(pa, typeSize ty)] then s
  else if reg.isNone then
    if !peerAnswers s pa then s
    else if s.poisoned pa (typeSize ty) then poisonRecord r.launch pa (s.delReq n)
    else atomicEffect n r op ty va pa ops reg s
  else if r.sure then atomicEffect n r op ty va pa ops reg s
  else
    match atomicPoisoned s r with
    | x :: t =>
      poisonStop r 1 (LaneSet.of (if x.1.isEmpty then LaneSet.toList r.lanes else (x :: t).flatMap (fun y => y.1))) x.2
        (fun s => (siblings s r).foldl (fun s e => endRequest e.1 e.2 s) s) s
    | [] => if allReady s r then atomicEffect n r op ty va pa ops reg (markSure r s) else s

/-- SLICE_ATOMIC_PERFORM (R138 to R141, R264, R277). -/
def execSliceAtomicPerform (req : Nat) (s : State) : Host.Outcome State Fault Refusal :=
  .next (match Tab.get? s.reqs req with
    | some r =>
      match r.kind with
      | .atomic op ty va pa ops reg => performAtomic req r op ty va pa ops reg s
      | _ => s
    | none => s)

/-! ### Appends and seals (R142, R143, R191, R260, R261) -/

/-- Round up to a multiple. -/
def roundUpTo (n m : Nat) : Nat := (n + m - 1) / m * m

/-- The 8-byte parts of a record. -/
def recordParts (bytes : List Byte) : List (List Byte) :=
  if bytes.length ≤ 8 then [bytes] else [bytes.take 8, bytes.drop 8]

/-- One record is written at a tail and folded (R142, R360). -/
def placeRecord (r : Req) (base size t : Nat) (x : AppendRec) (s : State) : State :=
  let pa := base + t
  let page := BitVec.ofNat 64 (x.va.toNat - x.va.toNat % size)
  let s1 := tagLine r.team pa (s.poke pa x.bytes)
  let s2 := (recordParts x.bytes).foldl (fun s b => foldTask r.team (BitVec.ofNat 64 (leNat b) ^^^ page) s) s1
  dropOwn r.core pa (wake pa s2)

/-- The records of a request on an open page: D0 by lane, the tail after them, whether one was placed, the latest completion time. -/
structure Placed where
  outs : List RegWrite
  tail : Nat
  placed : Bool
  done : Nat
  state : State

/-- Place the records of a request in ascending lane (R142). -/
def placeRecords (r : Req) (base size bytes reg : Nat) (recs : List AppendRec) (s : State) : Placed :=
  recs.foldl (fun a x =>
    let d0 := fun (v : Nat) => a.outs ++ [({ lane := some x.lane, reg := reg, val := BitVec.ofNat 32 v } : RegWrite)]
    if a.tail + bytes ≤ size then
      { outs := d0 a.tail, tail := a.tail + bytes, placed := true, done := max a.done (completionOf a.state (base + a.tail)),
        state := placeRecord r base size a.tail x a.state }
    else { a with outs := d0 0xFFFFFFFF })
    { outs := [], tail := roundUpTo (s.tail base) bytes, placed := false, done := 0, state := s }

/-- Write TAIL and SEALED of a page's tail word (R260), a write of memory as any other (R258). -/
def setTail (base tail : Nat) (sealed : Bool) (s : State) : State :=
  let pa := s.tailPa base
  wake pa (s.write pa 8 (s.read pa 8 / 2 ^ 32 * 2 ^ 32 + (if sealed then 2 ^ 31 else 0) + tail % 2 ^ 22))

/-- A slice has answered one request of a group's append: `sealed` are the lanes that it refused. After the last answer the lanes performed
move past the instruction, and write_after_seal is raised on the others (R142, R217). -/
def answerAppend (r : Req) (refused : List (Nat × DWord)) (s : State) : State :=
  match Tab.get? s.groups r.group with
  | none => s
  | some g =>
    match g.append with
    | none => s
    | some j =>
      let held := refused.foldl (fun m x => Tab.put m x.1 x.2) j.sealed
      if 1 < j.left then s.modGroup r.group (fun g => { g with append := some { j with left := j.left - 1, sealed := held } })
      else
        let bad := LaneSet.of (Tab.keys held)
        let s1 := goPast r.group (j.lanes &&& ~~~bad) j.next (s.modGroup r.group (fun g => { g with append := none }))
        stepHalt r.group <| match held with
        | [] => s1
        | x :: _ =>
          lateCause { r with lanes := j.lanes, pc := j.pc, word := j.word, pfx := j.pfx }
            { why := .writeAfterSeal, detail := 0, lanes := bad, addr := x.2 } bad s1

/-- An append to one page is performed (R142). -/
def performAppend (n : Nat) (r : Req) (trial : Bool) (base size bytes : Nat) (recs : List AppendRec) (reg : Nat) (s : State) : State :=
  if s.sealed base then
    if trial then
      answerAppend r [] (s.modReq n (fun q => { q with
        kind := .value (recs.map (fun x => { lane := some x.lane, reg := reg, val := 0xFFFFFFFE#32 })) }))
    else answerAppend r (recs.map (fun x => (x.lane, x.va))) (s.delReq n)
  else
    let out := placeRecords r base size bytes reg recs s
    let s1 := if out.placed then residue r out.done false false (setTail base out.tail false out.state) else out.state
    answerAppend r [] (s1.modReq n (fun q => { q with kind := .value out.outs }))

/-- SLICE_APPEND_PERFORM (R142, R143, R261). -/
def execSliceAppendPerform (req : Nat) (s : State) : Host.Outcome State Fault Refusal :=
  .next (match Tab.get? s.reqs req with
    | some r =>
      match r.kind with
      | .append trial base size bytes recs reg => performAppend req r trial base size bytes recs reg s
      | _ => s
    | none => s)

/-- SLICE_SEAL_PERFORM (R191, R261). -/
def execSliceSealPerform (req : Nat) (s : State) : Host.Outcome State Fault Refusal :=
  .next (match Tab.get? s.reqs req with
    | some r =>
      match r.kind with
      | .seal base reg =>
        let out := fun (v : Nat) => fun (q : Req) => { q with kind := .value [{ lane := none, reg := reg, val := BitVec.ofNat 32 v }] }
        if s.sealed base then s.modReq req (out 0xFFFFFFFE) else (setTail base (s.tail base) true s).modReq req (out (s.tail base))
      | _ => s
    | none => s)

/-! ### Full/empty accesses (R135, R136, R254, R278) -/

/-- A form that may change its word or its bit. -/
def feChanges : FeKind → Bool
  | .ldw | .feget => false
  | _ => true

/-- A lane is one of the open handler's threads (R217, R218): what it waits for has been issued in the handler. -/
def Group.inHandler (g : Group) (lane : Nat) : Bool := g.handler && g.hset.has lane

/-- Park and polled lanes make an instruction a blocking point: outstanding fixed-latency writes complete (R66), and where it has been
issued in a handler the group freezes (R154). -/
def parkLane (r : Req) (lane : Nat) (s : State) : State :=
  match Tab.get? s.groups r.group with
  | none => s
  | some g =>
    if g.inHandler lane then freeze r.site 0x24 0 r.lanes 0#64 s
    else s.modGroup r.group (fun g => { g with dues := [] })

/-- The lanes of a waiting form that have reached their slices, cannot be performed and find no monitor and no free park record (R137): each needs
one. -/
def exhausted (s : State) (g : Group) (r : Req) : List (Nat × DWord) :=
  s.reqs.filterMap (fun e =>
    if e.2.group = r.group ∧ e.2.pc = r.pc ∧ e.2.lanes = r.lanes ∧ e.2.time = r.time then
      match e.2.kind with
      | .fe k l va pa data _ .flying =>
        if feWaits k && (!feReady s k pa || feBehind s e.1 e.2 l pa) && (holdWaiter e.2.launch pa (feRecord g k l pa data) s).2.isNone then
          some (l, va)
        else none
      | _ => none
    else none)

/-- A group may take a cause found while it waits: it is resident, neither frozen nor halted, and its cluster is not stopped (R225, R230,
R373). -/
def mayTake (s : State) (g : Group) : Bool :=
  decide ((s.cluster (clusterOf g.core)).thermal < 2) &&
  (match g.place with
    | .resident _ _ => true
    | .evicted _ => false) && !g.frozen && !g.halted

/-- A waiting lane that cannot be performed at once is held, or raises park_exhausted (R136, R137, R256). A lane that has been issued in the handler and would
be parked or polled freezes the group with no effect (R154); one that other threads issued before it keeps its condition (R218). The lane of a group that has gone or is frozen is withdrawn (R222). -/
def holdLane (n : Nat) (r : Req) (kind : FeKind) (lane : Nat) (va : DWord) (pa : Nat) (data : DWord) (reg : Nat) (s : State) : State :=
  match Tab.get? s.groups r.group with
  | none => s.delReq n
  | some g =>
    if g.frozen then s.delReq n
    else
      let put := fun (w : Watch) (s : State) => s.modReq n (fun q => { q with kind := .fe kind lane va pa data reg w })
      let out := holdWaiter r.launch pa (feRecord g kind lane pa data) s
      match out.2 with
      | none =>
        if !mayTake s g then s
        else
          let xs := exhausted s g r
          let low := (xs.map (fun x => x.1)).foldl min lane
          feStop r .parkExhausted (lane :: xs.map (fun x => x.1)) ((xs.lookup low).getD va) s
      | some (.monitor k) => put (.monitor k) out.1
      | some w => if g.inHandler lane then (if mayTake s g then parkLane r lane s else s) else parkLane r lane (put w out.1)

/-- A lower lane of the same instruction is on its way to the word, or an earlier store of its cluster has still to reach it (R127, R136). -/
def feQueued (s : State) (n : Nat) (r : Req) (lane pa : Nat) : Bool :=
  s.reqs.any (fun e => e.1 != n && e.2.group == r.group && e.2.pc == r.pc && e.2.lanes == r.lanes && e.2.time == r.time
      && (match e.2.kind with
        | .fe _ l _ q _ _ .flying => decide (l < lane) && q / 8 == pa / 8
        | _ => false))
    || storesAhead s (clusterOf r.core) n [(pa, 8)]

/-- A lane's access is performed as it reaches its slice, with what the change wakes. -/
def feAtSlice (n : Nat) (r : Req) (kind : FeKind) (lane : Nat) (va : DWord) (pa : Nat) (data : DWord) (reg : Nat) (s : State) : State :=
  let s1 := fePerform n r kind lane va pa data reg .flying s
  if feChanges kind then wake pa s1 else s1

/-- A lane's access reaches its home slice: it is performed, with what the change wakes, or held; behind a lower lane that is held, it is held
too. The words of one FEGET or FESET are performed each in its own time, once none of them can raise a cause any more (R100). -/
def feArrive (n : Nat) (r : Req) (kind : FeKind) (lane : Nat) (va : DWord) (pa : Nat) (data : DWord) (reg : Nat) (s : State) : State :=
  if feQueued s n r lane pa then s
  else if !feWaits kind then
    (if r.sure || !(fePoisoned s r kind lane va pa).isEmpty then feAtSlice n r kind lane va pa data reg s
     else if allReady s r then feAtSlice n { r with sure := true } kind lane va pa data reg (markSure r s)
     else s)
  else if !peerAnswers s pa then s
  else if feReady s kind pa && !feBehind s n r lane pa then feAtSlice n r kind lane va pa data reg s
  else holdLane n r kind lane va pa data reg s

/-- The lanes of an STFS that raise double_fill: their word is full, or a lower lane fills it (R135). -/
def doubleFills (s : State) (ls : List FillLane) : List FillLane :=
  ls.filter (fun x => s.isFull x.pa || ls.any (fun y => decide (y.lane < x.lane) && y.pa / 8 == x.pa / 8))

/-- An STFS reaches its words (R135): double_fill leaves every lane without effect (R100); else every lane fills its word. -/
def performFills (n : Nat) (r : Req) (ls : List FillLane) (s : State) : State :=
  if ls.any (fun x => !peerAnswers s x.pa) || storesAhead s (clusterOf r.core) n (ls.map (fun x => (x.pa, 8))) then s
  else
    match doubleFills s ls with
    | x :: t =>
      stepHalt r.group
        (lateCause r { why := .doubleFill, detail := 0, lanes := LaneSet.of ((x :: t).map (fun y => y.lane)), addr := x.va } r.lanes (s.delReq n))
    | [] =>
      let s1 := ls.foldl (fun s x =>
        let done := writeCompletion s x.pa
        residue r done false (aperture x.pa == 1) (dropOwn r.core x.pa (wake x.pa (feEffect r.team .stfs x.va x.pa x.data s).2.1))) (s.delReq n)
      stepHalt r.group (goPast r.group r.lanes r.site.next s1)

/-- SLICE_FE_ACCESS (R135, R136, R254, R278). -/
def execSliceFeAccess (req : Nat) (s : State) : Host.Outcome State Fault Refusal :=
  .next (match Tab.get? s.reqs req with
    | some r =>
      match r.kind with
      | .fe kind lane va pa data reg .flying => feArrive req r kind lane va pa data reg s
      | .stfs ls => performFills req r ls s
      | _ => s
    | none => s)

/-! ### Polled tries and timeouts (R136, R137, R175, R225, R259, R341) -/

/-- FE_POLL_TRY (R136): every 256 ref ticks, resident or evicted. -/
def execFePollTry (req : Nat) (s : State) : Host.Outcome State Fault Refusal :=
  .next (match Tab.get? s.reqs req with
    | some r =>
      match r.kind with
      | .fe kind lane va pa data reg (.polled at_) =>
        if s.time < at_ then s
        else if feReady s kind pa && !feBehind s req r lane pa then wake pa (fePerform req r kind lane va pa data reg (.polled at_) s)
        else s.modReq req (fun q => { q with kind := .fe kind lane va pa data reg (.polled (s.time + 256 * refTick)) })
      | _ => s
    | none => s)

/-- FE_TIMEOUT (R137): when the first waiting lane's budget runs out, every lane still waiting is withdrawn, and the lanes whose budget has
run out raise fe_timeout. An evicted group is restored first (R225). -/
def execFeTimeout (req : Nat) (s : State) : Host.Outcome State Fault Refusal :=
  .next (match Tab.get? s.reqs req with
    | some r =>
      match r.kind, Tab.get? s.groups r.group with
      | .fe _ _ _ _ _ _ (.done _), _ => s
      | .fe kind lane va _ _ _ _, some g =>
        if feWaits kind && mayTake s g && budgetOver s g r lane then
          let spent := ((feSiblings s r).filter (fun e => budgetOver s g r e.2)).map (fun e => e.2)
          let low := spent.foldl min lane
          let addr := match (feSiblings s r).find? (fun e => e.2 == low) with
            | some e => (match Tab.get? s.reqs e.1 with
              | some { kind := .fe _ _ a _ _ _ _, .. } => a
              | _ => va)
            | none => va
          feStop r .feTimeout spent addr s
        else s
      | _, _ => s
    | none => s)

/-- WAIT_TIMEOUT (R175): the timeout of a blocked WAIT has passed, and its conditions do not hold. -/
def execWaitTimeout (group wait : Nat) (s : State) : Host.Outcome State Fault Refusal :=
  .next (match Tab.get? s.groups group with
    | some g =>
      match Tab.get? g.blocks wait with
      | some { kind := .wait es any (some t) _, .. } =>
        if mayTake s g && decide (t ≤ s.time) then finishWait group wait ((waitResult s g es any).getD 0xFFFFFFFF#32) s else s
      | _ => s
    | none => s)

/-- A polled condition is due. -/
def WaitEntry.due (e : WaitEntry) (time : Nat) : Bool :=
  match e.watch with
  | .polled at_ => decide (at_ ≤ time)
  | _ => false

/-- WAIT_POLL (R259): polled conditions are evaluated every 256 ref ticks. -/
def execWaitPoll (group wait : Nat) (s : State) : Host.Outcome State Fault Refusal :=
  .next (match Tab.get? s.groups group with
    | some g =>
      match Tab.get? g.blocks wait with
      | some { kind := .wait es any deadline dest, lanes := ls, next := nx, woken := none } =>
        if !es.any (fun e => e.due s.time) then s
        else
          match retryWait group wait s with
          | some s' => s'
          | none =>
            let again := es.map (fun e => if e.due s.time then { e with watch := .polled (s.time + 256 * refTick) } else e)
            s.modGroup group (fun g => { g with blocks := Tab.put g.blocks wait { lanes := ls, next := nx, kind := .wait again any deadline dest } })
      | _ => s
    | none => s)

/-- GATE_POLL (R341): a gate that found no monitor, or whose peer gives no answer (R384), is tried every 256 ref ticks. -/
def execGatePoll (launch gate : Nat) (s : State) : Host.Outcome State Fault Refusal :=
  .next (match (s.launch launch).gates[gate]? with
    | some { pa := pa, resolved := false, watch := .polled at_ } =>
      if s.time < at_ then s
      else
        s.modLaunch launch (fun l => openGates { l with gates := listModify l.gates gate (fun g =>
          if gateFull s pa then { g with resolved := true } else { g with watch := .polled (s.time + 256 * refTick) }) })
    | _ => s)

/-- LEASE_EXPIRY (R268): a copy whose lease has ended is dropped. A peer copy has no lease, and leaves when its line is evicted (R287). DESIGN CHOICE, log 56. -/
def execLeaseExpiry (copy : Nat) (s : State) : Host.Outcome State Fault Refusal :=
  .next (match Tab.get? s.copies copy with
    | some k =>
      let gone := match k.holder with
        | .peer _ => true
        | _ => decide (k.expiry ≤ s.time)
      if gone then { s with copies := Tab.del s.copies copy } else s
    | none => s)

/-! ### Links (R264, R286, R288, R384) -/

/-- Change a card of the Ultra Ethernet engine. -/
def State.modCard (s : State) (n : Nat) (f : UeCard → UeCard) : State :=
  { s with engine := { s.engine with cards := Tab.modify s.engine.cards n f } }

/-- PEER_ACKNOWLEDGEMENT (R286): a peer has acknowledged a request's writes, or those of a carter command or an engine card. -/
def execPeerAcknowledgement (req : Nat) (s : State) : Host.Outcome State Fault Refusal :=
  .next (reap (((s.modReq req (fun r => { r with peerAck := false })).modCmd req (fun c => { c with peerAck := false })).modCard req
    (fun k => { k with peerAck := false })))

/-- HOST_ACKNOWLEDGEMENT (R288). -/
def execHostAcknowledgement (req : Nat) (s : State) : Host.Outcome State Fault Refusal :=
  .next (reap (((s.modReq req (fun r => { r with hostAck := false })).modCmd req (fun c => { c with hostAck := false })).modCard req
    (fun k => { k with hostAck := false })))

/-- LINK_LEVEL_RETRY (R384): a flit is sent again; no program sees it. -/
def execLinkLevelRetry (s : State) : Host.Outcome State Fault Refusal := .next s

end Sys2Proof.Machine
end

