-- ==== Sys2Proof/Machine/Quant.lean ====
section
/-! DEFINITION. Conversion of binary32 values into tensors, as CPYQ and MSTORE make it (spec/05 R77 to R91, R97, spec/08 R185, spec/16
R295, R312): codes packed into bytes, with the scales of each block and band. -/

namespace Sys2Proof.Machine

/-- Pack codes of a width, element 0 first (R77); padding bits of the last byte are 0. -/
def packCodes (bits : Nat) (codes : List Nat) : List Byte :=
  leBytes ((bits * codes.length + 7) / 8) ((codes.zipIdx.map (fun c => c.1 % 2 ^ bits * 2 ^ (bits * c.2))).sum)

/-- The draw of a stochastic decision for an element of a tensor (R80). -/
def elemDraw (y : Tensor) (r c : Nat) : Word :=
  let idx : DWord := BitVec.ofNat 64 (r * tCols y + c)
  genH (tSeed y ^^^ (idx >>> 32)) (idx.extractLsb' 0 32) 3

/-- Bytes to be written at a virtual address. -/
structure Patch where
  va : Nat
  bytes : List Byte
deriving DecidableEq, Repr

/-- What a conversion writes, and how many elements it clamped (R89). -/
structure Quantised where
  patches : List Patch
  clamps : Nat
deriving DecidableEq, Repr

/-- Join the outcomes of several rows. -/
def Quantised.join (qs : List Quantised) : Quantised :=
  { patches := qs.flatMap (fun q => q.patches), clamps := (qs.map (fun q => q.clamps)).sum }

/-- A row of values into columns from `c` on of row `r` of a tensor without scales: exactly for 32-bit elements (R97), else under the
plain conversion (R78 to R82). -/
def plainRow (y : Tensor) (mode : Rnd) (r c : Nat) (vs : List Word) : Quantised :=
  let e := tElem y
  let code := fun (x : Word × Nat) =>
    if e = 14 ∨ e = 15 then x.1.toNat else conv (NarrowFmt.ofCode e) mode (elemDraw y r (c + x.2)) (valF32 x.1)
  { patches := [{ va := elemVa y r c, bytes := packCodes (elemBits e) (vs.zipIdx.map code) }], clamps := 0 }

/-- Cut a list into pieces of `n`, with at most `fuel` pieces. -/
def chunks {α : Type} (n : Nat) : Nat → List α → List (List α)
  | 0, _ => []
  | fuel + 1, xs => if xs.isEmpty then [] else xs.take n :: chunks n fuel (xs.drop n)

/-- A row of values into an MX tensor, from a column that begins a block (R87, R89). -/
def mxRow (y : Tensor) (mode : Rnd) (r c : Nat) (vs : List Word) : Quantised :=
  let f := NarrowFmt.ofCode (tElem y)
  let blocks := chunks 32 vs.length vs
  let out := blocks.zipIdx.map (fun b =>
    let scale := mxScale f (valF32 (blockMax b.1))
    (scale, b.1.zipIdx.map (fun x => convMx f mode (elemDraw y r (c + 32 * b.2 + x.2)) scale (valF32 x.1))))
  let codes := out.flatMap (fun o => o.2)
  { patches := [{ va := elemVa y r c, bytes := packCodes (elemBits (tElem y)) (codes.map (fun x => x.1)) },
                { va := scaleVa y r c, bytes := out.map (fun o => BitVec.ofNat 8 o.1) }],
    clamps := codes.countP (fun x => x.2) }

/-- A row of values into a BSF4 tensor under its band scale, from a column that begins a block (R90, R91). -/
def bsf4Row (y : Tensor) (mode : Rnd) (band r c : Nat) (vs : List Word) : Quantised :=
  let blocks := chunks 8 vs.length vs
  let out := blocks.zipIdx.map (fun b =>
    let q := bsf4Block (valF32 (blockMax b.1)) band
    (q, b.1.zipIdx.map (fun x => convBsf4 mode (elemDraw y r (c + 8 * b.2 + x.2)) q band (valF32 x.1))))
  let codes := out.flatMap (fun o => o.2)
  { patches := [{ va := elemVa y r c, bytes := packCodes 4 (codes.map (fun x => x.1)) },
                { va := scaleVa y r c, bytes := out.map (fun o => BitVec.ofNat 8 o.1) }],
    clamps := codes.countP (fun x => x.2) }

/-- Rows of values, each with its row number and first column, into a tensor; rows of one band of a BSF4 tensor share a band scale (R90). -/
def quantRows (y : Tensor) (mode : Rnd) (rows : List (Nat × Nat × List Word)) : Quantised :=
  if tScaling y = 2 then
    let bands := rows.foldl (fun (m : NatSet) r => NatSet.ins m (r.1 / 64)) []
    Quantised.join (bands.map (fun k =>
      let mine := rows.filter (fun r => r.1 / 64 == k)
      let scale := bsf4Band (valF32 (blockMax (mine.flatMap (fun r => r.2.2))))
      Quantised.join ({ patches := [{ va := bandVa y (64 * k), bytes := leBytes 2 scale }], clamps := 0 }
        :: mine.map (fun r => bsf4Row y mode scale r.1 r.2.1 r.2.2))))
  else Quantised.join (rows.map (fun r => if tScaling y = 1 then mxRow y mode r.1 r.2.1 r.2.2 else plainRow y mode r.1 r.2.1 r.2.2))

/-! ### From virtual addresses to words (R126, R183) -/

/-- PA of a virtual address in the pieces of a command's ranges. -/
def piecePa (ps : List Seg) (va : Nat) : Option Nat :=
  match ps.find? (fun p => decide (p.va ≤ va ∧ va < p.va + p.len)) with
  | some p => some (p.pa + (va - p.va))
  | none => none

/-- The bytes of patches by physical address, each with its virtual address. -/
def patchBytes (ps : List Seg) (xs : List Patch) : Tab (Nat × Byte) :=
  xs.foldl (fun m x => x.bytes.zipIdx.foldl (fun m b =>
    match piecePa ps (x.va + b.2) with
    | some pa => Tab.put m pa (x.va + b.2, b.1)
    | none => m) m) []

/-- Bytes, in rising address, as writes of the aligned 8-byte words they lie in. -/
def wordPuts (m : Tab (Nat × Byte)) : List WordPut :=
  (m.foldl (fun (acc : List WordPut) e =>
    let k := e.1 % 8
    match acc with
    | x :: t =>
      if x.pa = e.1 - k then { x with bytes := listModify x.bytes k (fun _ => some e.2.2) } :: t
      else { va := BitVec.ofNat 64 (e.2.1 - k), pa := e.1 - k, bytes := listModify (List.replicate 8 none) k (fun _ => some e.2.2) } :: x :: t
    | [] => [{ va := BitVec.ofNat 64 (e.2.1 - k), pa := e.1 - k, bytes := listModify (List.replicate 8 none) k (fun _ => some e.2.2) }]) []).reverse

end Sys2Proof.Machine
end

