-- ==== Sys2Proof/Machine/Carters.lean ====
section
/-! DEFINITION. Carters (spec/08 R183, R185, R188, spec/14 R282 to R284): a command starts, its words are performed one by one, it completes
and writes its completion word, or it freezes on poison. -/

namespace Sys2Proof.Machine

/-! ### Ranges in the way (R183, R303) -/

/-- Two lists of pieces meet. -/
def segsMeet (a b : List Seg) : Bool := a.any (fun x => b.any (fun y => x.hits y.pa y.len))

/-- The ranges that outstanding Loom and carter operations registered before number `n` hold: destinations and sources. -/
def heldBefore (s : State) (n : Nat) : List Seg × List Seg :=
  let ks := s.cmds.filter (fun e => decide (e.1 < n) && (e.2.state == 0 || e.2.state == 1 || e.2.state == 3))
  let ls := s.looms.filter (fun e => decide (e.1 < n))
  (ks.flatMap (fun e => e.2.dst) ++ ls.flatMap (fun e => e.2.dst ++ e.2.windows), ks.flatMap (fun e => e.2.src) ++ ls.flatMap (fun e => e.2.src))

/-- Nothing registered earlier holds a destination that meets these ranges, or a source that meets the destination. -/
def rangesFree (s : State) (n : Nat) (src dst : List Seg) : Bool :=
  let held := heldBefore s n
  !segsMeet held.1 (src ++ dst) && !segsMeet held.2 dst

/-- A command may start, a free carter apart (R183, R187): it is queued, the ranges are free, and the log of the transaction that deferred it, if one
did, has been applied. -/
def cmdStartable (s : State) (n : Nat) (c : Cmd) : Bool :=
  c.state == 0 && rangesFree s n c.src c.dst
    && (!c.deferred || s.reqs.all (fun e => e.2.team != c.team || decide (e.1 < n) || (match e.2.kind with
      | .commit _ _ _ => false
      | _ => true)))

/-! ### Words (R181, R183) -/

/-- The virtual and physical address of the byte at an offset of a range, given by its pieces. -/
def pieceAt : List Seg → Nat → Option (Nat × Nat)
  | [], _ => none
  | p :: t, off => if off < p.len then some (p.va + off, p.pa + off) else pieceAt t (off - p.len)

/-- How many words a command writes. -/
def Cmd.count (c : Cmd) : Nat := if c.quant then c.out.length else cpyLen c.block / 8

/-- The source word of word `i` of a CPY. -/
def Cmd.source (c : Cmd) (i : Nat) : Option (Nat × Nat) := if c.quant then none else pieceAt c.src (8 * i)

/-- A carter reads poison at an address: a poisoned word, or a word of an absent peer (R188, R384). -/
def readsPoison (s : State) (pa n : Nat) : Bool := (aperture pa ≤ 2 && s.poisoned pa n) || !peerPresent s pa

/-- The first word of a CPY still to be performed whose source is poisoned. -/
def cpyPoison (s : State) (c : Cmd) : Option Nat :=
  ((List.range c.count).find? (fun i => !NatSet.mem c.performed i && (match c.source i with
    | some x => readsPoison s x.2 8
    | none => false))).bind (fun i => (c.source i).map (fun x => x.1))

/-- The first source element of a CPYQ that is poisoned, by its address. -/
def cpyqPoison (s : State) (c : Cmd) : Option Nat :=
  ((elemRanges c.srcT (cpyqFirst c.block) (cpyqCount c.block)).flatMap (fun r => (List.range (r.2 / 4)).map (fun k => r.1 + 4 * k))).find?
    (fun va => match piecePa c.src va with
      | some pa => readsPoison s pa 4 || !peerAnswers s pa
      | none => false)

/-- The address at which a running command meets poison. -/
def cmdPoison (s : State) (c : Cmd) : Option Nat :=
  if c.quant then (if c.poison then some ((cpyqPoison s c).getD (elemVa c.srcT 0 0)) else none) else cpyPoison s c

/-- A CPYQ's two passes (R185): the words it writes, and its clamps. -/
def cpyqWords (s : State) (c : Cmd) : List WordPut × Nat :=
  let rows := (rowSpans c.srcT (cpyqFirst c.block) (cpyqCount c.block)).flatMap (fun x =>
    (List.range (x.2.2 + 1 - x.2.1)).map (fun k => (x.1, x.2.1 + k)))
  let cells := rows.zipIdx.map (fun e =>
    let w := BitVec.ofNat 32 (match piecePa c.src (elemVa c.srcT e.1.1 e.1.2) with
      | some pa => leNat ((List.range 4).map (fun k => homeByte s (pa + k)))
      | none => 0)
    (cpyqFirst c.block + e.2, w))
  let cols := tCols c.dstT
  let spans := rowSpans c.dstT (cpyqFirst c.block) (cpyqCount c.block)
  let q := quantRows c.dstT (Rnd.ofCode (cpyqRound c.block)) (spans.map (fun x =>
    (x.1, x.2.1, ((cells.drop (x.1 * cols + x.2.1 - cpyqFirst c.block)).take (x.2.2 + 1 - x.2.1)).map (fun e => e.2))))
  (wordPuts (patchBytes c.dst q.patches), q.clamps)

/-- CARTER_START (R183, R185): a free carter of the die takes the command issued earliest on the die that can start. DESIGN CHOICE, log 26. DESIGN CHOICE, log 116. -/
def execCarterStart (cmd carter : Nat) (s : State) : Host.Outcome State Fault Refusal :=
  .next (match Tab.get? s.cmds cmd with
    | none => s
    | some c =>
      let free := (s.carter carter).cmd.isNone && !(s.carter carter).frozen && decide (carter / 8 = c.die)
      let first := s.cmds.all (fun e => decide (cmd ≤ e.1) || e.2.die != c.die || !cmdStartable s e.1 e.2)
      if free && first && cmdStartable s cmd c then
        let s1 := s.setCarter carter { cmd := some cmd, frozen := false }
        if c.quant then
          let bad := (cpyqPoison s c).isSome
          let out := if bad then ([], 0) else cpyqWords s c
          s1.modCmd cmd (fun c => { c with state := 1, carter := some carter, poison := bad, out := out.1, clamp := out.2, since := s.time })
        else s1.modCmd cmd (fun c => { c with state := 1, carter := some carter, since := s.time })
      else s)

/-- The bit that a carter gives a destination word (R183): none where it keeps the bit. DESIGN CHOICE, log 7. -/
def carterBit (s : State) (mode : Nat) (src : Option Nat) : Option Bool :=
  match mode with
  | 0 => none
  | 1 => match src with
    | some pa => some (if aperture pa ≤ 1 then s.isFull pa else Config.carriedBit s.free)
    | none => none
  | 2 => some true
  | _ => some false

/-- A payload word is written at its home (R183, R360, R362): value and bit together, then what they wake. -/
def carterWrite (c : Cmd) (x : WordPut) (bit : Option Bool) (s : State) : State :=
  if aperture x.pa ≤ 1 then
    let s1 := foldTask c.team (foldMasked x.va x.bytes) (s.pokeMasked x.pa x.bytes)
    let s2 := if aperture x.pa = 0 then tagLine c.team x.pa s1 else s1
    wake x.pa (match bit with
      | none => s2
      | some true => resolveGates x.pa (s2.setFull x.pa true)
      | some false => s2.setFull x.pa false)
  else writeMasked c.team c.launch x.va x.pa x.bytes s

/-- Word `i` of a running command: what it writes, and its source. -/
def Cmd.word (c : Cmd) (s : State) (i : Nat) : Option (WordPut × Option Nat) :=
  if c.quant then (c.out[i]?).map (fun x => (x, none))
  else
    match pieceAt c.src (8 * i), pieceAt c.dst (8 * i) with
    | some a, some b =>
      some ({ va := BitVec.ofNat 64 b.1, pa := b.2, bytes := (List.range 8).map (fun k => some (homeByte s (a.2 + k))) }, some a.2)
    | _, _ => none

/-- One payload word is read and written (R183). -/
def performWord (n : Nat) (c : Cmd) (i : Nat) (s : State) : State :=
  if c.state ≠ 1 ∨ c.poison ∨ c.count ≤ i ∨ NatSet.mem c.performed i then s
  else
    match c.word s i with
    | none => s
    | some (x, src) =>
      let bad := match src with
        | some pa => readsPoison s pa 8 || !peerAnswers s pa
        | none => false
      if bad || !peerAnswers s x.pa then s
      else
        let done := writeCompletion s x.pa
        let carried := feMode c.block = 1
        let s1 := carterWrite c x (carterBit s (feMode c.block) src) (if carried then { s with free := s.free + 1 } else s)
        s1.modCmd n (fun c => { c with
          performed := NatSet.ins c.performed i, since := s.time, complete := max c.complete done, hostAck := c.hostAck || aperture x.pa == 3,
          peerAck := c.peerAck || aperture x.pa == 1 })

/-- A command ceases to be outstanding: its carter is free, and its team keeps its status (R180, R186). -/
def finishCmd (n : Nat) (c : Cmd) (s : State) : State :=
  let s1 := { s with cmds := Tab.del s.cmds n }.modTeam c.team
    (fun t => t.finish { ticket := c.ticket, state := 2, poison := c.poison, clamp := c.clamp })
  match c.carter with
  | some k => s1.setCarter k { cmd := none, frozen := false }
  | none => s1

/-- CARTER_PAYLOAD_COMPLETE (R183): every word has been performed; the ranges are released. -/
def execCarterPayloadComplete (carter : Nat) (s : State) : Host.Outcome State Fault Refusal :=
  .next (match (s.carter carter).cmd with
    | none => s
    | some n =>
      match Tab.get? s.cmds n with
      | none => s
      | some c =>
        if c.state = 1 ∧ !c.poison ∧ c.performed.length = c.count then
          if compF c.block then wakeInner (s.modCmd n (fun c => { c with state := 2, compDue := true }))
          else wakeInner (finishCmd n c s)
        else s)

/-- CARTER_COMPLETION_WORD (R183, R284): after every payload write's completion time, and at .sys its acknowledgement. -/
def execCarterCompletionWord (carter : Nat) (s : State) : Host.Outcome State Fault Refusal :=
  .next (match (s.carter carter).cmd with
    | none => s
    | some n =>
      match Tab.get? s.cmds n with
      | none => s
      | some c =>
        if c.compDue && decide (c.complete ≤ s.time) && (cmdScope c.block != 5 || (!c.hostAck && !c.peerAck)) then
          let out := fun pa bytes s => writeOnchip .launch (some (s.launch c.launch).ctxid) pa bytes s
          finishCmd n c (if peerAnswers s c.compw then writeWord out c.compw (c.block.extractLsb' 256 64) s
            else launchRecord 0x45 c.launch (peerOf c.compw) c.compw s)
        else s)

/-- The freeze record of a carter (R221). -/
def carterRecord (s : State) (carter : Nat) (c : Cmd) (addr : Nat) : BitVec 512 :=
  BitVec.ofNat 512 ((causeBits Why.poisoned.code 2 false).toNat + 2 ^ 32 + carter * 2 ^ 40 + c.core * 2 ^ 48 + c.ticket.toNat * 2 ^ 64
    + (s.team c.team).teamid * 2 ^ 96 + c.gid * 2 ^ 128 + c.launch % 2 ^ 32 * 2 ^ 160 + addr % 2 ^ 64 * 2 ^ 320 + s.time % 2 ^ 64 * 2 ^ 384)

/-- A carter that reads poison stops with STATE 3 and keeps its ranges (R188). -/
def freezeCarter (n carter : Nat) (c : Cmd) (va : Nat) (s : State) : State :=
  let s1 := (s.modCmd n (fun c => { c with state := 3, poison := true })).setCarter carter { cmd := some n, frozen := true }
  wakeInner (faultRecord (s.launch c.launch).ctx (carterRecord s carter c va) s1)

/-- CARTER_POISON (R188). -/
def execCarterPoison (carter : Nat) (s : State) : Host.Outcome State Fault Refusal :=
  .next (match (s.carter carter).cmd with
    | none => s
    | some n =>
      match Tab.get? s.cmds n with
      | none => s
      | some c =>
        match (if c.state = 1 then cmdPoison s c else none) with
        | none => s
        | some va => freezeCarter n carter c va s)

end Sys2Proof.Machine
end

