-- ==== Sys2Proof/Machine/Loom.lean ====
section
/-! DEFINITION. The Loom's commands as they issue (spec/16 R301 to R317): operands and their order of checks (R305), ranges (R303), tags
and fences (R309, R313), MSTAT (R314). -/

namespace Sys2Proof.Machine

/-! ### Slots and accumulators (R289, R290, R315) -/

/-- Where slot `b` of a core lies: a core and one of its twelve slots; B12 to B23 are the dark partner's (R289). -/
def slotPlace (core b : Nat) : Nat × Nat := if b < 12 then (core, b) else (partnerOf core, b - 12)

/-- A command names the slots (R313). -/
def LoomOp.namesSlots : LoomOp → Bool
  | .loadb _ _ _ _ | .loop _ _ _ _ _ _ _ => true
  | _ => false

/-- The commands of a core that have not retired. -/
def coreLooms (s : State) (core : Nat) : List (Nat × Loom) := s.looms.filter (fun e => e.2.core == core)

/-- Sixteen commands of the core have not retired: a further one waits at issue (R301). DEDUCED, log 47. -/
def loomFull (s : State) (core : Nat) : Bool := decide (16 ≤ (coreLooms s core).length)

/-! ### Operands (R305) -/

/-- The quad that a command names. -/
structure Quad where
  first : Word
  row : Nat
  col : Nat
  last : Word
deriving DecidableEq, Repr

/-- Read G(4q) to G(4q+3). -/
def Ctx.quad (c : Ctx) (q : BitVec 4) : Quad :=
  let at_ := fun (k : Nat) => c.gAt (4 * q.toNat + k)
  { first := at_ 0, row := (at_ 1).toNat, col := (at_ 2).toNat, last := at_ 3 }

/-- An operand that a Loom command accepts as A or B (R294). -/
def loomOperand (t : Tensor) : Bool := decide (tElem t ≤ 7)

/-- Checks 2 to 4 of R305: the quad's bits and alignment, the ladder, the tensor and its format. `ofA` says which tensor of a rung is
meant. -/
def resolveTensor (s : State) (c : Ctx) (q : Quad) (ladder ofA : Bool) (accepts : Tensor → Bool) : Except Fail Tensor :=
  let bad : Fail := ⟨.illegalOp, 10, 0⟩
  let take := fun (n : Nat) => match c.tensor s n with
    | some t => if accepts t then .ok t else .error bad
    | none => .error bad
  if q.first.toNat / 2 ^ (if ladder then 3 else 8) ≠ 0 ∨ q.row % 64 ≠ 0 ∨ q.col % 64 ≠ 0 then .error bad
  else if ladder then
    match c.tx s with
    | none => .error ⟨.txForbidden, 0, 0⟩
    | some x =>
      if x.ladder ≠ q.first.toNat then .error ⟨.txForbidden, 0, 0⟩
      else
        let r := ladderRung ((c.launch s).ladders.getD x.ladder 0) x.rung
        take (if ofA then rungAten r else rungBten r)
  else take q.first.toNat

/-- G(4q+1) and G(4q+2) after the increments of G(4q+3). -/
def quadWrites (q : BitVec 4) (x : Quad) : List RegWrite :=
  [{ lane := none, reg := 4 * q.toNat + 1, val := BitVec.ofNat 32 x.row + (x.last.extractLsb' 0 16).signExtend 32 },
   { lane := none, reg := 4 * q.toNat + 2, val := BitVec.ofNat 32 x.col + (x.last.extractLsb' 16 16).signExtend 32 }]

/-! ### Ranges (R303) -/

/-- The rows and the last column of a panel of 64 rows and `cols` columns that lie inside the extents; no row where none does. -/
def panelRows (t : Tensor) (row col cols : Nat) : List Nat :=
  if tCols t ≤ col ∨ cols = 0 then [] else (List.range 64).map (fun i => row + i) |>.filter (fun r => decide (r < tRows t))
def panelLast (t : Tensor) (col cols : Nat) : Nat := min (tCols t) (col + cols) - 1

/-- The byte ranges of a panel, in three kinds: elements, block scales, band scale. -/
def panelRanges (t : Tensor) (row col cols : Nat) : List (List (Nat × Nat)) :=
  let rows := panelRows t row col cols
  let last := panelLast t col cols
  [rows.map (fun r => rowRange t r col last),
   if tScaling t = 0 then [] else rows.map (fun r => scaleRange t r col last),
   if tScaling t = 2 ∧ !rows.isEmpty then [(bandVa t row, 2)] else []]

/-- Check one range of a command: R243, an ordinary page for a write, and local HBM. DEDUCED, log 110. -/
def checkPanelRange (s : State) (l : Launch) (keyperm : DWord) (a : Acc) (r : Nat × Nat) : Except Fail (List Seg) :=
  match checkRange s l keyperm a r.1 r.2 with
  | .error f => .error f
  | .ok ps =>
    match ps.find? (fun p => aperture p.pa != 0) with
    | some p => .error ⟨.classViolation, 0, BitVec.ofNat 64 p.va⟩
    | none => .ok ps

/-- The cause of a command's ranges, if any (R214). -/
def panelFail (s : State) (c : Ctx) (a : Acc) (rs : List (Nat × Nat)) : Option Fail :=
  firstLeast (fun f => f.why.rank) (rs.filterMap (fun r => failOf (checkPanelRange s (c.launch s) c.g.keyperm a r)))

/-- The data comparators see every range of a command, as the accesses of its issue set (R229). -/
def Ctx.watchRanges (c : Ctx) (s : State) (rs : List (Nat × Nat)) (rd wr : Bool) (r : Res) : Res :=
  c.watched s (rs.flatMap (fun x => c.groupTouch (BitVec.ofNat 64 x.1) x.2 rd wr)) r

/-- The pieces of a launch's extents between two virtual addresses. -/
def piecesBetween (l : Launch) (lo hi : Nat) : List Seg :=
  l.extents.filterMap (fun e =>
    let a := max lo e.va
    let b := min hi (e.va + e.len)
    if a < b then some { va := a, pa := e.pa + (a - e.va), len := b - a } else none)

/-- What a command registers for ranges of one kind: from the first to the last byte touched. -/
def registered (l : Launch) (rs : List (Nat × Nat)) : List Seg :=
  match rs with
  | [] => []
  | r :: _ => piecesBetween l ((rs.map (fun x => x.1)).foldl min r.1) ((rs.map (fun x => x.1 + x.2)).foldl max 0)

/-! ### Posting (R301, R309, R313, R316) -/

/-- A command of the issuing group, with its operation. -/
def Ctx.loom (c : Ctx) (s : State) (op : LoomOp) (src dst : List Seg) : Loom :=
  { launch := c.g.launch, team := c.g.team, group := c.site.gid, lanes := c.mask, core := c.core, prio := (c.launch s).prio, op := op,
    after := [], tag := none, ordered := false, granted := [], nextStep := 0, src := src, dst := dst, tx := (c.tx s).map (fun x => x.id),
    out := none, performed := [], complete := 0 }

/-- Two commands name a resource that a fence masks. -/
def LoomFence.joins (f : LoomFence) (a b : LoomOp) : Bool :=
  (match a.accumulator, b.accumulator with
    | some x, some y => x == y && f.mask.getLsbD x
    | _, _ => false)
  || (f.slots && a.namesSlots && b.namesSlots)

/-- The commands that a new one starts after, by the MFENCEs in force on its core (R313). -/
def fencedBefore (s : State) (core : Nat) (op : LoomOp) : NatSet :=
  (s.core core).fences.foldl (fun m f => f.earlier.foldl (fun m n =>
    match Tab.get? s.looms n with
    | some x => if f.joins op x.op then NatSet.ins m n else m
    | none => m) m) []

/-- Post a command to the reservation table. -/
def postLoom (x : Loom) (s : State) : State :=
  let after := (fencedBefore s x.core x.op).foldl NatSet.ins x.after
  let s := match x.tag with
    | some t => s.modCore x.core (fun k => { k with tags := Tab.put k.tags t s.uid })
    | none => s
  { s with looms := Tab.put s.looms s.uid { x with after := after }, uid := s.uid + 1 }

/-- A Loom instruction: its launch must be a Loom launch (R292), and its core must have room (R301). -/
def loomIssue (i : Instr) (body : Ctx → State → Res) (s : State) : Host.Outcome State Fault Refusal :=
  issue i none (fun c s =>
    if (c.launch s).ttab = 0 then c.illegal 8
    else if loomFull s c.core then .wait
    else body c s) s

/-! ### The commands -/

/-- MLOADB (R306). -/
def execMloadb (st : BitVec 2) (b : BitVec 5) (q : BitVec 4) (l : BitVec 1) (s : State) : Host.Outcome State Fault Refusal :=
  loomIssue (.mloadb st b q l) (fun c s =>
    let x := c.quad q
    match resolveTensor s c x (l == 1#1) false loomOperand with
    | .error f => c.raise f
    | .ok t =>
      let rs := panelRanges t x.row x.col 64
      c.watchRanges s rs.flatten true false
        (match panelFail s c .load rs.flatten with
         | some f => c.raise f
         | none =>
           let src := rs.flatMap (registered (c.launch s))
           .ok (c.write (quadWrites q x) (postLoom (c.loom s (.loadb b.toNat t x.row x.col) src []) s)))) s

/-- An MLOOP or MLOOPG, checked to the ranges (R307), and what is made of its command. -/
def loopCommand (c : Ctx) (s : State) (acc : BitVec 3) (x : Quad) (l : BitVec 1) (b n : BitVec 5) (z : BitVec 1) (post : Loom → Res) : Res :=
  match resolveTensor s c x (l == 1#1) true loomOperand with
  | .error f => c.raise f
  | .ok t =>
    let nk := n.toNat + 1
    let rs := panelRanges t x.row x.col (64 * nk)
    c.watchRanges s rs.flatten true false
      (match panelFail s c .load rs.flatten with
       | some f => c.raise f
       | none => post (c.loom s (.loop acc.toNat b.toNat nk (z == 1#1) t x.row x.col) (rs.flatMap (registered (c.launch s))) []))

/-- An MLOOP or MLOOPG waits at issue while its cluster's guard band is down (R375). DEDUCED, log 49. -/
def railWait (c : Ctx) (s : State) (r : Res) : Res := if (s.cluster (clusterOf c.core)).railup then r else .rail (clusterOf c.core)

/-- MLOOP (R307). -/
def execMloop (st : BitVec 2) (acc : BitVec 3) (q : BitVec 4) (l : BitVec 1) (b n : BitVec 5) (z : BitVec 1) (s : State) :
    Host.Outcome State Fault Refusal :=
  loomIssue (.mloop st acc q l b n z) (fun c s =>
    let x := c.quad q
    railWait c s
      (loopCommand c s acc x l b n z (fun k => .ok (c.write (quadWrites q x) (postLoom { k with ordered := true } s))))) s

/-- The holder of a predecessor tag that is outstanding (R309). -/
def tagHolder (s : State) (core : Nat) (used : Bool) (tag : Nat) : List Nat :=
  if used then (Tab.get? (s.core core).tags tag).toList else []

/-- MLOOPG (R309). -/
def execMloopg (st : BitVec 2) (acc : BitVec 3) (q : BitVec 4) (l : BitVec 1) (b n : BitVec 5) (z : BitVec 1) (s : State) :
    Host.Outcome State Fault Refusal :=
  loomIssue (.mloopg st acc q l b n z) (fun c s =>
    let x := c.quad q
    let tag := bitsAt x.last 0 8
    railWait c s
      (if (Tab.get? (s.core c.core).tags tag).isSome then .wait
       else
         loopCommand c s acc x l b n z (fun k =>
           if bitsAt x.last 26 6 ≠ 0 then c.illegal 10
           else
             let preds := tagHolder s c.core (x.last.getLsbD 24) (bitsAt x.last 8 8) ++ tagHolder s c.core (x.last.getLsbD 25) (bitsAt x.last 16 8)
             .ok (postLoom { k with after := preds.foldl NatSet.ins [], tag := some tag } s)))) s

/-- MZERO (R310). -/
def execMzero (st : BitVec 2) (acc : BitVec 3) (s : State) : Host.Outcome State Fault Refusal :=
  loomIssue (.mzero st acc) (fun c s => .ok (postLoom (c.loom s (.zero acc.toNat) [] []) s)) s

/-- An MSTORE target that matches ITYPE (R294, R312). -/
def mstoreTarget (int : Bool) (t : Tensor) : Bool :=
  if int then tElem t == 14
  else tElem t == 15 || decide (tElem t ≤ 5) || (tElem t == 6 && tScaling t != 2) || (tElem t == 7 && tScaling t == 1)

/-- The aligned 8-byte words that some ranges touch. -/
def wordsOf (rs : List (Nat × Nat)) : NatSet :=
  rs.foldl (fun m r => (List.range ((r.1 + r.2 + 7) / 8 - r.1 / 8)).foldl (fun m k => NatSet.ins m (r.1 / 8 + k)) m) []

/-- Log bytes of an MSTORE inside a transaction: 16 for each 8-byte word of its destination (R322). -/
def mstoreLogBytes (rs : List (Nat × Nat)) : Nat := 16 * (wordsOf rs).length

/-- Reserve log space in the overflow store of the issuing core, and the command's place in the order of the log (R322). DEDUCED, log 28. -/
def reserveLog (c : Ctx) (n : Nat) (s : State) : State :=
  overflowGrow c.core (modTx c.g.team (fun t =>
    { t with log := t.log ++ [c.entry none 0 0#64 (.tile s.uid)], logBytes := Tab.put t.logBytes c.core (Tab.getD t.logBytes c.core 0 + n) }) s)

/-- MSTORE (R312, R322). -/
def execMstore (st : BitVec 2) (acc : BitVec 3) (q : BitVec 4) (r : BitVec 3) (t : BitVec 1) (s : State) :
    Host.Outcome State Fault Refusal :=
  loomIssue (.mstore st acc q r t) (fun c s =>
    let x := c.quad q
    let int := t == 1#1
    match resolveTensor s c x false false (mstoreTarget int) with
    | .error f => c.raise f
    | .ok y =>
      let rs := panelRanges y x.row x.col 64
      c.watchRanges s rs.flatten false true <| match panelFail s c .store rs.flatten with
      | some f => c.raise f
      | none =>
        let n := mstoreLogBytes rs.flatten
        if (c.tx s).isSome && !overflowFits s c.core n then
          c.cause .txCapacity 0 (BitVec.ofNat 64 ((rs.flatten.map (fun r => r.1)).headD 0))
        else
          let s := if (c.tx s).isSome then reserveLog c n s else s
          let k := c.loom s (.store acc.toNat y x.row x.col r.toNat int) [] (rs.flatMap (registered (c.launch s)))
          .ok (c.write (quadWrites q x) (postLoom k s))) s

/-- MREAD (R311): the command holds its destination's pending bit until it retires. -/
def execMread (st : BitVec 2) (d : BitVec 7) (acc : BitVec 3) (a : BitVec 7) (s : State) : Host.Outcome State Fault Refusal :=
  loomIssue (.mread st d acc a) (fun c s =>
    let g := c.gv a
    if bitsAt g 12 20 ≠ 0 then c.illegal 10
    else .ok (postLoom (c.loom s (.read acc.toNat (bitsAt g 0 6) (bitsAt g 6 6) (d.toNat - 64)) [] []) s)) s

/-- The form of a Loom word given by its encoding and operands, of variable latency. -/
def loomForm (word : Word) (ops : List Operand) : Form :=
  { word := word, reads := (ops.filter (·.rd)).flatMap Operand.regs, writes := (ops.filter (·.wr)).flatMap Operand.regs, lat := 0,
    detail := fun sh => if regsOk sh ops then none else some 2 }

/-- The form of MWRITE (R311). -/
def mwriteForm (st : BitVec 2) (d : BitVec 7) (acc : BitVec 3) (a : BitVec 7) : Form :=
  loomForm (mkWord 1#1 st 3#2 0x17#6 (d ++ acc ++ a ++ 0#4)) [yS d, gS a]

/-- MWRITE (R311): the values are read as it issues (R60). -/
def execMwrite (st : BitVec 2) (d : BitVec 7) (acc : BitVec 3) (a : BitVec 7) (s : State) : Host.Outcome State Fault Refusal :=
  issueForm (mwriteForm st d acc a) none (fun c s =>
    if (c.launch s).ttab = 0 then c.illegal 8
    else if loomFull s c.core then .wait
    else
      let g := c.gv a
      if bitsAt g 12 20 ≠ 0 then c.illegal 10
      else
        let col := bitsAt g 6 6
        let vals := (c.lanes.filter (fun l => decide (col + l < 64))).map (fun l => (64 * bitsAt g 0 6 + col + l, c.reg l (.v (d.toNat - 64))))
        .ok (postLoom (c.loom s (.write acc.toNat (bitsAt g 0 6) col vals) [] []) s)) s

/-- MFENCE (R313): it is in force until the commands before it have retired, and with HOLD the group's next instruction waits for them. DESIGN CHOICE, log 139. -/
def execMfence (st : BitVec 2) (m : BitVec 8) (b h : BitVec 1) (s : State) : Host.Outcome State Fault Refusal :=
  loomIssue (.mfence st m b h) (fun c s =>
    let slots := b == 1#1
    let named := (coreLooms s c.core).filter (fun e => (slots && e.2.op.namesSlots) || (match e.2.op.accumulator with
      | some k => m.getLsbD k
      | none => false))
    let earlier := (named.map (fun e => e.1)).foldl NatSet.ins []
    if earlier.isEmpty then .ok s
    else
      .ok (s.modCore c.core (fun k =>
        { k with fences := k.fences ++ [{ mask := m, slots := slots, earlier := earlier }],
                 holds := if h = 1#1 then Tab.put k.holds c.site.gid earlier else k.holds }))) s

/-- The form of MSTAT (R314). -/
def mstatForm (st : BitVec 2) (d : BitVec 7) : Form := loomForm (mkWord 1#1 st 3#2 0x18#6 (d ++ 0#14)) [gD d]

/-- The state word of a core's Loom commands (R314). -/
def loomStatus (s : State) (core : Nat) : Nat :=
  let mine := coreLooms s core
  let busy := fun (k : Nat) => mine.any (fun e => e.2.op.accumulator == some k)
  ((List.range 8).map (fun k => if busy k then 2 ^ k else 0)).sum
    + (if mine.any (fun e => match e.2.op with
        | .loadb _ _ _ _ => true
        | _ => false) then 2 ^ 8 else 0)
    + mine.length * 2 ^ 16

/-- MSTAT (R314). -/
def execMstat (st : BitVec 2) (d : BitVec 7) (s : State) : Host.Outcome State Fault Refusal :=
  issueForm (mstatForm st d) none (fun c s =>
    if (c.launch s).ttab = 0 then c.illegal 8
    else .ok (c.write [wG d (BitVec.ofNat 32 (loomStatus s c.core))] s)) s

end Sys2Proof.Machine
end

