-- ==== Sys2Proof/Machine/LoomSteps.lean ====
section
/-! DEFINITION. The Loom at work (spec/05 R86 to R95, spec/16 R290, R302 to R317, R320, R321): a command starts, its steps are granted and
added, its writes are performed, and it retires; and the monitors of a transaction. -/

namespace Sys2Proof.Machine

/-! ### Starting (R303, R309, R313) -/

/-- A Loom command's recorded predecessors have retired, no range registered before it stands in the way of its memory ranges, and what its team committed
before it has been performed where it reads and writes memory (R281). -/
def loomStarts (s : State) (n : Nat) (x : Loom) : Bool :=
  let ks := s.cmds.filter (fun e => decide (e.1 < n) && (e.2.state == 0 || e.2.state == 1 || e.2.state == 3))
  let ls := s.looms.filter (fun e => decide (e.1 < n) && clusterOf e.2.core == clusterOf x.core)
  let dsts := ks.flatMap (fun e => e.2.dst) ++ ls.flatMap (fun e => e.2.dst)
  let srcs := ks.flatMap (fun e => e.2.src) ++ ls.flatMap (fun e => e.2.src)
  x.after.all (fun m => s.looms.all (fun e => e.1 != m)) && !segsMeet dsts (x.src ++ x.dst) && !segsMeet srcs x.dst
    && s.reqs.all (fun e => decide (n ≤ e.1) || e.2.team != x.team || (match e.2.kind with
      | .commit _ _ _ => !e.2.meets ((x.src ++ x.dst).map (fun y => (y.pa, y.len)))
      | _ => true))

/-! ### Panels (R290, R295, R304, R306) -/

/-- An element as it is read: its code, its block scale code, and whether it was poisoned; none beyond the extents. -/
structure Cell where
  code : Nat
  scale : Nat
  bad : Bool
deriving DecidableEq, Repr

/-- A panel as the Loom reads it: 64 rows, the band scale of its first row, and the addresses of poisoned bytes met. -/
structure Panel where
  rows : List (List (Option Cell))
  band : Nat
  poison : List Nat
deriving DecidableEq, Repr

/-- Bytes at a virtual address of a launch, on the tile path: their value, and the first address that reads as poison. -/
def tileRead (s : State) (l : Launch) (core va n : Nat) : Nat × Option Nat :=
  let pas := (List.range n).map (fun k => l.paOf (va + k))
  (leNat (pas.map (fun pa => loadByte s core .tile pa)),
   pas.find? (fun pa => bytePoison s core .tile pa))

/-- The aligned words of some addresses, each once. -/
def wordsAt (pas : List Nat) : NatSet := (pas.map (fun pa => pa - pa % 8)).foldl NatSet.ins []

/-- Poison that a Loom command meets is recorded against its launch, once for each word (R304). -/
def recordPoison (launch : Nat) (pas : List Nat) (s : State) : State := (wordsAt pas).foldl (fun s pa => poisonRecord launch pa s) s

/-- Read a panel of 64 rows and `cols` columns; one with no element inside the tensor reads nothing (R295). -/
def readPanel (s : State) (l : Launch) (core : Nat) (t : Tensor) (row col cols : Nat) : Panel :=
  let band := if tScaling t = 2 ∧ !(panelRows t row col cols).isEmpty then tileRead s l core (bandVa t row) 2 else (0, none)
  let cell := fun (r c : Nat) =>
    if r < tRows t ∧ c < tCols t then
      let e := tileRead s l core (elemVa t r c) (elemSpan (tElem t))
      let x := if tScaling t = 0 then (0, none) else tileRead s l core (scaleVa t r c) 1
      (some ({ code := elemCode t c e.1, scale := x.1, bad := e.2.isSome || x.2.isSome || band.2.isSome } : Cell),
       (e.2.toList ++ x.2.toList))
    else (none, [])
  let out := (List.range 64).map (fun i => (List.range cols).map (fun x => cell (row + i) (col + x)))
  { rows := out.map (fun r => r.map (fun c => c.1)), band := band.1,
    poison := band.2.toList ++ out.flatMap (fun r => r.flatMap (fun c => c.2)) }

/-- The value of an element (R86, R90, R91, R92): of plain INT8 its integer, under MX times its block scale, under BSF4 times its block
and band scales, where a zero factor makes it zero. -/
def elementValue (elem scaling band : Nat) (c : Cell) : Val :=
  let v := (NarrowFmt.ofCode elem).value c.code
  match scaling with
  | 0 => if elem = 7 then Val.ofInt (BitVec.ofNat 8 c.code).toInt else v
  | 1 => if c.scale % 256 = 0xFF then .nan else v.scale ((c.scale % 256 : Nat) - 127 : Int)
  | _ =>
    let b := NarrowFmt.value .bf16 band
    if b.isNan then .nan
    else if v.isZero || c.scale % 256 == 0 then .fin false 0 1 0
    else (v.mul (NarrowFmt.value .e3m5 c.scale)).mul b

/-- The word of a slot for an element (R290). -/
def slotWord (elem : Nat) (c : Option Cell) : Half :=
  match c with
  | none => 0#16
  | some x => if elem ≤ 1 then BitVec.ofNat 16 x.code else BitVec.ofNat 16 (x.code % 256 + x.scale % 256 * 256)

/-- The element of a slot at (j, n) of a slot; none beyond the extents. -/
def slotCell (b : Slot) (j n : Nat) (w : Half) : Option Cell :=
  let bad := NatSet.mem b.bad (64 * n + j)
  if (b.inK ≤ j ∨ b.inN ≤ n) ∧ w = 0#16 ∧ !bad then none
  else some { code := w.toNat % (if b.elem ≤ 1 then 65536 else 256), scale := w.toNat / 256, bad := bad }

/-- The slot that an MLOADB of a panel leaves (R304, R306). A poisoned element is written as a code that the model leaves open. DESIGN CHOICE, log 6. DEDUCED, log 53. -/
def loadSlot (t : Tensor) (row col : Nat) (p : Panel) (free : Nat) : Slot :=
  let cells := p.rows.zipIdx.flatMap (fun r => r.1.zipIdx.map (fun c => (64 * r.2 + c.2, c.1)))
  let bad := cells.filterMap (fun e => match e.2 with
    | some x => if x.bad then some e.1 else none
    | none => none)
  { words := (cells.map (fun e => (e.1, match e.2 with
      | some x => if x.bad then Config.poisonedCode (free + e.1) else slotWord (tElem t) e.2
      | none => 0#16))).filter (fun e => e.2 != 0#16),
    inK := tCols t - col, inN := tRows t - row, elem := tElem t, scaling := tScaling t, band := BitVec.ofNat 16 p.band, bad := bad }

/-- Address of slot b in its core's window (R248), and the words of the slot that an error has poisoned (R389), by their addresses. -/
def slotPa (core b : Nat) : Nat := 2 ^ 47 + core * 0x100000 + 0xD0000 + 0x2000 * b
def slotPoison (s : State) (core b : Nat) : List Nat :=
  (s.poison.filter (fun w => decide (slotPa core b ≤ 8 * w) && decide (8 * w < slotPa core b + 0x2000))).map (fun w => 8 * w)

/-- A command's reads of a panel count as reads of its threads (R272), made on the tile path. -/
def notePanel (x : Loom) (t : Tensor) (row col cols : Nat) (s : State) : State :=
  let l := s.launch x.launch
  let pas := (panelRanges t row col cols).flatten.flatMap (fun r => (List.range r.2).map (fun k => l.paOf (r.1 + k)))
  if s.copies.isEmpty then s else noteRead x.group x.lanes [] (readUntil s x.core .tile pas) s

/-- The values of a slot, by column n and then j, with what is poisoned. -/
def slotColumns (b : Slot) : List (List (Val × Bool)) :=
  let ws := Sparse.segment 0#16 b.words 0 4096
  let cols := (chunks 64 64 ws).zipIdx
  cols.map (fun c => c.1.zipIdx.map (fun w => match slotCell b w.2 c.2 w.1 with
    | some x => (elementValue b.elem b.scaling b.band.toNat x, x.bad)
    | none => (.fin false 0 1 0, false)))

/-- The slot is plain INT8. -/
def Slot.plainInt (b : Slot) : Bool := b.elem == 7 && b.scaling == 0

/-! ### Granting a step (R302, R307, R308, R316) -/

/-- The MLOADBs of a core that may be writing a slot now. -/
def slotWriters (s : State) (core b : Nat) : List (Nat × Loom) :=
  (coreLooms s core).filter (fun e => match e.2.op with
    | .loadb k _ _ _ => k == b && loomStarts s e.1 e.2
    | _ => false)

/-- The slot of a step as it reads it: where an unordered MLOADB is writing it, each element as old or new (R316). Where only one of the
two is plain INT8, the panel is read as a whole, so that the step has one kind. -/
def readSlot64 (s : State) (core b : Nat) : List (List (Val × Bool)) × Bool × State :=
  let at_ := slotPlace core b
  let old := Tab.getD (s.core at_.1).slots at_.2 Slot.zero
  match slotWriters s core b with
  | (_, x) :: _ =>
    (match x.op with
     | .loadb _ t row col =>
       let new := loadSlot t row col (readPanel s (s.launch x.launch) core t row col 64) s.free
       if old.plainInt != new.plainInt then
         let pick := if Config.racingRead s.free then new else old
         (slotColumns pick, pick.plainInt, { s with free := s.free + 4097 })
       else
         ((slotColumns old).zip (slotColumns new) |>.zipIdx |>.map (fun c =>
            c.1.1.zip c.1.2 |>.zipIdx |>.map (fun e => if Config.racingRead (s.free + 64 * c.2 + e.2) then e.1.2 else e.1.1)),
          old.plainInt, { s with free := s.free + 4097 })
     | _ => (slotColumns old, old.plainInt, s))
  | [] => (slotColumns old, old.plainInt, s)

/-- A code that the range monitor counts (R320). -/
def extremeCode (elem code : Nat) : Bool :=
  if elem = 7 then decide (127 ≤ (BitVec.ofNat 8 code).toInt.natAbs)
  else
    let f := (NarrowFmt.ofCode elem).float
    decide (f.maxCode ≤ code % 2 ^ f.width)

/-- The sum of products of a row and a column (R92, R93). -/
def dotSum (a : List Val) (b : List (Val × Bool)) : Val :=
  (a.zip b).foldl (fun (acc : Val) (e : Val × (Val × Bool)) => acc.add (e.1.mul e.2.1)) (.fin false 0 1 0)

/-- The magnitude of a value. -/
def Val.magnitude : Val → Val
  | .fin _ n d e => .fin false n d e
  | .inf _ => .inf false
  | .nan => .nan

/-- An output element counts for the cancellation monitor (R321). -/
def cancels (cbits : Nat) (a : List Val) (b : List (Val × Bool)) : Bool :=
  let p := (a.zip b).foldl (fun (acc : Val) (e : Val × (Val × Bool)) => acc.add (e.1.mul e.2.1).magnitude) (.fin false 0 1 0)
  match p, dotSum a b with
  | .fin _ n d e, .fin _ n' d' e' =>
    if n = 0 then false
    else if n' = 0 then true
    else decide (floorLog2 n d e - floorLog2 n' d' e' ≥ cbits)
  | _, _ => false

/-- The rung of the transaction in which a command was issued, if it is open (R320). -/
def openRung (s : State) (x : Loom) : Option Rung :=
  match (s.team x.team).tx with
  | some t => if x.tx = some t.id then some (ladderRung ((s.launch x.launch).ladders.getD t.ladder 0) t.rung) else none
  | none => none

/-- What step k of a command reads, and its exact sums; poison in its panel or in the words of its slot poisons it (R304, R389). -/
def formStep (s : State) (x : Loom) (slot : Nat) (t : Tensor) (row col k : Nat) : LoomStep × List Nat × State :=
  let a := readPanel s (s.launch x.launch) x.core t row (col + 64 * k) 64
  let b := readSlot64 s x.core (slot + k)
  let place := slotPlace x.core (slot + k)
  let broken := slotPoison s place.1 place.2
  let rows := a.rows.map (fun r => r.map (fun c => match c with
    | some c => elementValue (tElem t) (tScaling t) a.band c
    | none => .fin false 0 1 0))
  let int := tElem t == 7 && tScaling t == 0 && b.2.1
  let bad := !a.poison.isEmpty || !broken.isEmpty || b.1.any (fun c => c.any (fun e => e.2))
  let extreme := (a.rows.map (fun r => r.countP (fun c => match c with
    | some c => extremeCode (tElem t) c.code
    | none => false))).sum
  let cancel := match openRung s x with
    | some r => if rungCmon r then (rows.map (fun r' => b.1.countP (fun c => cancels (rungCbits r) r' c))).sum else 0
    | none => 0
  ({ int := int, poison := bad, sums := rows.flatMap (fun r => b.1.map (fun c => dotSum r c)), extreme := extreme, cancel := cancel },
   a.poison ++ broken, b.2.2)

/-- A granted step occupies its slot until it is added. -/
def slotTaken (s : State) (core b : Nat) : Bool :=
  s.looms.any (fun e => match e.2.op with
    | .loop _ s0 _ _ _ _ _ => e.2.granted.any (fun g => slotPlace e.2.core (s0 + g.1) == slotPlace core b)
    | _ => false)

/-- A cluster grants steps: no droop floor is in force and its lanes and Loom run (R371, R373). -/
def loomRuns (s : State) (core : Nat) : Bool :=
  let c := s.cluster (clusterOf core)
  c.droop.isNone && decide (c.thermal < 2)

/-- A step of an MLOOP that waits for its slot: the command's number, the step, how many grants have passed it over, and its command. -/
structure ReadyStep where
  cmd : Nat
  k : Nat
  passed : Nat
  of : Loom
deriving DecidableEq, Repr

/-- The slot place that step k of a command reads. -/
def Loom.placeOf (x : Loom) (k : Nat) : Option (Nat × Nat) :=
  match x.op with
  | .loop _ slot _ _ _ _ _ => some (slotPlace x.core (slot + k))
  | _ => none

/-- The shape of an MLOOP (R316). -/
def LoomOp.shape : LoomOp → Option (Nat × Nat × Nat × Nat)
  | .loop a _ nk _ t _ _ => some (a, nk, tElem t, tScaling t)
  | _ => none

/-- All steps of a command have been added. -/
def Loom.added (x : Loom) : Bool :=
  match x.op with
  | .loop _ _ nk _ _ _ _ => decide (nk ≤ x.nextStep)
  | _ => false

/-- Earlier MLOOPs of equal shape on the same accumulator have added their steps (R316). -/
def shapeTurn (s : State) (n : Nat) (x : Loom) : Bool :=
  !x.ordered || (coreLooms s x.core).all (fun e => decide (n ≤ e.1) || !e.2.ordered || e.2.op.shape != x.op.shape || e.2.added)

/-- The ready steps that name a slot (R302): their commands may start, those of equal shape in their order (R316), and their panels have been
fetched. -/
def readySteps (s : State) (place : Nat × Nat) : List ReadyStep :=
  s.looms.flatMap (fun e =>
    if loomStarts s e.1 e.2 && shapeTurn s e.1 e.2 then
      e.2.fetched.filterMap (fun f => if e.2.placeOf f.1 = some place then some { cmd := e.1, k := f.1, passed := f.2, of := e.2 } else none)
    else [])

/-- A ready step is granted before another (R302): one that 16 grants have passed over; then the highest PRIO, the oldest command, the lowest k. -/
def ReadyStep.before (a b : ReadyStep) : Bool :=
  if decide (16 ≤ a.passed) != decide (16 ≤ b.passed) then decide (16 ≤ a.passed)
  else if a.of.prio ≠ b.of.prio then decide (b.of.prio < a.of.prio)
  else if a.cmd ≠ b.cmd then decide (a.cmd < b.cmd)
  else decide (a.k < b.k)

/-- The ready step that the arbiter grants next. -/
def nextStepOf : List ReadyStep → Option ReadyStep
  | [] => none
  | a :: t =>
    match nextStepOf t with
    | some b => if b.before a then some b else some a
    | none => some a

/-- Grant a step: it takes its slot and reads its A panel and the slot, and every other ready step on the slot is passed over (R302, R307). -/
def grantStep (x : ReadyStep) (others : List ReadyStep) (s : State) : State :=
  match x.of.op with
  | .loop _ slot _ _ t row col =>
    let st := formStep s x.of slot t row col x.k
    let s1 := (recordPoison x.of.launch st.2.1 (notePanel x.of t row (col + 64 * x.k) 64 st.2.2)).modLoom x.cmd (fun l =>
      { l with granted := Tab.put l.granted x.k st.1, fetched := Tab.del l.fetched x.k })
    others.foldl (fun s o => if o.cmd = x.cmd ∧ o.k = x.k then s
      else s.modLoom o.cmd (fun l => { l with fetched := Tab.modify l.fetched o.k (fun p => p + 1) })) s1
  | _ => s

/-- LOOM_STEP_GRANT (R302, R307): the panel of a step has been fetched, and if its slot is free the arbiter grants the slot. When a panel has been
fetched is left to the agenda. DESIGN CHOICE, log 48. DESIGN CHOICE, log 50. -/
def execLoomStepGrant (cmd k : Nat) (s : State) : Host.Outcome State Fault Refusal :=
  .next (match Tab.get? s.looms cmd with
    | none => s
    | some x =>
      match x.op with
      | .loop _ slot nk _ _ _ _ =>
        let granted := decide (k < x.nextStep) || x.granted.any (fun g => g.1 == k)
        if nk ≤ k ∨ granted || !loomStarts s cmd x || !loomRuns s x.core then s
        else
          let s1 := if (Tab.get? x.fetched k).isSome then s else s.modLoom cmd (fun l => { l with fetched := Tab.put l.fetched k 0 })
          if slotTaken s1 x.core (slot + k) then s1
          else
            let ready := readySteps s1 (slotPlace x.core (slot + k))
            match nextStepOf ready with
            | some y => grantStep y ready s1
            | none => s1
      | _ => s)

/-! ### Adding a step (R93, R94, R95, R316) -/

/-- The integer of an exact sum of integers. -/
def Val.toInt : Val → Int
  | .fin s n _ _ => if s then -(n : Int) else n
  | _ => 0

/-- One accumulator word after a step (R93, R94, R304): saturating in i32, or rounded once to binary32 with an exact zero as +0. -/
def addStep (st : LoomStep) (sum : Val) (base : Word) : Word :=
  if st.poison then (if st.int then 0x80000000#32 else 0x7FC00000#32)
  else if st.int then BitVec.ofInt 32 (max (-(2 ^ 31)) (min (2 ^ 31 - 1) (base.toInt + sum.toInt)))
  else
    let v := (valF32 base).add sum
    if v.isZero then 0#32 else rne32 v

/-- The words of an accumulator after a step. -/
def addSteps (st : LoomStep) (zero : Bool) (acc : List Word) : List Word :=
  (acc.zip st.sums).map (fun e => addStep st e.2 (if zero then 0#32 else e.1))

/-- Address of accumulator k in its core's window (R248). -/
def accPa (core k : Nat) : Nat := 2 ^ 47 + core * 0x100000 + 0xB0000 + 0x4000 * k

/-- The words of accumulator k of a core, and their replacement. -/
def accWords (s : State) (core k : Nat) : List Word := Sparse.segment 0#32 (s.core core).acc (4096 * k) 4096
def setAcc (core k : Nat) (ws : List Word) (s : State) : State :=
  clearPoison (accPa core k) 0x4000 (s.modCore core (fun c => { c with acc := Sparse.fill 0#32 c.acc (4096 * k) ws }))

/-- The words of an accumulator that an error has poisoned (R389), by their addresses in the window. -/
def accPoison (s : State) (core k : Nat) : List Nat :=
  (s.poison.filter (fun w => decide (accPa core k ≤ 8 * w) && decide (8 * w < accPa core k + 0x4000))).map (fun w => 8 * w)

/-- An accumulator word counts for the range monitor (R320). -/
def reaches (int : Bool) (ehi : Int) (w : Word) : Bool :=
  let v := if int then Val.ofInt w.toInt else valF32 w
  match v with
  | .nan | .inf _ => true
  | .fin _ n d e => n != 0 && decide (ehi ≤ floorLog2 n d e)

/-- The monitors of an open transaction count a step that retires (R320, R321). -/
def countStep (x : Loom) (st : LoomStep) (acc : List Word) (s : State) : State :=
  match openRung s x with
  | none => s
  | some r =>
    modTx x.team (fun t =>
      let range := if rungRmon r then min (2 ^ 32 - 1) (t.range + st.extreme + acc.countP (reaches st.int (rungEhi r))) else t.range
      let cancel := if rungCmon r then min (2 ^ 32 - 1) (t.cancel + st.cancel) else t.cancel
      { t with range := range, cancel := cancel, rtrip := t.rtrip || (rungRmon r && decide (rungRcount r < range)),
               ctrip := t.ctrip || (rungCmon r && decide (rungCcount r < cancel)) }) s

/-- LOOM_STEP_RETIRE (R307, R315): the next step of a command is added, and the slot is free. -/
def execLoomStepRetire (cmd k : Nat) (s : State) : Host.Outcome State Fault Refusal :=
  .next (match Tab.get? s.looms cmd with
    | none => s
    | some x =>
      match x.op, Tab.get? x.granted k with
      | .loop acc _ _ zero _ _ _, some st =>
        if k ≠ x.nextStep ∨ !shapeTurn s cmd x ∨ 2 ≤ (s.cluster (clusterOf x.core)).thermal then s
        else
          let bad := if zero && k == 0 then [] else accPoison s x.core acc
          let ws := addSteps { st with poison := st.poison || !bad.isEmpty } (zero && k == 0) (accWords s x.core acc)
          let s1 := countStep x st ws (setAcc x.core acc ws (recordPoison x.launch bad s))
          (s1.modCluster (clusterOf x.core) (fun c => { c with lastStep := s.time })).modLoom cmd (fun x =>
            { x with granted := Tab.del x.granted k, nextStep := k + 1 })
      | _, _ => s)

/-! ### Reading an accumulator (R311, R312, R316) -/

/-- Steps that may be added next to an accumulator, in their turn, by commands not ordered with command n. -/
def pendingAdds (s : State) (n core acc : Nat) : List (LoomStep × Bool) :=
  (coreLooms s core).filterMap (fun e => match e.2.op with
    | .loop a _ _ zero _ _ _ =>
      if a = acc ∧ shapeTurn s e.1 e.2 ∧ !e.2.after.any (fun m => m == n) then
        (Tab.get? e.2.granted e.2.nextStep).map (fun st => (st, zero && e.2.nextStep == 0))
      else none
    | _ => none)

/-- The words of an accumulator as MREAD and MSTORE read them: a poisoned word reads as a value that the spec leaves open, and is recorded against the
launch (R304, R389). DESIGN CHOICE, log 66. -/
def readAcc (s : State) (launch core acc : Nat) : List Word × State :=
  let ws := accWords s core acc
  match accPoison s core acc with
  | [] => (ws, s)
  | bad =>
    (ws.zipIdx.map (fun e => if bad.contains (accPa core acc + 8 * (e.2 / 2)) then
        Config.poisonedCode (s.free + 2 * e.2 + 1) ++ Config.poisonedCode (s.free + 2 * e.2) else e.1),
     recordPoison launch bad { s with free := s.free + 8192 })

/-- The words of an accumulator as an unordered reader finds them: each as it stands before or after each step being added (R316). DESIGN CHOICE,
log 5. -/
def racedAcc (s : State) (n launch core acc : Nat) : List Word × State :=
  (pendingAdds s n core acc).foldl (fun (out : List Word × State) p =>
    let after := addSteps p.1 p.2 out.1
    ((out.1.zip after).zipIdx.map (fun e => if Config.racingRead (out.2.free + e.2) then e.1.2 else e.1.1),
     { out.2 with free := out.2.free + 4096 })) (readAcc s launch core acc)

/-- The words that an MSTORE writes, and its clamps (R312). -/
def mstoreWords (y : Tensor) (row col round : Nat) (dst : List Seg) (acc : List Word) : List WordPut × Nat :=
  let rows := (panelRows y row col 64).map (fun r =>
    (r, col, (acc.drop (64 * (r - row))).take (panelLast y col 64 + 1 - col)))
  let q := quantRows y (Rnd.ofCode round) rows
  (wordPuts (patchBytes dst q.patches), q.clamps)

/-- An MSTORE reads its accumulator and converts it, once (R312, R89). DESIGN CHOICE, log 27. -/
def convertStore (n : Nat) (x : Loom) (s : State) : State :=
  match x.op, x.out with
  | .store acc y row col round _, none =>
    let r := racedAcc s n x.launch x.core acc
    let out := mstoreWords y row col round x.dst r.1
    (addClamps x.core out.2 r.2).modLoom n (fun x => { x with out := some out.1 })
  | _, _ => s

/-- One word of an MSTORE is performed at its home (R312, R315). -/
def performTile (n i : Nat) (x : Loom) (s : State) : State :=
  if x.tx.isSome || !loomStarts s n x || decide (2 ≤ (s.cluster (clusterOf x.core)).thermal) then s
  else
    let s1 := convertStore n x s
    match Tab.get? s1.looms n with
    | none => s
    | some x =>
      match (x.out.getD [])[i]? with
      | none => s1
      | some w =>
        if NatSet.mem x.performed i || !peerAnswers s1 w.pa then s1
        else
          let done := writeCompletion s1 w.pa
          let s2 := dropFar x.core w.pa (dropCopies (fun k => k.path == .tile && k.line == lineOf w.pa && k.holder.below x.core 3 false)
            (writeMasked x.team x.launch w.va w.pa w.bytes s1))
          s2.modLoom n (fun x => { x with performed := NatSet.ins x.performed i, complete := max x.complete done })

/-- SLICE_STORE_PERFORM (R126, R183, R269, R312, R324): one part of a store, the next entry of a committed log, one payload word of a
carter command or one word of an MSTORE is performed at its home slice. -/
def execSliceStorePerform (req part : Nat) (s : State) : Host.Outcome State Fault Refusal :=
  .next (match Tab.get? s.reqs req with
    | some r =>
      match r.kind with
      | .store ps => performPart req r ps part s
      | .commit es reg result => if part = 0 then performLog req r es reg result s else s
      | _ => s
    | none =>
      match Tab.get? s.cmds req with
      | some c => performWord req c part s
      | none =>
        match Tab.get? s.looms req with
        | some x => performTile req part x s
        | none => s)

/-! ### Retirement (R309, R313, R315) -/

/-- A command leaves the reservation table: its tag, the fences and holds that named it. -/
def retireLoom (n core : Nat) (s : State) : State :=
  let s1 : State := { s with looms := Tab.del s.looms n }
  wakeInner (s1.modCore core (fun k =>
    { k with
      tags := k.tags.filter (fun t => t.2 != n)
      fences := (k.fences.map (fun (f : LoomFence) => { f with earlier := NatSet.del f.earlier n })).filter (fun f => !f.earlier.isEmpty)
      holds := (k.holds.map (fun h => (h.1, NatSet.del h.2 n))).filter (fun h => !h.2.isEmpty) }))

/-- The logged words of MSTORE number `n` inside its transaction, in the place that the log has kept for it since it issued (R322). -/
def logTile (n : Nat) (x : Loom) (s : State) : State :=
  match (s.team x.team).tx with
  | some t =>
    if x.tx = some t.id then
      modTx x.team (fun t => { t with log := t.log.flatMap (fun e =>
        if e.op = .tile n then (x.out.getD []).map (fun w =>
          { core := x.core, group := x.group, lane := none, pa := w.pa, va := w.va, op := .masked w.bytes })
        else [e]) }) s
    else s
  | none => s

/-- LOOM_COMMAND_RETIRE (R306, R310 to R312, R315): the last effect of a command is performed, unless its cluster's clock stands (R373). -/
def execLoomCommandRetire (cmd : Nat) (s : State) : Host.Outcome State Fault Refusal :=
  .next (match Tab.get? s.looms cmd with
    | none => s
    | some x =>
      let ready := loomStarts s cmd x && decide ((s.cluster (clusterOf x.core)).thermal < 2)
      match x.op with
      | .loop _ _ _ _ _ _ _ => if x.added && ready then retireLoom cmd x.core s else s
      | .loadb b t row col =>
        if ready then
          let p := readPanel s (s.launch x.launch) x.core t row col 64
          let at_ := slotPlace x.core b
          let s1 := clearPoison (slotPa at_.1 at_.2) 0x2000 ((notePanel x t row col 64 s).modCore at_.1 (fun k =>
            { k with slots := Tab.put k.slots at_.2 (loadSlot t row col p s.free) }))
          let s2 := recordPoison x.launch p.poison { s1 with free := s1.free + (if p.poison.isEmpty then 0 else 4096) }
          retireLoom cmd x.core s2
        else s
      | .zero acc => if ready then retireLoom cmd x.core (setAcc x.core acc (List.replicate 4096 0#32) s) else s
      | .write acc _ _ vals =>
        if ready then
          retireLoom cmd x.core (vals.foldl (fun s v =>
              if v.1 % 2 = 0 ∧ vals.any (fun o => o.1 == v.1 + 1) then clearPoison (accPa x.core acc + 4 * v.1) 8 s else s)
            (s.modCore x.core (fun k => { k with acc := vals.foldl (fun m v => Sparse.set 0#32 m (4096 * acc + v.1) v.2) k.acc })))
        else s
      | .read acc row col reg =>
        if ready then
          let r := racedAcc s cmd x.launch x.core acc
          let ws := (LaneSet.toList x.lanes).map (fun l =>
            ({ lane := some l, reg := reg, val := if col + l < 64 then r.1.getD (64 * row + col + l) 0#32 else 0#32 } : RegWrite))
          retireLoom cmd x.core (r.2.modGroup x.group (fun g => (g.land ws).rechoose))
        else s
      | .store _ _ _ _ _ _ =>
        if !ready then s
        else
          let s1 := convertStore cmd x s
          match Tab.get? s1.looms cmd with
          | none => s
          | some y =>
            if y.tx.isSome then retireLoom cmd y.core (logTile cmd y s1)
            else if y.performed.length = (y.out.getD []).length ∧ y.complete ≤ s.time then retireLoom cmd y.core s1
            else s1)

end Sys2Proof.Machine
end

