-- ==== Sys2Proof/Machine/Dispatcher.lean ====
section
/-! DEFINITION. The dispatcher's and the cores' own steps (spec/01 R20, R24 to R30, spec/10 R223 to R226, spec/12 R245, R252, R253, R262,
spec/16 R325, R328, spec/18 R335 to R362): cards taken, teams placed, groups evicted and restored, starvation, a launch's end, the overflow
store, and prefetches of the hardware's own. A step whose conditions do not hold leaves the state as it is. -/

namespace Sys2Proof.Machine

/-! ### Fetch (R244) -/

/-- What a fetch of one instruction word finds. -/
inductive Fetched where
  | word (w : Word)
  | outOfLease (addr : DWord)
  | poisoned (addr : DWord)
deriving DecidableEq, Repr

/-- Fetch the word at an address for a group, on the con path; keys are not checked. R33 fetches at 4-byte-aligned addresses; at a PC that a rewritten
spill slot has left misaligned the four bytes there are read. DESIGN CHOICE, log 100. -/
def fetchAt (s : State) (g : Group) (va : DWord) : Fetched :=
  if !canonical va.toNat then .outOfLease va
  else
    match (s.launch g.launch).translate va.toNat with
    | none => .outOfLease va
    | some (e, pa) =>
      if !e.fetch || decide (e.va + e.len < va.toNat + 4) then .outOfLease va
      else if (List.range 4).any (fun k => bytePoison s g.core .con (pa + k)) then .poisoned va
      else .word (BitVec.ofNat 32 (leNat ((List.range 4).map (fun k => loadByte s g.core .con (pa + k)))))

/-! ### Readiness (R29) -/

/-- The pipe that a word issues on: true for the G-set pipe. -/
def pipeOf (w : Word) : Bool := w.getLsbD 31

/-- The next instruction of a group belongs to a pipe: a pair belongs to its follower's (R58). One that cannot be fetched is found on either. -/
def onPipe (s : State) (g : Group) (pipe : Bool) : Bool :=
  match fetchAt s g g.nextPc with
  | .word w =>
    if isExtWord w then
      match fetchAt s g (g.nextPc + 4#64) with
      | .word f => pipeOf f == pipe
      | _ => true
    else pipeOf w == pipe
  | _ => true

/-- A group may issue on a pipe, pending bits and the cluster's clock apart: it is resident and runs, it has an issue set, and its next instruction
belongs to the pipe. -/
def couldIssue (s : State) (gid : Nat) (g : Group) (pipe : Bool) : Bool :=
  g.resident && !g.frozen && !g.halted && g.cur != 0#64 && !suspended s gid g && onPipe s g pipe

/-- The cluster's lanes run (R373). -/
def clockRuns (s : State) (core : Nat) : Bool := decide ((s.cluster (clusterOf core)).thermal < 2)

/-- A group may issue on a pipe, pending bits apart. -/
def issuable (s : State) (gid : Nat) (g : Group) (pipe : Bool) : Bool := couldIssue s gid g pipe && clockRuns s g.core

/-- Registers that the instruction at a word reads or writes. -/
def wordRegs (w follower : Word) : List Reg :=
  let of := fun (x : Word) => match decodeDefined x with
    | some i => i.reads ++ i.writes
    | none => if isMwriteWord x then [.v (fD x).toNat] else if isMstatWord x then [.g (fD x).toNat] else []
  if isExtWord w then of follower else of w

/-- A group's next instruction waits on no pending bit and no Loom command held before it. -/
def unhindered (s : State) (gid : Nat) (g : Group) : Bool :=
  !loomHeld s gid g.core
    && (match fetchAt s g g.nextPc, fetchAt s g (g.nextPc + 4#64) with
      | .word w, .word f => (wordRegs w f).all (fun r => !(pendingRegs s gid g).contains r)
      | .word w, _ => (wordRegs w 0).all (fun r => !(pendingRegs s gid g).contains r)
      | _, _ => true)

/-- A group is ready for a pipe (R29), the cluster's clock apart, which only stops the count of its 512 clocks. -/
def couldBeReady (s : State) (gid : Nat) (g : Group) : Bool := (couldIssue s gid g true || couldIssue s gid g false) && unhindered s gid g

/-- A group is ready for a pipe (R29). -/
def ready (s : State) (gid : Nat) (g : Group) (pipe : Bool) : Bool := issuable s gid g pipe && unhindered s gid g

/-- A group has been ready for 512 front-end clocks of 1,000 / (50 · FE) ns, with FE as it was in force. -/
def waitedLong (s : State) (g : Group) : Bool :=
  decide (512 * 20 ≤ g.readyClocks + (s.time - g.readySince) * (s.cluster (clusterOf g.core)).feeff)

/-- GROUP_STARVED (R29): 512 front-end clocks ready without a grant. -/
def execGroupStarved (group : Nat) (s : State) : Host.Outcome State Fault Refusal :=
  .next (match Tab.get? s.groups group with
    | none => s
    | some g =>
      if (ready s group g true || ready s group g false) && waitedLong s g then
        s.setGroup group { g with starved := true }
      else s)

/-! ### Taking cards (R335 to R342) -/

/-- Cards accepted whose gates have not all resolved (R342). -/
def gatedCards (s : State) : Nat :=
  s.launches.countP (fun e => e.2.phase == .gated
    || (e.2.phase == .residency && (bitsAt e.2.card 640 64 != 0 || bitsAt e.2.card 704 64 != 0)))

/-- The card that an entry leads to, if it can be read (R338, R352). -/
def peekCard (s : State) (ctx va : Nat) (bucket posted : Bool) : Option (BitVec 1024) :=
  let read := fun (va : Nat) => if va % 8 = 0 then (ctxRead s ctx va 16).map (fun c => BitVec.ofNat 1024 c) else none
  let tagged := match ctxRead8 s ctx va with
    | some x => x == bucketTag
    | none => false
  if bucket || (posted && tagged) then
    match resolveBucket s ctx va with
    | .ok (v, _) => read v
    | .error _ => none
  else read va

/-- A card may be taken: it is not gated, or fewer than 4,096 gated cards are held (R342). -/
def gateRoom (s : State) (card : Option (BitVec 1024)) : Bool :=
  match card with
  | some c => (bitsAt c 640 64 == 0 && bitsAt c 704 64 == 0) || decide (gatedCards s < 4096)
  | none => true

/-- PA of the ring entry that a device queue gives next. -/
def Queue.entry (q : Queue) : Nat := q.base.toNat + 32 * (q.head.toNat % 2 ^ q.log2n)

/-- The card at the head of a device queue. -/
def queueCard (s : State) (q : Queue) : Option (BitVec 1024) :=
  peekCard s q.ctx.toNat (s.read q.entry 8) (s.byte (q.entry + 8) &&& 1#8 == 1#8) q.devpost

/-- A device queue whose next entry may be taken. -/
def queueReady (s : State) (q : Queue) : Bool := q.en && q.head != q.tail && gateRoom s (queueCard s q)

/-- The entry of a cluster queue that was posted first. -/
def clusterFirst (s : State) (cluster : Nat) : Option (Nat × ClusterEntry) :=
  firstLeast (fun e => e.2.order) (((s.cluster cluster).queue.zipIdx.filter (fun e => e.1.valid)).map (fun e => (e.2, e.1)))

/-- The card of a cluster-queue entry, and the PRIO it is served at (R336). -/
def clusterCard (s : State) (e : ClusterEntry) : Option (BitVec 1024) := peekCard s e.ctx e.card.toNat false true
def clusterPrio (s : State) (e : ClusterEntry) : Nat :=
  match clusterCard s e with
  | some c => bitsAt c 86 2
  | none => 0

/-- The priorities of the device queues and of the cluster queues whose next card may be taken. -/
def devicePrios (s : State) : List Nat := (s.queues.filter (fun e => queueReady s e.2)).map (fun e => e.2.prio)
def clusterPrios (s : State) : List Nat :=
  (s.clusters.map (fun c => c.1)).filterMap (fun c => match clusterFirst s c with
    | some (_, e) => if gateRoom s (clusterCard s e) then some (clusterPrio s e) else none
    | none => none)

/-- The priority at which a queue's next card may be taken: device queue 0 to 63, or 64 plus a cluster (R335, R336). -/
def queuePrio (s : State) (q : Nat) : Option Nat :=
  if q < 64 then (if queueReady s (s.queue q) then some (s.queue q).prio else none)
  else
    match clusterFirst s (q - 64) with
    | some (_, e) => if gateRoom s (clusterCard s e) then some (clusterPrio s e) else none
    | none => none

/-- The queue served next (R335, R336): the highest QPRIO, and round robin from the queue after the last one served at that QPRIO, the device queues
in their order and then the cluster queues. DESIGN CHOICE, log 114. -/
def nextQueue (s : State) : Option Nat :=
  let best := (devicePrios s ++ clusterPrios s).foldl max 0
  ((List.range 256).map (fun k => (Tab.getD s.lastQueue best 255 + 1 + k) % 256)).find? (fun q => queuePrio s q == some best)

/-- DEVICE_QUEUE_TAKE (R335, R338 to R342). -/
def execDeviceQueueTake (s : State) : Host.Outcome State Fault Refusal :=
  .next (match nextQueue s with
    | none => s
    | some n =>
      let q := s.queue n
      if s.boot.stage ≠ 3 ∨ 64 ≤ n then s
      else
        let t : Take :=
          { ctx := q.ctx.toNat, ring := some q.entry, hflush := q.hflush, qprio := q.prio, parent := Tab.get? q.parents q.head.toNat,
            cluster := none, card := s.read q.entry 8, bucket := s.byte (q.entry + 8) &&& 1#8 == 1#8 }
        let s1 : State := { s with lastQueue := Tab.put s.lastQueue q.prio n }
        acceptEntry writeCompletionUnit t
          (s1.modQueue n (fun q => { q with head := q.head + 1#16, parents := Tab.del q.parents q.head.toNat })))

/-- CLUSTER_QUEUE_TAKE (R336, R337, R339): the card posted first, when it is its queue's turn; its entry is freed. -/
def execClusterQueueTake (cluster : Nat) (s : State) : Host.Outcome State Fault Refusal :=
  .next (match clusterFirst s cluster with
    | none => s
    | some (k, e) =>
      if s.boot.stage ≠ 3 ∨ nextQueue s ≠ some (64 + cluster) then s
      else
        let t : Take :=
          { ctx := e.ctx, ring := none, hflush := false, qprio := 3, parent := some e.parent, cluster := some cluster,
            card := e.card.toNat, bucket := false }
        let s1 : State := { s with lastQueue := Tab.put s.lastQueue (clusterPrio s e) (64 + cluster) }
        acceptEntry writeCompletionUnit t
          (s1.modCluster cluster (fun c => { c with queue := listModify c.queue k (fun _ => ClusterEntry.empty) })))

/-! ### Placing and restoring (R30, R343 to R346) -/

/-- The next team of a launch may be placed on a core, or on the pair whose even core it is. -/
def placeable (s : State) (n core : Nat) : Bool :=
  let l := s.launch n
  mayPlace s n && qualifies s n core && (!l.replays.isEmpty || (l.nextFor core).isSome)

/-- A launch's next team may be placed on some core. -/
def placeableAnywhere (s : State) (n : Nat) : Bool := (List.range 768).any (placeable s n)

/-- A launch's team goes before another's (R344): a replay before a new team, then the higher PRIO, then the older launch; so also among replays of
different launches: DESIGN CHOICE, log 152. -/
def goesBefore (s : State) (m n : Nat) : Bool :=
  let a := s.launch m
  let b := s.launch n
  let ra := !a.replays.isEmpty
  let rb := !b.replays.isEmpty
  if ra != rb then ra else if a.prio = b.prio then decide (m < n) else decide (b.prio < a.prio)

/-- A launch's next team has waited 100 µs for a core (R345). -/
def waitedForCore (s : State) (l : Launch) : Bool := decide (l.waitSince + 10000 * refTick ≤ s.time)

/-- The cores of its C-die that may hold an evicted group, the one it left first (R30). -/
def restoreCores (core : Nat) : List Nat := core :: (List.range 192).map (fun k => 192 * dieOf core + k)

/-- An evicted group whose wake condition holds could be restored, to whatever core, and goes first (R30, R344); a team for which groups of lower PRIO
were asked to leave goes before those (R345). DEDUCED, log 62. -/
def evictedFirst (s : State) (n : Nat) : Bool :=
  let l := s.launch n
  s.groups.any (fun e => !e.2.resident && !(decide ((s.launch e.2.launch).prio < l.prio) && l.asked)
    && (restoreCores e.2.core).any (mayRestore s e.1))

/-- A team taken from a cluster queue stays as near its cluster as it can (R343). -/
def nearEnough (s : State) (n core : Nat) : Bool :=
  match (s.launch n).cluster with
  | none => true
  | some c =>
    let inCluster := (List.range 4).any (fun k => placeable s n (4 * c + k))
    let inDie := (List.range 192).any (fun k => placeable s n (192 * (c / 48) + k))
    if inCluster then clusterOf core == c else if inDie then dieOf core == c / 48 else true

/-- TEAM_PLACE (R12, R343, R344): the next team of a launch is placed whole; a gated launch's team with an acquire at .dev (R342). DEDUCED, log 59. -/
def execTeamPlace (launch core : Nat) (s : State) : Host.Outcome State Fault Refusal :=
  .next (if placeable s launch core && nearEnough s launch core && !evictedFirst s launch
      && !(s.launches.any (fun e => e.1 != launch && mayPlace s e.1 && goesBefore s e.1 launch && placeableAnywhere s e.1)) then
    let l := s.launch launch
    let s1 := if l.gates.isEmpty then s else acquireDev core s
    let s2 := if l.gates.isEmpty || !l.pair then s1 else acquireDev (core + 1) s1
    placeNext launch core s2
  else s)

/-- GROUP_RESTORE (R30, R346). -/
def execGroupRestore (group core : Nat) (s : State) : Host.Outcome State Fault Refusal :=
  .next (if mayRestore s group core then restoreGroup group core s else s)

/-! ### Pre-emption and eviction (R26, R27, R224, R328) -/

/-- Ask for a group to be pre-empted (R224): a frozen group drops the request, and one that waits already is the same request. An evicted group drops
it too. DESIGN CHOICE, log 101. -/
def requestPreempt (group : Nat) (s : State) : State :=
  s.modGroup group (fun g =>
    if g.frozen || !g.resident || g.preempt.isSome then g else { g with preempt := some { since := s.time } })

/-- PREEMPTION_REQUEST (R224). -/
def execPreemptionRequest (group : Nat) (s : State) : Host.Outcome State Fault Refusal := .next (requestPreempt group s)

/-- A group leaves its slot with its state saved; a YIELD it was held at has ended. -/
def evict (gid : Nat) (s : State) : State :=
  match Tab.get? s.groups gid with
  | none => s
  | some g =>
    let s1 := acquireDev g.core (leaveRegisters g s)
    savePads g.team (s1.setGroup gid ({ g with
      place := .evicted g.core, preempt := none, starved := false, dues := [], badRegs := g.regPoison g.core s }.endYields))

/-- GROUP_EVICT (R26): a group at a blocking point, outside its handler and not halted, that a request names. A group whose team has a
transaction open is not evicted (R328): its YIELD ends with no other effect (R25). DEDUCED, log 60. DESIGN CHOICE, log 131. -/
def execGroupEvict (group : Nat) (s : State) : Host.Outcome State Fault Refusal :=
  .next (match Tab.get? s.groups group with
    | none => s
    | some g =>
      if !g.resident || g.preempt.isNone || g.handler || g.halted || g.frozen || !s.blocked group g then s
      else if (s.team g.team).tx.isSome then
        s.setGroup group { ({ g with preempt := none }.endYields).rechoose with preempt := g.preempt }
      else if fencedForEviction s group g then evict group s
      else s)

/-- TX_PREEMPT_EXPIRY (R328): 10,000 ref ticks after the request an open transaction ends and its task is queued again at its own rung,
with no update of the assay table; never under DET. -/
def execTxPreemptExpiry (group : Nat) (s : State) : Host.Outcome State Fault Refusal :=
  .next (match Tab.get? s.groups group with
    | none => s
    | some g =>
      match g.preempt, (s.team g.team).tx with
      | some p, some x =>
        if (s.launch g.launch).det || decide (s.time < p.since + 10000 * refTick) then s else requeue g.team x.rung s
      | _, _ => s)

/-! ### Waiting for room (R345) -/

/-- The state in which some groups have left their slots. -/
def without (gids : List Nat) (s : State) : State :=
  { s with groups := s.groups.map (fun e => if gids.contains e.1 then (e.1, { e.2 with place := .evicted e.2.core }) else e) }

/-- Launches of PRIO below p with resident groups, in the order in which groups are pre-empted: the lowest PRIO, then the youngest. -/
def victims (s : State) (p : Nat) : List Nat :=
  let ls := (s.launches.filter (fun e => decide (e.2.prio < p) && s.groups.any (fun g => g.2.launch == e.1 && g.2.resident))).map
    (fun e => (e.2.prio, e.1))
  ([0, 1, 2, 3].flatMap (fun k => (ls.filter (fun e => e.1 == k)).reverse)).map (fun e => e.2)

/-- The groups of some launches on a core, or on its pair, in the order in which they are pre-empted. -/
def victimGroups (s : State) (ls : List Nat) (cores : List Nat) : List Nat :=
  ls.flatMap (fun l => (s.groups.filter (fun e => e.2.launch == l && e.2.resident && !e.2.frozen && cores.contains e.2.core)).map (fun e => e.1))

/-- The fewest launches, taken in order, whose groups' going makes a core qualify for the next team. -/
def leastVictims (s : State) (n : Nat) (coresOf : Nat → List Nat) (ls : List Nat) : Option (List Nat) :=
  ((List.range ls.length).map (fun k => ls.take (k + 1))).find? (fun vs =>
    (List.range 768).any (fun c => placeable (without (victimGroups s vs (coresOf c)) s) n c))

/-- The cores that a team of a launch needs where it is placed on one. -/
def Launch.coresAt (l : Launch) (c : Nat) : List Nat := if l.pair then [c, c + 1] else if 2 ≤ l.heat then [c, partnerOf c] else [c]

/-- The state in which the groups that have been asked to go have gone. -/
def withoutAsked (s : State) : State := without ((s.groups.filter (fun e => e.2.resident && e.2.preempt.isSome)).map (fun e => e.1)) s

/-- The launches whose groups may be asked to go for the next team of a launch (R345): it has waited 100 µs, no core qualifies, and none will once the
groups that have been asked already are gone. -/
def askable (s : State) (n : Nat) : Option (List Nat) :=
  let base := withoutAsked s
  if !mayPlace s n || !waitedForCore s (s.launch n) || placeableAnywhere s n || placeableAnywhere base n then none
  else leastVictims base n (s.launch n).coresAt (victims base (s.launch n).prio)

/-- The going of the groups of some launches makes a core qualify for the next team of a launch. -/
def freesCore (s : State) (n : Nat) (vs : List Nat) (core : Nat) : Bool :=
  let base := withoutAsked s
  placeable (without (victimGroups base vs ((s.launch n).coresAt core)) base) n core

/-- PLACEMENT_WAIT_EXPIRY (R345): after 100 µs without a core that qualifies, groups of lower PRIO on a core are asked to go: only as many
as make it qualify. DEDUCED, log 80. -/
def execPlacementWaitExpiry (launch core : Nat) (s : State) : Host.Outcome State Fault Refusal :=
  .next (match askable s launch with
    | none => s
    | some vs =>
      let base := withoutAsked s
      let all := victimGroups base vs ((s.launch launch).coresAt core)
      if freesCore s launch vs core then
        let need := all.reverse.foldl (fun (keep : List Nat) g =>
          if placeable (without (keep.filter (fun x => x != g)) base) launch core then keep.filter (fun x => x != g) else keep) all
        need.foldl (fun s g => requestPreempt g s) (s.modLaunch launch (fun l => { l with asked := true }))
      else s)

/-! ### The end of a launch (R353 to R361) -/

/-- Every write of a launch is where the release of its completion word asks it to be (R272, R354). DEDUCED, log 63. -/
def launchReleased (s : State) (n : Nat) : Bool :=
  let l := s.launch n
  let far := match l.compPa s with
    | some pa => aperture pa == 1 || aperture pa == 3
    | none => false
  let scope := if l.hflush || far then 5 else 4
  s.reqs.all (fun e => e.2.launch != n || e.2.released s.time scope) && decide (l.seen ≤ s.time)
    && l.early.all (fun m => match Tab.get? s.reqs m with
      | some r => r.released s.time scope
      | none => true)

/-- LAUNCH_QUIET (R353, R354): the quiet tree has held for 64 ref ticks, and the launch ends. -/
def execLaunchQuiet (launch : Nat) (s : State) : Host.Outcome State Fault Refusal :=
  .next (match (s.launch launch).quietSince with
    | some t =>
      if quiet s launch && decide (t + 64 * refTick ≤ s.time) && launchReleased s launch then endLaunch writeCompletionUnit launch s else s
    | none => s)

/-! ### Debug (R228) -/

/-- HALT_AT_BOUNDARY (R228, R231): a group asked to halt halts between instructions, or where it stands if it is blocked; an instruction that awaits
its answer is not over. -/
def execHaltAtBoundary (core slot : Nat) (s : State) : Host.Outcome State Fault Refusal :=
  .next (match s.slotGroup core slot with
    | none => s
    | some (n, g) =>
      if g.halted || g.frozen || suspended s n g then s
      else
        match haltDue s g with
        | some reason => haltGroup n reason 0 g.cur g.nextPc s
        | none => s)

/-! ### The overflow store (R253) -/

/-- The overflow store of a core after the first step of R253 whose condition holds. -/
def overflowStep (s : State) (core acc gain loss ovd : Nat) : Nat :=
  let n := (s.core core).ov
  let ov := n * 32768
  let lo := overflowLo s core
  let hi := overflowHi s core
  if ov < lo then n + 1
  else if hi < ov then n - 1
  else if 0 < ovd ∧ ov < hi ∧ 64 * loss ≤ acc then n + 1
  else if lo < ov ∧ acc ≤ 32 * gain ∧ overflowUsed s core ≤ ov - 32768 then n - 1
  else n

/-- OVERFLOW_INTERVAL (R253): a 16 µs interval has ended, and no step has been taken for it: the interval's counters as the core reads them, and at
most one step. -/
def execOverflowInterval (core acc gain loss ovd : Nat) (s : State) : Host.Outcome State Fault Refusal :=
  .next (if (s.core core).ovInterval < s.time / (1600 * refTick) then
      s.modCore core (fun k => { k with ov := overflowStep s core acc gain loss ovd, ovInterval := s.time / (1600 * refTick) })
    else s)

/-! ### Accesses of the hardware's own (R245, R262) -/

/-- HARDWARE_PREFETCH (R244, R245): a prefetch, a scout load or a wrong-path access of a group's core brings the line, or is dropped and counted
where it would fail a check of R243. An access of code needs FETCH alone, and goes on the con path. DEDUCED, log 83. -/
def execHardwarePrefetch (group : Nat) (access : OwnAccess) (va : DWord) (lease : Nat) (s : State) : Host.Outcome State Fault Refusal :=
  .next (match Tab.get? s.groups group with
    | none => s
    | some g =>
      if !g.resident then s
      else
        let l := s.launch g.launch
        match access with
        | .code =>
          match fetchAt s g (va - BitVec.ofNat 64 (va.toNat % 4)) with
          | .outOfLease _ => countDrop g.core s
          | _ => bring (holdersFor g.core (l.paOf va.toNat)) g.core .con (l.paOf va.toNat) lease s
        | .data path =>
          match checkVa s l g.keyperm .load 0 va 1 with
          | .ok pa => bring (holdersFor g.core pa) g.core path pa lease s
          | .error _ => countDrop g.core s)

/-- REPLICA_DROP (R262). -/
def execReplicaDrop (die page : Nat) (s : State) : Host.Outcome State Fault Refusal :=
  .next (s.modDie die (fun d => { d with replicas := Tab.del d.replicas page }))

end Sys2Proof.Machine
end

