-- ==== Sys2Proof/Machine/HostSide.lean ====
section
/-! DEFINITION. What reaches the device from outside, and the registers of the dies (spec/22 R377, R382 to R384, R388 to R390, spec/14 R286
to R288, spec/12 R247, R260, R263, spec/10 R223, R227 to R231, spec/16 R330, spec/18 R333, R357): host reads, writes and atomics, register
writes, requests of Weft peers and their timeouts, and soft errors. -/

namespace Sys2Proof.Machine

/-! ### The host's accesses (R383, R391) -/

/-- Page `die` of the dies' memory pages answers the host: die 0's at any stage, the others' once stage B is complete (R391). -/
def pageAnswers (s : State) (die : Nat) : Bool := decide (die < 4) && (die == 0 || s.boot.stage == 3)

/-- A byte that the host reaches: populated local HBM, or the on-chip aperture, of which only die 0's page answers until stage B is
complete. DEDUCED, log 67. -/
def hostReaches (s : State) (pa : Nat) : Bool :=
  match aperture pa with
  | 0 => s.populated pa
  | 2 => s.boot.stage == 3 || (match onchipAt pa with
    | .page d _ => d == 0
    | _ => false)
  | _ => false

/-- Cut bytes at the bounds of aligned 8-byte words. -/
def cutWords (pa : Nat) (bytes : List Byte) : List (Nat × List Byte) :=
  (List.range ((pa % 8 + bytes.length + 7) / 8)).map (fun k =>
    let start := max pa (pa - pa % 8 + 8 * k)
    (start, (bytes.drop (start - pa)).take (8 - start % 8)))

/-- Bytes written from outside are performed word by word at the home slice, or at the window; F/E bits stay. -/
def hostWrite (pa : Nat) (bytes : List Byte) (s : State) : State :=
  (cutWords pa bytes).foldl (fun s w =>
    if !hostReaches s w.1 then s
    else if aperture w.1 = 2 then writeOnchip .host none w.1 w.2 s
    else wake w.1 (s.poke w.1 w.2)) s

/-- What a host read returns: all ones where the address does not answer. -/
def hostRead (s : State) (pa n : Nat) : List Byte :=
  if (List.range n).all (fun k => hostReaches s (pa + k)) then (List.range n).map (fun k => homeByte s (pa + k))
  else List.replicate n 0xFF#8

/-- MYENT_READ (R383): 1 to 64 bytes, from the home slice or the window. -/
def execMyentRead (pa n : Nat) (s : State) : Host.Outcome State Fault Refusal :=
  .next (if n = 0 ∨ 64 < n then s else { s with host := { s.host with reply := hostRead s pa n } })

/-- MYENT_POSTED_WRITE (R383). -/
def execMyentPostedWrite (pa : Nat) (data : List Byte) (s : State) : Host.Outcome State Fault Refusal := .next (hostWrite pa data s)

/-- An 8-byte operation of the host on a word: the old value is returned, all ones where the word is misaligned or does not answer; where it gives no
new value, nothing is written. Of a poisoned word it takes the bytes as they stand: DESIGN CHOICE, log 153. -/
def hostAtomic (pa : Nat) (f : DWord → Option DWord) (s : State) : State :=
  if pa % 8 ≠ 0 ∨ !hostReaches s pa then { s with host := { s.host with old := BitVec.allOnes 64 } }
  else
    let old := BitVec.ofNat 64 (leNat ((List.range 8).map (fun k => homeByte s (pa + k))))
    let s1 : State := { s with host := { s.host with old := old } }
    match f old with
    | some v => hostWrite pa (leBytes 8 v.toNat) s1
    | none => s1

/-- MYENT_FETCH_ADD (R382, R383). -/
def execMyentFetchAdd (pa : Nat) (add : DWord) (s : State) : Host.Outcome State Fault Refusal := .next (hostAtomic pa (fun m => some (m + add)) s)

/-- MYENT_COMPARE_AND_SWAP (R383). -/
def execMyentCompareAndSwap (pa : Nat) (cmp new : DWord) (s : State) : Host.Outcome State Fault Refusal :=
  .next (hostAtomic pa (fun m => if m = cmp then some new else none) s)

/-! ### Registers (R223, R228, R230, R247, R263, R330, R333, R357, R377, R382) -/

/-- REGISTER_WRITE (R250, R377): bytes written to the on-chip aperture by the host, the Smithy or a launch. -/
def execRegisterWrite (by_ : Agent) (pa : Nat) (data : List Byte) (s : State) : Host.Outcome State Fault Refusal :=
  .next (if aperture pa = 2 ∧ (by_ ≠ .host ∨ hostReaches s pa) then writeOnchip by_ none pa data s else s)

/-- QUEUE_TAIL_WRITE (R333). -/
def execQueueTailWrite (queue : Nat) (tail : Half) (s : State) : Host.Outcome State Fault Refusal :=
  .next (if queue < 64 then writeTail queue tail s else s)

/-- QUEUE_ENABLE (R333, R378): the flags LOG2N to HFLUSH of a descriptor, EN among them. -/
def execQueueEnable (queue : Nat) (flags : DWord) (s : State) : Host.Outcome State Fault Refusal :=
  .next (if queue < 64 then writeQueueFlags queue flags s else s)

/-- KILL (R357). -/
def execKill (v : Word) (s : State) : Host.Outcome State Fault Refusal := .next (kill v s)

/-- CARTREL (R377, R188). -/
def execCartrel (v : Word) (s : State) : Host.Outcome State Fault Refusal := .next (writeCartrel v s)

/-- RESDONE (R382). -/
def execResdone (v : Word) (s : State) : Host.Outcome State Fault Refusal := .next (redoWalk v.toNat s)

/-- FREEPG (R263). -/
def execFreepg (die : Nat) (v : DWord) (s : State) : Host.Outcome State Fault Refusal :=
  .next (if pageAnswers s die then writeFreepg die v s else s)

/-- A lease holds a byte of a page (R242, R263). -/
def pageLeased (s : State) (pa size : Nat) : Bool :=
  s.launches.any (fun e => (leaseHeld s e.1 || (e.2.heir.isSome && e.2.holdsLease s e.1))
    && e.2.extents.any (fun x => decide (x.pa < pa + size ∧ pa < x.pa + x.len)))

/-- FREE_PAGE_DONE (R263): once no lease holds the page its replicas go, TAIL and SEALED read 0, GEN grows by one, and DONE is set. -/
def execFreePageDone (die : Nat) (s : State) : Host.Outcome State Fault Refusal :=
  .next (let d := s.die die
    let pa := bitsAt d.freepg 0 48
    if !d.freeBusy || pageLeased s pa (if d.freepg.getLsbD 63 then 0x200000 else 0x10000) then s
    else
      let gen := BitVec.ofNat 32 (s.read (s.tailPa pa) 8 / 2 ^ 32) + 1#32
      let s1 := [0, 1, 2, 3].foldl (fun s k => s.modDie k (fun x => { x with replicas := Tab.del x.replicas pa })) s
      (wake (s1.tailPa pa) (s1.write (s1.tailPa pa) 8 (gen.toNat * 2 ^ 32))).modDie die (fun x => { x with freeBusy := false, freeDone := true, freeGen := gen }))

/-- L2QUOTA (R247). -/
def execL2quota (die : Nat) (v : Word) (s : State) : Host.Outcome State Fault Refusal :=
  .next (if pageAnswers s die then writeL2quota die v s else s)

/-- ASSAYCLR (R330). -/
def execAssayclr (v : Word) (s : State) : Host.Outcome State Fault Refusal := .next (writeAssayclr v s)

/-- ASSAY_TABLE_EMPTY (R330): the table is empty, and the device clears CLEAR. DESIGN CHOICE, log 121. -/
def execAssayTableEmpty (s : State) : Host.Outcome State Fault Refusal :=
  .next (if s.assayclr then { s with assay := [], assayclr := false } else s)

/-- A debug page answers: a core of the device, once stage B is complete. -/
def debugAnswers (s : State) (core slot : Nat) : Bool := decide (core < 768) && decide (slot < 16) && s.boot.stage == 3

/-- HALTREQ (R228): a write of GCTL. -/
def execHaltreq (core slot : Nat) (v : Word) (s : State) : Host.Outcome State Fault Refusal :=
  .next (if debugAnswers s core slot then writeGctl core slot v s else s)

/-- GROUP_RESUME (R230): 1 is written to HALTED. -/
def execGroupResume (core slot : Nat) (s : State) : Host.Outcome State Fault Refusal :=
  .next (if debugAnswers s core slot then resumeGroup core slot s else s)

/-- FROZEN_RELEASE (R223): 1 is written to FROZEN. -/
def execFrozenRelease (core slot : Nat) (s : State) : Host.Outcome State Fault Refusal :=
  .next (if debugAnswers s core slot then releaseSlot core slot s else s)

/-! ### Weft peers (R264, R286, R384) -/

/-- A peer's full/empty lane waits at this device's home slice as a request of no group here: in a monitor, or polled where none is free or the
sector's records go first (R256, R258). DESIGN CHOICE, log 57. -/
def holdPeer (kind : FeKind) (pa : Nat) (data : DWord) (s : State) : State :=
  let free := decide (monitorsAt s (homeSlice pa) < 192) && !NatSet.mem s.watched (pa / 64)
  { s.addReq { group := 0, launch := 0, team := 0, lanes := 0#64, core := peerCore, time := s.time, pc := 0#64, word := 0#32, pfx := none,
               dest := [], notBefore := 0, hostAck := false, peerAck := false,
               kind := .fe kind 0 0#64 pa data 0 (if free then .monitor s.uid else .polled (s.time + 256 * refTick)) } with uid := s.uid + 1 }

/-- A full/empty access of a peer (R135, R278). -/
def peerFe (kind : FeKind) (pa : Nat) (data : DWord) (s : State) : State :=
  if kind == .stfs && s.isFull pa then answerPeer [] s
  else if feReady s kind pa then
    let out := feEffect 0 kind (BitVec.ofNat 64 pa) pa data s
    answerPeer (leBytes 8 out.1.toNat) (if out.2.2 then wake pa out.2.1 else out.2.1)
  else holdPeer kind pa data s

/-- PEER_REQUEST_ARRIVE (R264, R286): a peer's request is performed at the home slice of its word. -/
def execPeerRequestArrive (op : PeerOp) (s : State) : Host.Outcome State Fault Refusal :=
  .next (let here := fun (pa : Nat) => aperture pa == 0 && s.populated pa
    match op with
    | .load pa size => if here pa then answerPeer (s.bytes pa size) s else s
    | .store pa data =>
      if here pa then answerPeer [] ((cutWords pa data).foldl (fun s w => wake w.1 (s.poke w.1 w.2)) s) else s
    | .atomic op ty pa x new =>
      if here pa ∧ pa % typeSize ty = 0 ∧ !s.poisoned pa (typeSize ty) then
        let out := reduceHome 0 op ty (BitVec.ofNat 64 pa) pa [{ lane := none, x := x, new := new }] s
        answerPeer (leBytes 8 (out.2.getD 0 0#64).toNat) out.1
      else s
    | .fe kind pa data => if here pa ∧ pa % 8 = 0 then peerFe kind pa data s else s)

/-- A request to a peer has no answer in time: the peer is absent, or 100,000 ref ticks have passed since it was sent (R384). -/
def unanswered (s : State) (sent pa : Nat) : Bool :=
  aperture pa == 1 && (!peerPresent s pa || decide (sent + 100000 * refTick ≤ s.time))

/-- A store or reduction to a peer is dropped, with record 0x45. -/
def dropToPeer (launch pa : Nat) (s : State) : State := launchRecord 0x45 launch (peerOf pa) pa s

/-- A request of a group that a peer does not answer: a load, atomic or full/empty form is poisoned data, a store or reduction is dropped. A
lane that the peer holds waits on. DESIGN CHOICE, log 72. -/
def timeoutReq (n : Nat) (r : Req) (s : State) : State :=
  match r.kind with
  | .load _ parts =>
    (match parts.filter (fun x => unanswered s r.time x.pa) with
    | x :: t => poisonStop r 0 (if x.lane.isSome then LaneSet.of ((x :: t).filterMap (fun y => y.lane)) else r.lanes) x.va (endRequest n r) s
    | [] => s)
  | .store parts =>
    let gone := parts.filter (fun x => unanswered s r.time x.pa)
    if gone.isEmpty then s
    else reap ((gone.foldl (fun s x => dropToPeer r.launch x.pa s) s).modReq n (fun q =>
      { q with kind := .store (parts.filter (fun x => !unanswered s r.time x.pa)) }))
  | .atomic _ _ va pa _ reg =>
    if !unanswered s r.time pa || r.sure then s
    else if reg.isSome then
      poisonStop r 1 r.lanes va (fun s => (siblings s r).foldl (fun s e => endRequest e.1 e.2 s) s) s
    else dropToPeer r.launch pa (s.delReq n)
  | .fe k lane va pa _ _ .flying =>
    if unanswered s r.time pa && !r.sure then
      poisonStop r 0 (LaneSet.one lane) va (fun s => if feWaits k then s.delReq n else (siblings s r).foldl (fun s e => endRequest e.1 e.2 s) s) s
    else s
  | .stfs ls =>
    (match ls.filter (fun x => unanswered s r.time x.pa) with
    | x :: t => poisonStop r 0 (LaneSet.of ((x :: t).map (fun y => y.lane))) x.va (endRequest n r) s
    | [] => s)
  | .commit (e :: es) reg result =>
    if unanswered s r.time e.pa then
      (dropToPeer r.launch e.pa s).modReq n (fun q =>
        { q with kind := if es.isEmpty then .value [{ lane := none, reg := reg, val := result }] else .commit es reg result })
    else s
  | _ => s

/-- A carter command whose peers do not answer, absent or silent for 100,000 ref ticks: a source word reads as poison, and words for the peer are
dropped, each with its record. -/
def timeoutCmd (n : Nat) (c : Cmd) (s : State) : State :=
  if c.state ≠ 1 ∨ c.poison then s
  else
    let left := (List.range c.count).filter (fun i => !NatSet.mem c.performed i)
    match left.find? (fun i => match c.source i with
        | some x => unanswered s c.since x.2
        | none => false), c.carter with
    | some i, some k => freezeCarter n k c (((c.source i).map (fun x => x.1)).getD 0) s
    | _, _ =>
      left.foldl (fun s i =>
        match c.word s i with
        | some (x, _) =>
          if unanswered s c.since x.pa then
            (dropToPeer c.launch x.pa s).modCmd n (fun c => { c with performed := NatSet.ins c.performed i })
          else s
        | none => s) s

/-- The words of an MSTORE that go to an absent peer are dropped, each with its record. -/
def timeoutLoom (n : Nat) (x : Loom) (s : State) : State :=
  ((x.out.getD []).zipIdx).foldl (fun s w =>
    if NatSet.mem x.performed w.2 || peerPresent s w.1.pa then s
    else (dropToPeer x.launch w.1.pa s).modLoom n (fun x => { x with performed := NatSet.ins x.performed w.2 })) s

/-- PEER_TIMEOUT (R384). -/
def execPeerTimeout (req : Nat) (s : State) : Host.Outcome State Fault Refusal :=
  .next (match Tab.get? s.reqs req, Tab.get? s.cmds req, Tab.get? s.looms req with
    | some r, _, _ => timeoutReq req r s
    | none, some c, _ => timeoutCmd req c s
    | none, none, some x => timeoutLoom req x s
    | none, none, none => s)

/-! ### Soft errors (R388 to R390) -/

/-- PA of an offset in a core's local store (R248). -/
def localStorePa (core off : Nat) : Nat := 2 ^ 47 + core * 0x100000 + 0x50000 + off

/-- The contexts of the enabled queues. -/
def enabledContexts (s : State) : List Nat := (s.queues.filter (fun e => e.2.en)).map (fun e => e.2.ctx.toNat)

/-- Record 0x46 of a corrected error (R381): under RAS, to the ring of one of the contexts with an enabled queue. DESIGN CHOICE, log 10. -/
def correctedRecord (pa : Nat) (s : State) : State :=
  match enabledContexts s with
  | [] => s
  | c :: cs =>
    if s.mode.getLsbD 4 then
      faultRecord ((c :: cs).getD (Config.errorContext s.free % (cs.length + 1)) c)
        (dispatcherRecord 0x46 0 (Config.locationCode s.free).toNat pa s) { s with free := s.free + 1 }
    else s

/-- Words of a core's window that hold registers, accumulators or slots (R248): the local store apart. -/
def errorWindow (off : Nat) : Bool := decide (off < 0x42000) || (decide (0xB0000 ≤ off) && decide (off < 0xE8000))

/-- The words after the first that an error reaches, in `n` words. -/
def reach (start more n : Nat) : List Nat := (List.range (more + 1)).filterMap (fun k => if start / 8 + k < n then some (start / 8 + k) else none)

/-- CORRECTED_ERROR (R389): it is corrected and counted, in CEHBM of the home die or in CESRAM of the core. R390 gives the caches that cores share no
counter. DESIGN CHOICE, log 66. -/
def execCorrectedError (place : ErrorPlace) (s : State) : Host.Outcome State Fault Refusal :=
  let ofCore := fun (core pa : Nat) => correctedRecord pa (s.modCore core (fun k => { k with cesram := k.cesram + 1#64 }))
  .next (match place with
    | .hbm pa _ =>
      if s.populated pa then correctedRecord pa (s.modDie (homeDie pa) (fun d => { d with cehbm := d.cehbm + 1#64 })) else s
    | .sram core off _ => if core < 768 ∧ off < 0x60000 then ofCore core (localStorePa core off) else s
    | .window core off _ => if core < 768 ∧ errorWindow off then ofCore core (2 ^ 47 + core * 0x100000 + off) else s
    | .cache (.l1 core) _ pa _ => if core < 768 then ofCore core pa else s
    | .cache _ _ pa _ => correctedRecord pa s)

/-- An uncorrectable error counted in UESRAM of a core. -/
def countUesram (core : Nat) (s : State) : State := s.modCore core (fun k => { k with uesram := k.uesram + 1#64 })

/-- A word of a core's window is poisoned. -/
def poisonWindow (core off : Nat) (s : State) : State := { s with poison := NatSet.ins s.poison ((2 ^ 47 + core * 0x100000 + off) / 8) }

/-- Words of the copies of a line in a cache are poisoned. -/
def poisonCopies (h : Holder) (path : Path) (pa more : Nat) (s : State) : State :=
  { s with copies := s.copies.map (fun e =>
      if e.2.holder = h ∧ e.2.path = path ∧ e.2.line = pa / 128 then
        (e.1, { e.2 with bad := (reach (pa % 128) more 16).foldl NatSet.ins e.2.bad })
      else e) }

/-- Words of atomics, FEGETs and FESETs that have passed their last check have been read at their slices: those that an error is about to reach are
performed before it (R100). DEDUCED, log 112. -/
def settleSure (hit : Nat → Bool) (s : State) : State :=
  s.reqs.foldl (fun s e =>
    if e.2.sure && e.2.kind.joint && e.2.kind.spans.any (fun x => hit (x.1 / 8)) then
      match e.2.kind with
      | .atomic op ty va pa ops reg => performAtomic e.1 e.2 op ty va pa ops reg s
      | .fe kind lane va pa data reg _ => feAtSlice e.1 e.2 kind lane va pa data reg s
      | _ => s
    else s) s

/-- UNCORRECTABLE_ERROR (R389): the 8-byte words it reaches are poisoned, and the error counted. DESIGN CHOICE, log 66. -/
def execUncorrectableError (place : ErrorPlace) (s : State) : Host.Outcome State Fault Refusal :=
  .next (match place with
    | .hbm pa more =>
      if s.populated pa then
        let words := (reach pa more (pa / 8 + more + 1)).filter (fun w => s.populated (8 * w))
        let s := settleSure (fun w => words.contains w) s
        { s with poison := words.foldl NatSet.ins s.poison }.modDie (homeDie pa) (fun d => { d with uehbm := d.uehbm + 1#64 })
      else s
    | .sram core off more =>
      if core < 768 ∧ off < 0x60000 then
        countUesram core { s with poison := (reach off more 0xC000).foldl (fun m w => NatSet.ins m (localStorePa core 0 / 8 + w)) s.poison }
      else s
    | .window core off more =>
      if core < 768 ∧ errorWindow off then
        countUesram core (((reach off more 0x1D000).filter (fun w => errorWindow (8 * w))).foldl (fun s w => poisonWindow core (8 * w) s) s)
      else s
    | .cache (.l1 core) path pa more =>
      if core < 768 then countUesram core (poisonCopies (.l1 core) path pa more s) else s
    | .cache h path pa more => poisonCopies h path pa more s)

/-- PATROL_SCRUB (R388): every sector is rewritten as it is. -/
def execPatrolScrub (s : State) : Host.Outcome State Fault Refusal := .next s

end Sys2Proof.Machine
end

