-- ==== Sys2Proof/Machine/Boot.lean ====
section
/-! DEFINITION. Staged start, identity and attestation (spec/22 R391, R392), with SHA-512 over bytes of memory. -/

namespace Sys2Proof.Machine

/-! ### SHA-512 -/

/-- The largest number below 2^bits whose f-th power is at most x. -/
def rootBits (f x : Nat) : Nat → Nat → Nat
  | 0, r => r
  | b + 1, r => if (r + 2 ^ b) ^ f ≤ x then rootBits f x b (r + 2 ^ b) else rootBits f x b r

/-- The first 80 primes. -/
def shaPrimes : List Nat :=
  (List.range 410).filter (fun n => decide (2 ≤ n) && (List.range n).all (fun d => decide (d < 2) || n % d != 0))

/-- The initial hash value: 64 bits of the fractional parts of the square roots of the first eight primes. -/
def shaInit : List DWord := (shaPrimes.take 8).map (fun p => BitVec.ofNat 64 (rootBits 2 (p * 2 ^ 128) 70 0))

/-- The round constants: 64 bits of the fractional parts of the cube roots of the first eighty primes. -/
def shaRounds : List DWord := shaPrimes.map (fun p => BitVec.ofNat 64 (rootBits 3 (p * 2 ^ 192) 70 0))

/-- The message, a 1 bit, zeros, and the length in bits as 128 bits. -/
def shaPad (m : List Byte) : List Byte :=
  let zeros := (128 - (m.length + 17) % 128) % 128
  m ++ 0x80#8 :: List.replicate zeros 0#8 ++ (leBytes 16 (8 * m.length)).reverse

/-- A 64-bit word of bytes, the highest first. -/
def beWord (bs : List Byte) : DWord := BitVec.ofNat 64 (leNat bs.reverse)

/-- The message schedule after the first 16 words, the latest word first. -/
def shaSchedule : Nat → List DWord → List DWord
  | 0, w => w
  | n + 1, w =>
    let at_ := fun (k : Nat) => w.getD (k - 1) 0#64
    let s0 := (at_ 15).rotateRight 1 ^^^ (at_ 15).rotateRight 8 ^^^ (at_ 15 >>> 7)
    let s1 := (at_ 2).rotateRight 19 ^^^ (at_ 2).rotateRight 61 ^^^ (at_ 2 >>> 6)
    shaSchedule n ((at_ 16 + s0 + at_ 7 + s1) :: w)

/-- One round. -/
def shaRound (h : List DWord) (kw : DWord) : List DWord :=
  match h with
  | [a, b, c, d, e, f, g, k] =>
    let s1 := e.rotateRight 14 ^^^ e.rotateRight 18 ^^^ e.rotateRight 41
    let t1 := k + s1 + ((e &&& f) ^^^ (~~~e &&& g)) + kw
    let s0 := a.rotateRight 28 ^^^ a.rotateRight 34 ^^^ a.rotateRight 39
    let t2 := s0 + ((a &&& b) ^^^ (a &&& c) ^^^ (b &&& c))
    [t1 + t2, a, b, c, d + t1, e, f, g]
  | other => other

/-- One block of 128 bytes. -/
def shaBlock (h : List DWord) (block : List Byte) : List DWord :=
  let first := (List.range 16).map (fun k => beWord ((block.drop (8 * k)).take 8))
  let w := (shaSchedule 64 first.reverse).reverse
  let out := (w.zip shaRounds).foldl (fun h x => shaRound h (x.1 + x.2)) h
  (h.zip out).map (fun x => x.1 + x.2)

/-- SHA-512, 64 bytes. -/
def sha512 (m : List Byte) : List Byte :=
  let p := shaPad m
  let h := (List.range (p.length / 128)).foldl (fun h k => shaBlock h ((p.drop (128 * k)).take 128)) shaInit
  h.flatMap (fun x => (leBytes 8 x.toNat).reverse)

/-- Bytes as one value, the first byte the lowest. -/
def packBytes (bs : List Byte) : BitVec 512 := BitVec.ofNat 512 (leNat bs)

/-! ### Stages (R391) -/

/-- RESET (R391): the boot ROM starts, with every register at its reset value. What memory holds, the agenda of the outside world and the count of free
values go on. DESIGN CHOICE, log 34. -/
def execReset (s : State) : Host.Outcome State Fault Refusal :=
  .next { State.reset with mem := s.mem, full := s.full, poison := s.poison, silent := s.silent, agenda := s.agenda, free := s.free }

/-- How the check of an image and what follows it end, as FCODE (R391): 1 for a signature that fails, 2 for a version below the rollback counter, then
what the agenda says of training (3) and of the fabric (4). -/
def stageOutcome (fcode : Nat) (fwver : Word) : Nat :=
  if fcode = 1 then 1 else if fwver < Config.rollbackCounter then 2 else if fcode = 3 ∨ fcode = 4 then fcode else 0

/-- A stage fails: FAIL and FCODE are set, and the device is left in stage A. DEDUCED, log 68. -/
def failStage (fcode : Nat) (s : State) : State := { s with boot := { s.boot with stage := 1, fail := true, fcode := fcode } }.message 1 1

/-- STAGE_A_READY (R391): the boot ROM has checked the stage A image and run it, or has found a failure; either leaves the device in stage A. -/
def execStageAReady (fcode : Nat) (fwver : Word) (s : State) : Host.Outcome State Fault Refusal :=
  .next (if s.boot.stage ≠ 0 then s
    else
      match stageOutcome (if fcode = 1 then 1 else 0) fwver with
      | 0 => { s with boot := { s.boot with stage := 1, fail := false, fcode := 0, fwver := fwver, fwverA := fwver } }.message 1 1
      | f => failStage f s)

/-- BOOTCTL (R391). -/
def execBootctl (v : DWord) (s : State) : Host.Outcome State Fault Refusal := .next (writeBootctl v s)

/-- Local HBM after training: nothing is listed, and every F/E bit reads empty (R254, R391). -/
def trainMemory (s : State) : State :=
  let outside := fun (pa : Nat) => aperture pa != 0
  { s with mem := s.mem.filter (fun c => outside c.1), full := s.full.filter (fun w => outside (8 * w)), watched := [],
           poison := s.poison.filter (fun w => outside (8 * w)) }

/-- The watchdogs start on every die (R374). -/
def startWatchdogs (s : State) : State :=
  [0, 1, 2, 3].foldl (fun s d => s.modDie d (fun x => { x with smhbTime := s.time, expired := false })) s

/-- STAGE_B_COMPLETE (R374, R375, R391): the image is verified, the memory trained, and STAGE reads 3; or the stage fails, as it does with
FCODE 1 for a LEN above 0x100_0000, and the device is left in stage A. -/
def execStageBComplete (fcode : Nat) (fwver : Word) (s : State) : Host.Outcome State Fault Refusal :=
  .next (if s.boot.stage ≠ 2 then s
    else if 0x1000000 < s.boot.len.toNat then failStage 1 s
    else if stageOutcome fcode fwver ≠ 0 then failStage (stageOutcome fcode fwver) s
    else
      let hash := packBytes (sha512 (s.bytes 0 (4096 * s.boot.len.toNat)))
      let s1 : State := { s with
        boot := { s.boot with stage := 3, fail := false, fcode := 0, fwver := fwver, stageBHash := some hash }
        clusters := s.clusters.map (fun e => (e.1, { e.2 with railup := false, railreq := false })) }
      (startWatchdogs (trainMemory s1)).message 1 3)

/-! ### Attestation (R392) -/

/-- ATTCTL (R392). -/
def execAttctl (v : Word) (s : State) : Host.Outcome State Fault Refusal := .next (writeAttctl v s)

/-- Bytes 0x000 to 0x0FF of a report. DEDUCED, log 69. -/
def reportBody (s : State) : List Byte :=
  leBytes 16 Config.serialNumber.toNat ++ leBytes 4 s.boot.fwverA.toNat
    ++ leBytes 4 (if s.boot.stageBHash.isSome then s.boot.fwver.toNat else 0) ++ leBytes 8 Config.rollbackCounter.toNat
    ++ List.replicate 32 0#8 ++ leBytes 64 Config.stageAImageHash.toNat ++ leBytes 64 (s.boot.stageBHash.getD 0).toNat ++ s.boot.attNonce

/-- The report: its body, and the signature over SHA-512 of it. DESIGN CHOICE, log 11. -/
def report (s : State) : List Byte :=
  let hash := packBytes (sha512 (reportBody s))
  reportBody s ++ leBytes 66 (Config.signatureR hash).toNat ++ List.replicate 6 0#8 ++ leBytes 66 (Config.signatureS hash).toNat
    ++ List.replicate 118 0#8

/-- ATTESTATION_REPORT_READY (R392). -/
def execAttestationReportReady (s : State) : Host.Outcome State Fault Refusal :=
  .next (if s.boot.attBusy then
    { s with boot := { s.boot with attBusy := false, attctl := 2, report := report s } }.message 2 0
  else s)

end Sys2Proof.Machine
end

