-- ==== Sys2Proof/Machine/Order.lean ====
section
/-! DEFINITION. FENCE, BAR, WAIT and YIELD (spec/08 R167 to R176, spec/14 R271 to R275). -/

namespace Sys2Proof.Machine

/-! ### FENCE (R167, R168, R271 to R273) -/

/-- The paths that PATHS names. -/
def pathsOf (h : BitVec 4) (p : Path) : Bool := h.getLsbD (pathBit p)

/-- PATHS names more than one path (R273). -/
def manyPaths (h : BitVec 4) : Bool := decide (1 < (List.range 4).countP (fun k => h.getLsbD k))

/-- Plain stores in flight that observers of a scope have issued, and may have released within it (R266, R271): of the group, of the team, or of the
cluster. -/
def scopeStores (c : Ctx) (scope : Nat) (s : State) : Bool :=
  s.reqs.any (fun e => e.2.kind.seenEarly && e.2.kind.writes && (match scope with
    | 0 => e.2.group == c.site.gid
    | 1 => e.2.team == c.g.team
    | _ => clusterOf e.2.core == clusterOf c.core))

/-- A FENCE may complete: its release, its acquire and what R272 and R273 add: one that acquires on the general path and on another also awaits the stores
that others of its scope may have released while they were in flight (DEDUCED, log entry 128). Both kinds wait for the threads' earlier reads (log
entry 37). -/
def fenceReady (k : BitVec 2) (scope : Nat) (h : BitVec 4) (c : Ctx) (s : State) : Bool :=
  let rel := k != 0#2
  let gen := pathsOf h .gen
  earlyDone s c.site.gid c.mask scope
    && (!rel || ((!gen || storesDone s c.site.gid c.mask scope) && (!pathsOf h .tile || loomsDone s c.site.gid c.mask)))
    && readsReturned s c.site.gid c.mask (pathsOf h) && (!pathsOf h .tile || loomReadsDone s c.site.gid c.mask)
    && (!manyPaths h || ((!gen || ((requestsOf s c.site.gid c.mask).all (fun r => !r.kind.writes) && (k == 1#2 || !scopeStores c scope s)))
      && (!pathsOf h .tile || loomsDone s c.site.gid c.mask)))

/-- A team spans a pair. -/
def Team.spans (t : Team) : Bool := t.odd.isSome

/-- FENCE (R167, R168). -/
def execFence (st k : BitVec 2) (p : BitVec 3) (h : BitVec 4) (s : State) : Host.Outcome State Fault Refusal :=
  issue (.fence st k p h) none (fun c s =>
    if !fenceReady k p.toNat h c s then .wait
    else
      let s := if k = 1#2 then s else acquireAt c.core p.toNat (c.team s).spans (pathsOf h) s
      .ok (if manyPaths h then
          dropNear c.core (pathsOf h) s
        else s)) s

/-! ### BAR (R169 to R171) -/

/-- The result of BAR. -/
def barResult (phase : BitVec 31) (last : Bool) : Word := (if last then 1#1 else 0#1) ++ phase

/-- An acquire at .team on all paths, which are named together (R273, R275). -/
def acquireTeam (core : Nat) (s : State) : State := dropNear core allPaths s

/-- An arrival, a release at .team on all paths (R275), may be made: what its threads have written, and what they have read of others' writes, has been
performed at its home, so that it reaches the readers of every path (R273). -/
def Ctx.mayArrive (c : Ctx) (s : State) : Bool :=
  c.mayRelease s 1 && (requestsOf s c.site.gid c.mask).all (fun r => !r.kind.writes)
    && c.lanes.all (fun l => (c.g.thread l).early.all (fun n => match Tab.get? s.reqs n with
      | some r => !r.kind.writes
      | none => true))

/-- The blocked issue sets of a team that wait for a phase of a barrier go on (R170), those of a halted group once it resumes (R230): `last` says which
GROUPID reads LAST. -/
def wakeBarrier (team n : Nat) (phase : BitVec 31) (last : Option Nat) (s : State) : State :=
  (s.groups.filter (fun e => e.2.team == team)).foldl (fun s e =>
    e.2.blocks.foldl (fun s b => match b.2.kind with
      | .bar m p dest =>
        let r := barResult phase (last == some e.2.gid)
        if m = n ∧ p = phase then
          acquireTeam e.2.core (s.modGroup e.1 (fun g =>
            if g.halted then g.record b.1 r else ((g.goOn b.1).setG dest r).rechoose))
        else s
      | _ => s) s) s

/-- One arrival (R170): the barrier after it, the phase and whether it completed. -/
def Barrier.arrive (b : Barrier) (cnt gpt gid : Nat) (waits : Bool) : Barrier × BitVec 31 × Bool :=
  let expect := if b.arrived = 0 then (if cnt = 0 ∨ gpt < cnt then gpt else cnt) else b.expect
  let high := if waits then some (match b.highWait with
    | some h => max h gid
    | none => gid) else b.highWait
  if b.arrived + 1 = expect then ({ phase := b.phase + 1#31, arrived := 0, expect := expect, highWait := none }, b.phase, true)
  else ({ b with arrived := b.arrived + 1, expect := expect, highWait := high }, b.phase, false)

/-- BAR in either form (R170, R171), a release at .team as it arrives; a completed phase clears the line tags of the team (R362). Its last arrival has the
role of its whole group, without DET. -/
def barrier (waits : Bool) (d a : BitVec 7) (n : Nat) (c : Ctx) (s : State) : Res :=
  let l := c.launch s
  let t := c.team s
  let b := t.bars.getD n Barrier.start
  let out := b.arrive (c.gv a).toNat l.gpt c.g.gid waits
  let done := out.2.2
  if waits && !done && c.g.handler then c.cause .handlerBlock 0 0#64
  else if !c.mayArrive s then .wait
  else
    let s := s.modTeam c.g.team (fun t => { t with bars := listModify t.bars n (fun _ => out.1) })
    let high := if waits then (match b.highWait with
      | some h => some (max h c.g.gid)
      | none => some c.g.gid) else b.highWait
    let last := if l.det then high else some c.g.gid
    if done then
      let s := clearTags c.g.team s
      let s := wakeInner (wakeBarrier c.g.team n out.2.1 last s)
      let mine := if l.det then waits && high == some c.g.gid else true
      let s := if waits then acquireTeam c.core s else s
      .ok (c.write [wG d (barResult out.2.1 mine)] s)
    else if waits then
      .ok { s.modGroup c.site.gid (fun g => g.block s.uid c.mask c.site.pc c.site.next (.bar n out.2.1 d.toNat)) with uid := s.uid + 1 }
    else .ok (c.write [wG d (barResult out.2.1 false)] s)

/-- BAR.wait (R169, R170). -/
def execBarWait (st : BitVec 2) (d a : BitVec 7) (n : BitVec 3) (s : State) : Host.Outcome State Fault Refusal :=
  issue (.barWait st d a n) none (barrier true d a n.toNat) s

/-- BAR.arrive (R169, R170). -/
def execBarArrive (st : BitVec 2) (d a : BitVec 7) (n : BitVec 3) (s : State) : Host.Outcome State Fault Refusal :=
  issue (.barArrive st d a n) none (barrier false d a n.toNat) s

/-! ### WAIT (R172 to R175) -/

/-- Entry `i` of a wait block (R173), its word not yet translated. -/
def parseWait (block i : Nat) : WaitEntry :=
  let x := block / 2 ^ (128 * i) % 2 ^ 128
  { kind := x / 2 ^ 56 % 8, addr := (BitVec.ofNat 56 x).signExtend 64, cmp := x / 2 ^ 59 % 8, size8 := x.testBit 62,
    value := BitVec.ofNat 64 (x / 2 ^ 64), pa := 0, watch := .flying }

/-- An entry is malformed (R173). -/
def waitEntryBad (block i : Nat) : Bool :=
  let x := block / 2 ^ (128 * i) % 2 ^ 128
  let e := parseWait block i
  let addr := x % 2 ^ 56
  let value := x / 2 ^ 64
  let common := (i != 0 && x.testBit 63) || (e.kind != 1 && e.size8) || (e.kind != 1 && e.kind != 4 && e.cmp != 0) || decide (5 < e.cmp)
  common || (match e.kind with
    | 0 => addr != 0 || value != 0
    | 1 => false
    | 2 => false
    | 3 => decide (2 ^ 32 ≤ addr) || value != 0
    | 4 => decide (8 ≤ addr)
    | 5 => decide (8 ≤ addr) || value != 0
    | _ => true)

/-- The wait block is malformed (R173). -/
def waitBad (block : Nat) : Bool :=
  (List.range 4).all (fun i => (parseWait block i).kind == 0) || (List.range 4).any (waitEntryBad block)

/-- Check the word of an entry of kind 1 or 2 (R174); a word of a peer that gives no answer reads as poisoned (R384). DEDUCED, log 20. -/
def waitAccess (s : State) (g : Group) (e : WaitEntry) : Except Fail Nat :=
  let n := if e.kind = 2 ∨ e.size8 then 8 else 4
  match accessVa s g .feRead n n e.addr with
  | .error f => .error f
  | .ok pa => if (e.kind = 1 ∧ s.poisoned pa n) ∨ !peerAnswers s pa then .error ⟨.poisoned, 0, e.addr⟩ else .ok pa

/-- Install the monitors of a blocked WAIT (R174, R256, R259). -/
def installWatches (g : Group) (es : List WaitEntry) (s : State) : List WaitEntry × State :=
  es.zipIdx.foldl (fun (acc : List WaitEntry × State) x =>
    if x.1.ofMemory then
      let out := holdWaiter g.launch x.1.pa (waitRecord g x.2 x.1) acc.2
      (acc.1 ++ [{ x.1 with watch := out.2.getD (.polled (s.time + 256 * refTick)) }], out.1)
    else (acc.1 ++ [x.1], acc.2)) ([], s)

/-- WAIT with its entries read and checked (R175). Its words are read at their homes, after the threads' own accesses to them (R267). One that would
block in a handler raises handler_block. DEDUCED, log 113. -/
def waitFor (es : List WaitEntry) (any : Bool) (t : Word) (d : BitVec 7) (c : Ctx) (s : State) : Res :=
  let used := es.any WaitEntry.ofMemory
  let finish := fun (r : Word) => Res.ok (c.write [wG d r] (waitReads c.site.gid c.core c.mask es s))
  let words := (es.filter WaitEntry.ofMemory).flatMap (fun e => c.lanes.map (fun l => (l, e.pa - e.pa % 8)))
  if used && (!c.mayAcquire s || spillWaits s c.site.gid c.g words) then .wait
  else
    match waitResult s c.g es any with
    | some r => finish r
    | none =>
      if t = 0#32 then finish 0xFFFFFFFF#32
      else if c.g.handler then c.cause .handlerBlock 0 0#64
      else
        let out := installWatches c.g es s
        let deadline := if t = 0xFFFFFFFF#32 then none else some (s.time + t.toNat * refTick)
        let id := out.2.uid
        .ok { out.2.modGroup c.site.gid (fun g => g.block id c.mask c.site.pc c.site.next (.wait out.1 any deadline d.toNat)) with uid := id + 1 }

/-- WAIT (R172 to R175). -/
def execWait (st : BitVec 2) (d a b : BitVec 7) (s : State) : Host.Outcome State Fault Refusal :=
  issue (.wait st d a b) none (fun c s =>
    match localBlock s c (c.gv a).toNat 64 with
    | .error f => c.watchBlock s (c.gv a).toNat (c.raise f)
    | .ok x =>
      let block := leNat (localBytes s x 64)
      -- a condition of kind 5 needs a Loom launch (R292)
      if (c.launch s).ttab = 0 ∧ (List.range 4).any (fun i => (parseWait block i).kind == 5) then c.illegal 8
      else if waitBad block then c.illegal 10
      else c.watchBlock s (c.gv a).toNat <|
        let es := (List.range 4).map (parseWait block)
        let xs := es.zipIdx.map (fun e => (e.2, if e.1.ofMemory then waitAccess s c.g e.1 else .ok 0))
        let deferred := es.any (fun e => e.kind == 3 && s.cmds.any (fun k =>
          k.2.team == c.g.team && k.2.state == 4 && k.2.ticket == e.addr.extractLsb' 0 32))
        let fails := errorsOf xs ++ (if deferred then [(0, (⟨.txForbidden, 0, 0#64⟩ : Fail))] else [])
        match firstLeast (fun e => e.2.why.rank) fails with
        | some f => c.raise f.2
        | none =>
          let es := es.zipIdx.map (fun e => { e.1 with pa := ((xs.getD e.2 (0, .ok 0)).2 |> okPa) })
          waitFor es (block.testBit 63) (c.gv b) d c s) s

/-! ### YIELD (R25, R176) -/

/-- YIELD (R176). -/
def execYield (st : BitVec 2) (s : State) : Host.Outcome State Fault Refusal :=
  issue (.yield st) none (fun c s =>
    if c.g.handler then c.cause .handlerBlock 0 0#64
    else .ok { s.modGroup c.site.gid (fun g => g.block s.uid c.mask c.site.pc c.site.next .yield) with uid := s.uid + 1 }) s

end Sys2Proof.Machine
end

