-- ==== Sys2Proof/Machine/Power.lean ====
section
/-! DEFINITION. Clocks, current and heat (spec/20 R366 to R376): the Smithy's writes, the floors of droop, current and heat, the safe table
and the guard band. An event whose conditions do not hold leaves the state as it is. -/

namespace Sys2Proof.Machine

/-- CLKCTL (R366, R368). -/
def execClkctl (by_ : Agent) (cluster : Nat) (v : Word) (s : State) : Host.Outcome State Fault Refusal :=
  .next (if powerWriter s by_ && decide (cluster < 192) then writeClkctl cluster v s else s)

/-- CLOCK_CHANGE_APPLY (R369): the pass count, front-end clock and ratio that R369 and R374 give come into force, between instructions. -/
def execClockChangeApply (cluster : Nat) (s : State) : Host.Outcome State Fault Refusal :=
  .next (if cluster < 192 then applyClocks cluster s else s)

/-- DROOP_DETECT (R371): DRPEV and DROOP are set, and the 10 µs start again. -/
def execDroopDetect (cluster : Nat) (s : State) : Host.Outcome State Fault Refusal :=
  .next (if cluster < 192 then s.modCluster cluster (fun c => { c with droop := some s.time, drpev := true }) else s)

/-- DROOP_FLOOR_RELEASE (R371): 10 µs after the last droop. -/
def execDroopFloorRelease (cluster : Nat) (s : State) : Host.Outcome State Fault Refusal :=
  .next (match (s.cluster cluster).droop with
    | some t => if t + 10000 ≤ s.time then s.modCluster cluster (fun c => { c with droop := none }) else s
    | none => s)

/-- The current floor at the end of 1 µs interval number `now`, from its average in units of CLIMIT, once for each interval (R372). DESIGN CHOICE, log 141. -/
def Cluster.interval (c : Cluster) (now average : Nat) : Cluster :=
  if now ≤ c.curInterval then c else
  let c := { c with curInterval := now, below := if c.curInterval + 1 = now then c.below else 0 }
  let limit := bitsAt c.clkctl 16 8
  if limit = 0 then c
  else if limit < average then { c with cfloor := min 2 (c.cfloor + 1), below := 0 }
  else if 10 * average < 9 * limit then
    (if c.below + 1 = 10 then { c with cfloor := c.cfloor - 1, below := 0 } else { c with below := c.below + 1 })
  else { c with below := 0 }

/-- CURRENT_INTERVAL (R372): a 1 µs interval of device time has ended. -/
def execCurrentInterval (cluster average : Nat) (s : State) : Host.Outcome State Fault Refusal :=
  .next (if cluster < 192 then s.modCluster cluster (fun c => c.interval (s.time / 1000) average) else s)

/-- The thermal level at a temperature (R373). -/
def thermalLevel (level celsius : Nat) : Nat :=
  if 115 ≤ celsius then 2 else if celsius < 100 then 0 else if 105 ≤ celsius then max level 1 else level

/-- THERMAL_LEVEL_CHANGE (R373). -/
def execThermalLevelChange (cluster celsius : Nat) (s : State) : Host.Outcome State Fault Refusal :=
  .next (if cluster < 192 then s.modCluster cluster (fun c => { c with thermal := thermalLevel c.thermal celsius }) else s)

/-- SMHB (R374). -/
def execSmhb (by_ : Agent) (die : Nat) (v : Word) (s : State) : Host.Outcome State Fault Refusal :=
  .next (if powerWriter s by_ && decide (die < 4) then writeSmhb die v s else s)

/-- SMCTL (R374). -/
def execSmctl (by_ : Agent) (die : Nat) (v : Word) (s : State) : Host.Outcome State Fault Refusal :=
  .next (if powerWriter s by_ && decide (die < 4) then writeSmctl die v s else s)

/-- The watchdog of a die runs out (R374): 10 ms after the last write to SMHB, from the end of stage B on. -/
def expireWatchdog (die : Nat) (s : State) : State :=
  if s.boot.stage = 3 ∧ (s.die die).expired = false ∧ (s.die die).smhbTime + 10000000 ≤ s.time then
    (beginSafe die s).modDie die (fun d => { d with expired := true })
  else s

/-- The watchdogs of every die. -/
def expireWatchdogs (s : State) : State := [0, 1, 2, 3].foldl (fun s d => expireWatchdog d s) s

/-- WATCHDOG_EXPIRY (R374). -/
def execWatchdogExpiry (die : Nat) (s : State) : Host.Outcome State Fault Refusal := .next (if die < 4 then expireWatchdog die s else s)

/-- RAIL_STEP_UP (R375): the step that a core asked for is complete. DESIGN CHOICE, log 123. -/
def execRailStepUp (cluster : Nat) (s : State) : Host.Outcome State Fault Refusal :=
  .next (if (s.cluster cluster).railreq then
    s.modCluster cluster (fun c => { c with railup := true, railreq := false, lastStep := s.time })
  else s)

/-- A granted step of a cluster has not been added. -/
def stepsRunning (s : State) (cluster : Nat) : Bool := s.looms.any (fun e => clusterOf e.2.core == cluster && !e.2.granted.isEmpty)

/-- GUARD_BAND_DOWN (R375): 50 µs after the cluster's last step. -/
def execGuardBandDown (cluster : Nat) (s : State) : Host.Outcome State Fault Refusal :=
  .next (let c := s.cluster cluster
    if c.railup && !stepsRunning s cluster && decide (c.lastStep + 50000 ≤ s.time) then
      s.modCluster cluster (fun c => { c with railup := false })
    else s)

/-- MIGREQ (R350, R376). -/
def execMigreq (by_ : Agent) (die : Nat) (v : Word) (s : State) : Host.Outcome State Fault Refusal :=
  .next (if powerWriter s by_ && decide (die < 4) then writeMigreq die v s else s)

end Sys2Proof.Machine
end

