-- ==== Sys2Proof/Machine/System.lean ====
section
/-! DEFINITION. Keys, device time and the task digest (spec/08 R198 to R201). -/

namespace Sys2Proof.Machine

/-- SETPK (R198). -/
def execSetpk (st : BitVec 2) (a b : BitVec 7) (s : State) : Host.Outcome State Fault Refusal :=
  issue (.setpk st a b) none (fun c s =>
    .ok (s.modGroup c.site.gid (fun g =>
      { g with keyperm := ((g.keyperm &&& ~~~(c.gp b)) ||| (c.gp a &&& c.gp b)) &&& (c.launch s).keymax }))) s

/-- GETPK (R199). -/
def execGetpk (st : BitVec 2) (d : BitVec 7) (e : BitVec 1) (s : State) : Host.Outcome State Fault Refusal :=
  issue (.getpk st d e) none (fun c s => .ok (c.write (wG64 d (if e = 0#1 then c.g.keyperm else (c.launch s).keymax)) s)) s

/-- RDTIME (R200). -/
def execRdtime (st : BitVec 2) (d : BitVec 7) (s : State) : Host.Outcome State Fault Refusal :=
  issue (.rdtime st d) none (fun c s => .ok (c.write (wG64 d (BitVec.ofNat 64 s.time)) s)) s

/-- DIGEST (R201): 0 outside a deterministic launch. -/
def execDigest (st : BitVec 2) (d : BitVec 7) (s : State) : Host.Outcome State Fault Refusal :=
  issue (.digest st d) none (fun c s => .ok (c.write (wG64 d (if (c.launch s).det then (s.team c.g.team).digest else 0#64)) s)) s

/-- DIGEST.fold (R201). -/
def execDigestFold (st : BitVec 2) (d a : BitVec 7) (s : State) : Host.Outcome State Fault Refusal :=
  issue (.digestFold st d a) none (fun c s =>
    let v := (s.team c.g.team).digest + genF (c.gp a)
    .ok (if (c.launch s).det then c.write (wG64 d v) (s.modTeam c.g.team (fun t => { t with digest := v }))
      else c.write (wG64 d 0#64) s)) s

end Sys2Proof.Machine
end

