-- ==== Sys2Proof/Machine/UltraEthernet.lean ====
section
/-! DEFINITION. The Ultra Ethernet engine (spec/22 R385 to R387): its cards, the packets that reach it, and how a card completes. What the
UEC transport itself does on the fabric lies outside the device; a card's outcome there and the packets that arrive are arguments of
the events. -/

namespace Sys2Proof.Machine

/-! ### Fields of a card (R386) -/

abbrev Card := BitVec 1024
def ueOp (c : Card) : Nat := bitsAt c 0 3
def ueDeliv (c : Card) : Nat := bitsAt c 3 2
def ueEp (c : Card) : Nat := bitsAt c 64 32
def ueLaddr (c : Card) : Nat := bitsAt c 128 64
def ueLen (c : Card) : Nat := bitsAt c 192 32
def ueTag (c : Card) : DWord := c.extractLsb' 256 64
def ueCompw (c : Card) : Nat := bitsAt c 448 64
def ueCompv (c : Card) : DWord := c.extractLsb' 512 64

/-- The card posts a receive. -/
def ueReceives (c : Card) : Bool := ueOp c == 4 || ueOp c == 5

/-- A malformed card: a reserved OP or DELIV, a reserved bit, a length out of range, a misaligned completion word, or COMPV bit 63. DEDUCED, log 70. -/
def ueBad (c : Card) : Bool :=
  decide (5 < ueOp c) || ueDeliv c == 3 || bitsAt c 5 3 != 0 || bitsAt c 16 48 != 0 || bitsAt c 96 32 != 0 || ueLen c == 0
    || decide (2 ^ 31 < ueLen c) || bitsAt c 224 32 != 0 || bitsAt c 352 32 != 0 || ueCompw c % 8 != 0 || c.getLsbD 575
    || bitsAt c 576 448 != 0

/-- The card's 128 bytes, through the posting launch's extents. -/
def ueCard (s : State) (l : Launch) (va : Nat) : Card := BitVec.ofNat 1024 (readVa s l va 128)

/-- PA of an endpoint's entry in its context's table (R378, R385). -/
def endpointPa (s : State) (l : Launch) (ep : Nat) : Nat := s.read (l.ctx + 0x38) 8 + 32 * ep

/-- The endpoint of a card is valid in its context's table (R378, R385). -/
def endpointValid (s : State) (l : Launch) (ep : Nat) : Bool :=
  s.read (l.ctx + 0x38) 8 != 0 && s.byte (endpointPa s l ep + 0x14) &&& 1#8 == 1#8

/-- The ports that a card may be sprayed over: 0 means all eight. -/
def uePorts (c : Card) : Nat := if bitsAt c 8 8 = 0 then 0xFF else bitsAt c 8 8
def ueRkey (c : Card) : Word := c.extractLsb' 320 32
def ueRoff (c : Card) : DWord := c.extractLsb' 384 64

/-- The pieces of the local buffer, or none where a check fails: a send or put reads it, a get or receive writes it (R182, R387). -/
def ueBuffer (s : State) (l : Launch) (c : Card) : Option (List Seg) :=
  match checkRange s l l.keymax (if ueOp c ≤ 2 then .load else .store) (ueLaddr c) (ueLen c) with
  | .ok ps => some ps
  | .error _ => none

/-- PA of the completion word, if it may be written. -/
def ueCompletion (s : State) (l : Launch) (c : Card) : Option Nat :=
  if ueCompw c % 8 ≠ 0 then none
  else
    match checkRange s l l.keymax .store (ueCompw c) 8 with
    | .ok (p :: _) => some p.pa
    | _ => none

/-! ### Completion (R387) -/

/-- The completion word is written and set full (R255, R387). -/
def ueWriteWord (launch pa : Nat) (v : DWord) (s : State) : State :=
  if peerAnswers s pa then writeWord (fun pa bytes s => writeOnchip .launch (some (s.launch launch).ctxid) pa bytes s) pa v s
  else dropToPeer launch pa s

/-- 2^63 OR a status. -/
def ueStatus (n : Nat) : DWord := BitVec.ofNat 64 (2 ^ 63 + n)

/-! ### Taking a card (R387) -/

/-- The bytes of some pieces, read at their homes. The spec does not say what the engine sends for a byte that is poison, or whose peer gives no answer: a
free value. DESIGN CHOICE, log 130. -/
def segBytes (s : State) (ps : List Seg) : List Byte :=
  (ps.flatMap (fun p => (List.range p.len).map (fun k => p.pa + k))).zipIdx.map (fun x =>
    if s.unreadable x.1 1 then Config.engineByte (s.free + x.2) else homeByte s x.1)

/-- What a send, put or get sends to the endpoint that its card names: a tagged send its tag, a put or get its remote key and offset, a get no data. -/
def ueRequest (s : State) (l : Launch) (n : Nat) (c : Card) (buf : List Seg) : Packet :=
  let op := ueOp c
  let e := endpointPa s l (ueEp c)
  { card := n, op := op, ports := uePorts c, address := BitVec.ofNat 128 (s.read e 16), job := s.read (e + 16) 4, deliv := ueDeliv c,
    tag := if op = 1 then ueTag c else 0#64, rkey := if op = 2 ∨ op = 3 then ueRkey c else 0#32, roff := if op = 2 ∨ op = 3 then ueRoff c else 0#64,
    len := ueLen c, data := if op ≤ 2 then segBytes s buf else [] }

/-- The endpoint that a card names in its context's table: the fabric address and the job ID. -/
def ueEndpoint (s : State) (l : Launch) (c : Card) : Nat := s.read (endpointPa s l (ueEp c)) 20

/-- Two cards have an order of their own (R387): ROD messages to one endpoint, or receives of one kind. -/
def ueOrdered (s : State) (l m : Launch) (c d : Card) : Bool :=
  if ueReceives c then ueOp d == ueOp c
  else !ueReceives d && ueDeliv c == 1 && ueDeliv d == 1 && ueEndpoint s l c == ueEndpoint s m d

/-- A card that was posted earlier, in whatever queue, comes before this one: ROD messages to one endpoint are delivered, and receives of each kind are
matched, in the order they were posted (R387). DEDUCED, log 115. -/
def ueWaits (s : State) (order : Nat) (l : Launch) (c : Card) : Bool :=
  s.engine.queues.any (fun q => q.any (fun e => decide (e.order < order)
    && ueOrdered s l (s.launch e.launch) c (ueCard s (s.launch e.launch) e.card.toNat)))

/-- The engine takes the card at the head of a queue, if it is one of the operations named and its turn: it checks it, and it sends its request or posts
it. A card that fails completes at once, where its completion word may be written. DEDUCED, log 71. -/
def takeEngine (queue : Nat) (ops : List Nat) (s : State) : State :=
  match s.engine.queues.getD queue [] with
  | [] => s
  | { order := order, launch := launch, card := va } :: rest =>
    let l := s.launch launch
    let c := ueCard s l va.toNat
    if !ops.contains (ueOp c) || ueWaits s order l c then s
    else
      let s1 : State := { s with free := s.free + 1, engine := { s.engine with queues := listModify s.engine.queues queue (fun _ => rest) } }
      let fail := fun (n : Nat) => match ueCompletion s l c with
        | some pa => ueWriteWord launch pa (ueStatus n) s1
        | none => s1
      if ueBad c then fail 1
      else
        match ueBuffer s l c, ueCompletion s l c with
        | some buf, some pa =>
          if !ueReceives c && !endpointValid s l (ueEp c) then fail 3
          else
            let k : UeCard := { queue := queue, launch := launch, card := c, buf := buf, compw := pa, received := 0, truncated := false,
                                filled := false, complete := 0, hostAck := false, peerAck := false }
            let sent := if ueReceives c then s1.engine.sent else ueRequest s l s.uid c buf :: s1.engine.sent
            { s1 with uid := s.uid + 1, free := s1.free + ueLen c, engine := { s1.engine with cards := Tab.put s1.engine.cards s.uid k, sent := sent } }
        | _, _ => fail 2

/-- UE_SEND (R386, R387); a card whose OP is reserved is taken here and found malformed. -/
def execUeSend (queue : Nat) (s : State) : Host.Outcome State Fault Refusal := .next (takeEngine queue [0, 6, 7] s)
/-- UE_TAGGED_SEND (R386, R387). -/
def execUeTaggedSend (queue : Nat) (s : State) : Host.Outcome State Fault Refusal := .next (takeEngine queue [1] s)
/-- UE_PUT (R386, R387). -/
def execUePut (queue : Nat) (s : State) : Host.Outcome State Fault Refusal := .next (takeEngine queue [2] s)
/-- UE_GET (R386, R387). -/
def execUeGet (queue : Nat) (s : State) : Host.Outcome State Fault Refusal := .next (takeEngine queue [3] s)
/-- UE_POST_TAGGED_RECEIVE (R386, R387). -/
def execUePostTaggedReceive (queue : Nat) (s : State) : Host.Outcome State Fault Refusal := .next (takeEngine queue [4] s)
/-- UE_POST_RECEIVE (R386, R387). -/
def execUePostReceive (queue : Nat) (s : State) : Host.Outcome State Fault Refusal := .next (takeEngine queue [5] s)

/-! ### Packets that arrive (R385, R387) -/

/-- One word of a payload is performed. -/
def engineWord (launch pa : Nat) (bytes : List Byte) (s : State) : State :=
  match aperture pa with
  | 2 => writeOnchip .launch (some (s.launch launch).ctxid) pa bytes s
  | 3 => s.poke pa bytes
  | _ => if peerAnswers s pa then wake pa (s.poke pa bytes) else dropToPeer launch pa s

/-- Payload bytes go to a card's buffer from an offset on, and what its completion waits for is noted. -/
def fillBuffer (n : Nat) (k : UeCard) (off : Nat) (bytes : List Byte) (s : State) : State :=
  let places := (k.buf.foldl (fun (acc : Nat × List (Nat × List Byte)) p =>
    let lo := max off acc.1
    let hi := min (off + bytes.length) (acc.1 + p.len)
    (acc.1 + p.len, if lo < hi then acc.2 ++ cutWords (p.pa + (lo - acc.1)) ((bytes.drop (lo - off)).take (hi - lo)) else acc.2)) (0, [])).2
  places.foldl (fun s w =>
    let done := writeCompletion s w.1
    let host := aperture w.1 == 3
    let peer := aperture w.1 == 1 && peerAnswers s w.1
    (engineWord k.launch w.1 w.2 s).modCard n (fun c =>
      { c with complete := max c.complete done, hostAck := c.hostAck || host, peerAck := c.peerAck || peer })) s

/-- A message meets the receive posted first that matches it: its bytes fill the buffer as far as they fit. The
endpoint of a receive is not asked: DESIGN CHOICE, log 150. -/
def receiveMessage (tag : Option DWord) (data : List Byte) (s : State) : State :=
  match s.engine.cards.find? (fun e => !e.2.filled && (match tag with
      | some t => ueOp e.2.card == 4 && ueTag e.2.card == t
      | none => ueOp e.2.card == 5)) with
  | none => s
  | some (n, k) =>
    let fits := data.take (ueLen k.card)
    (fillBuffer n k 0 fits s).modCard n (fun c =>
      { c with received := fits.length, truncated := decide (ueLen k.card < data.length), filled := true })

/-- UE_PACKET_ARRIVE (R385, R387). A message that no posted receive matches leaves nothing behind. DESIGN CHOICE, log 9. -/
def execUePacketArrive (packet : UePacket) (s : State) : Host.Outcome State Fault Refusal :=
  .next (match packet with
    | .message tag data => receiveMessage tag data s
    | .rmaPut rkey roff data =>
      (match Config.remoteWindow rkey roff with
      | some pa => (cutWords pa data).foldl (fun s w => if aperture w.1 = 0 && s.populated w.1 then wake w.1 (s.poke w.1 w.2) else s) s
      | none => s)
    | .rmaGet rkey roff n =>
      (match Config.remoteWindow rkey roff with
      | some pa =>
        let answer : Packet := { card := 0, op := 3, ports := 0xFF, address := 0#128, job := 0, deliv := 0, tag := 0#64, rkey := rkey, roff := roff,
                                 len := n, data := segBytes s [{ va := pa, pa := pa, len := n }] }
        { s with free := s.free + n, engine := { s.engine with sent := answer :: s.engine.sent } }
      | none => s)
    | .getData card data =>
      (match Tab.get? s.engine.cards card with
      | some k =>
        if ueOp k.card = 3 ∧ !k.filled then
          let fits := data.take (ueLen k.card - k.received)
          (fillBuffer card k k.received fits s).modCard card (fun c =>
            { c with received := c.received + fits.length, filled := decide (c.received + fits.length = ueLen k.card) })
        else s
      | none => s))

/-! ### Completing (R387) -/

/-- The value of a completion word, if the card can complete with an outcome: a send or put when the fabric has answered (under UUD, when its
data has been sent), a get when all its data has come, a receive when a message has filled it. -/
def ueValue (k : UeCard) (outcome : UeOutcome) : Option DWord :=
  let udp := ueDeliv k.card == 2
  let out := if udp && decide (ueOp k.card ≤ 2) then UeOutcome.done else outcome
  match out with
  | .transportFailure => some (ueStatus 3)
  | .remoteRefusal => some (ueStatus 4)
  | .done =>
    if ueReceives k.card then
      (if !k.filled then none else if k.truncated then some (ueStatus 5) else some (BitVec.ofNat 64 k.received))
    else if ueOp k.card = 3 then (if k.filled then some (ueCompv k.card) else none)
    else some (ueCompv k.card)

/-- UE_CARD_COMPLETE (R387): the completion word is written and set full, after the payload is performed and, as its release asks,
complete or acknowledged; the card's hold on its lease ends. -/
def execUeCardComplete (card : Nat) (outcome : UeOutcome) (s : State) : Host.Outcome State Fault Refusal :=
  .next (match Tab.get? s.engine.cards card with
    | none => s
    | some k =>
      let sys := aperture k.compw == 1 || aperture k.compw == 3
      match ueValue k outcome with
      | none => s
      | some v =>
        if decide (k.complete ≤ s.time) && (!sys || (!k.hostAck && !k.peerAck)) then
          ueWriteWord k.launch k.compw v { s with engine := { s.engine with cards := Tab.del s.engine.cards card } }
        else s)

end Sys2Proof.Machine
end

