-- ==== Sys2Proof/Machine/Dispatch.lean ====
section
/-! DEFINITION. The dispatch of every constructor of `Instr` to its meaning, in the order of spec/opcode_table.json. -/

namespace Sys2Proof.Machine

/-- The meaning of an instruction or event. DESIGN CHOICE, log 86. -/
def exec (i : Instr) (s : State) : Host.Outcome State Fault Refusal :=
  match i with
  | .iadd p0 p1 p2 p3 => Sys2Proof.Machine.execIadd p0 p1 p2 p3 s
  | .isub p0 p1 p2 p3 => Sys2Proof.Machine.execIsub p0 p1 p2 p3 s
  | .imul p0 p1 p2 p3 => Sys2Proof.Machine.execImul p0 p1 p2 p3 s
  | .imulhi p0 p1 p2 p3 => Sys2Proof.Machine.execImulhi p0 p1 p2 p3 s
  | .nmulhi p0 p1 p2 p3 => Sys2Proof.Machine.execNmulhi p0 p1 p2 p3 s
  | .imad p0 p1 p2 p3 => Sys2Proof.Machine.execImad p0 p1 p2 p3 s
  | .and p0 p1 p2 p3 => Sys2Proof.Machine.execAnd p0 p1 p2 p3 s
  | .or p0 p1 p2 p3 => Sys2Proof.Machine.execOr p0 p1 p2 p3 s
  | .xor p0 p1 p2 p3 => Sys2Proof.Machine.execXor p0 p1 p2 p3 s
  | .andn p0 p1 p2 p3 => Sys2Proof.Machine.execAndn p0 p1 p2 p3 s
  | .shl p0 p1 p2 p3 => Sys2Proof.Machine.execShl p0 p1 p2 p3 s
  | .shr p0 p1 p2 p3 => Sys2Proof.Machine.execShr p0 p1 p2 p3 s
  | .sar p0 p1 p2 p3 => Sys2Proof.Machine.execSar p0 p1 p2 p3 s
  | .rotl p0 p1 p2 p3 => Sys2Proof.Machine.execRotl p0 p1 p2 p3 s
  | .imin p0 p1 p2 p3 => Sys2Proof.Machine.execImin p0 p1 p2 p3 s
  | .imax p0 p1 p2 p3 => Sys2Proof.Machine.execImax p0 p1 p2 p3 s
  | .nmin p0 p1 p2 p3 => Sys2Proof.Machine.execNmin p0 p1 p2 p3 s
  | .nmax p0 p1 p2 p3 => Sys2Proof.Machine.execNmax p0 p1 p2 p3 s
  | .islt p0 p1 p2 p3 => Sys2Proof.Machine.execIslt p0 p1 p2 p3 s
  | .isle p0 p1 p2 p3 => Sys2Proof.Machine.execIsle p0 p1 p2 p3 s
  | .nslt p0 p1 p2 p3 => Sys2Proof.Machine.execNslt p0 p1 p2 p3 s
  | .nsle p0 p1 p2 p3 => Sys2Proof.Machine.execNsle p0 p1 p2 p3 s
  | .ieq p0 p1 p2 p3 => Sys2Proof.Machine.execIeq p0 p1 p2 p3 s
  | .ine p0 p1 p2 p3 => Sys2Proof.Machine.execIne p0 p1 p2 p3 s
  | .sel p0 p1 p2 p3 => Sys2Proof.Machine.execSel p0 p1 p2 p3 s
  | .fadd p0 p1 p2 p3 => Sys2Proof.Machine.execFadd p0 p1 p2 p3 s
  | .fsub p0 p1 p2 p3 => Sys2Proof.Machine.execFsub p0 p1 p2 p3 s
  | .fmul p0 p1 p2 p3 => Sys2Proof.Machine.execFmul p0 p1 p2 p3 s
  | .ffma p0 p1 p2 p3 => Sys2Proof.Machine.execFfma p0 p1 p2 p3 s
  | .fmin p0 p1 p2 p3 => Sys2Proof.Machine.execFmin p0 p1 p2 p3 s
  | .fmax p0 p1 p2 p3 => Sys2Proof.Machine.execFmax p0 p1 p2 p3 s
  | .fslt p0 p1 p2 p3 => Sys2Proof.Machine.execFslt p0 p1 p2 p3 s
  | .fsle p0 p1 p2 p3 => Sys2Proof.Machine.execFsle p0 p1 p2 p3 s
  | .fseq p0 p1 p2 p3 => Sys2Proof.Machine.execFseq p0 p1 p2 p3 s
  | .fsne p0 p1 p2 p3 => Sys2Proof.Machine.execFsne p0 p1 p2 p3 s
  | .fsun p0 p1 p2 p3 => Sys2Proof.Machine.execFsun p0 p1 p2 p3 s
  | .fldexp p0 p1 p2 p3 => Sys2Proof.Machine.execFldexp p0 p1 p2 p3 s
  | .badd2 p0 p1 p2 p3 => Sys2Proof.Machine.execBadd2 p0 p1 p2 p3 s
  | .bmul2 p0 p1 p2 p3 => Sys2Proof.Machine.execBmul2 p0 p1 p2 p3 s
  | .bfma2 p0 p1 p2 p3 => Sys2Proof.Machine.execBfma2 p0 p1 p2 p3 s
  | .bdot2 p0 p1 p2 p3 => Sys2Proof.Machine.execBdot2 p0 p1 p2 p3 s
  | .iadd64 p0 p1 p2 p3 => Sys2Proof.Machine.execIadd64 p0 p1 p2 p3 s
  | .isub64 p0 p1 p2 p3 => Sys2Proof.Machine.execIsub64 p0 p1 p2 p3 s
  | .imadw p0 p1 p2 p3 => Sys2Proof.Machine.execImadw p0 p1 p2 p3 s
  | .nmadw p0 p1 p2 p3 => Sys2Proof.Machine.execNmadw p0 p1 p2 p3 s
  | .shl64 p0 p1 p2 p3 => Sys2Proof.Machine.execShl64 p0 p1 p2 p3 s
  | .shr64 p0 p1 p2 p3 => Sys2Proof.Machine.execShr64 p0 p1 p2 p3 s
  | .shfl p0 p1 p2 p3 => Sys2Proof.Machine.execShfl p0 p1 p2 p3 s
  | .shflx p0 p1 p2 p3 => Sys2Proof.Machine.execShflx p0 p1 p2 p3 s
  | .shflu p0 p1 p2 p3 => Sys2Proof.Machine.execShflu p0 p1 p2 p3 s
  | .shfld p0 p1 p2 p3 => Sys2Proof.Machine.execShfld p0 p1 p2 p3 s
  | .iaddi p0 p1 p2 p3 => Sys2Proof.Machine.execIaddi p0 p1 p2 p3 s
  | .andi p0 p1 p2 p3 => Sys2Proof.Machine.execAndi p0 p1 p2 p3 s
  | .ori p0 p1 p2 p3 => Sys2Proof.Machine.execOri p0 p1 p2 p3 s
  | .xori p0 p1 p2 p3 => Sys2Proof.Machine.execXori p0 p1 p2 p3 s
  | .shli p0 p1 p2 p3 => Sys2Proof.Machine.execShli p0 p1 p2 p3 s
  | .shri p0 p1 p2 p3 => Sys2Proof.Machine.execShri p0 p1 p2 p3 s
  | .sari p0 p1 p2 p3 => Sys2Proof.Machine.execSari p0 p1 p2 p3 s
  | .rotli p0 p1 p2 p3 => Sys2Proof.Machine.execRotli p0 p1 p2 p3 s
  | .islti p0 p1 p2 p3 => Sys2Proof.Machine.execIslti p0 p1 p2 p3 s
  | .ieqi p0 p1 p2 p3 => Sys2Proof.Machine.execIeqi p0 p1 p2 p3 s
  | .shl64i p0 p1 p2 p3 => Sys2Proof.Machine.execShl64i p0 p1 p2 p3 s
  | .shr64i p0 p1 p2 p3 => Sys2Proof.Machine.execShr64i p0 p1 p2 p3 s
  | .add64i p0 p1 p2 p3 => Sys2Proof.Machine.execAdd64i p0 p1 p2 p3 s
  | .not p0 p1 p2 => Sys2Proof.Machine.execNot p0 p1 p2 s
  | .neg p0 p1 p2 => Sys2Proof.Machine.execNeg p0 p1 p2 s
  | .abs p0 p1 p2 => Sys2Proof.Machine.execAbs p0 p1 p2 s
  | .clz p0 p1 p2 => Sys2Proof.Machine.execClz p0 p1 p2 s
  | .popc p0 p1 p2 => Sys2Proof.Machine.execPopc p0 p1 p2 s
  | .brev p0 p1 p2 => Sys2Proof.Machine.execBrev p0 p1 p2 s
  | .sext8 p0 p1 p2 => Sys2Proof.Machine.execSext8 p0 p1 p2 s
  | .sext16 p0 p1 p2 => Sys2Proof.Machine.execSext16 p0 p1 p2 s
  | .zext8 p0 p1 p2 => Sys2Proof.Machine.execZext8 p0 p1 p2 s
  | .zext16 p0 p1 p2 => Sys2Proof.Machine.execZext16 p0 p1 p2 s
  | .fneg p0 p1 p2 => Sys2Proof.Machine.execFneg p0 p1 p2 s
  | .fabs p0 p1 p2 => Sys2Proof.Machine.execFabs p0 p1 p2 s
  | .frcp p0 p1 p2 => Sys2Proof.Machine.execFrcp p0 p1 p2 s
  | .frsq p0 p1 p2 => Sys2Proof.Machine.execFrsq p0 p1 p2 s
  | .fsqrt p0 p1 p2 => Sys2Proof.Machine.execFsqrt p0 p1 p2 s
  | .fexp2 p0 p1 p2 => Sys2Proof.Machine.execFexp2 p0 p1 p2 s
  | .flog2 p0 p1 p2 => Sys2Proof.Machine.execFlog2 p0 p1 p2 s
  | .fsin p0 p1 p2 => Sys2Proof.Machine.execFsin p0 p1 p2 s
  | .fcos p0 p1 p2 => Sys2Proof.Machine.execFcos p0 p1 p2 s
  | .ftanh p0 p1 p2 => Sys2Proof.Machine.execFtanh p0 p1 p2 s
  | .ferf p0 p1 p2 => Sys2Proof.Machine.execFerf p0 p1 p2 s
  | .ffloor p0 p1 p2 => Sys2Proof.Machine.execFfloor p0 p1 p2 s
  | .fceil p0 p1 p2 => Sys2Proof.Machine.execFceil p0 p1 p2 s
  | .ftrunc p0 p1 p2 => Sys2Proof.Machine.execFtrunc p0 p1 p2 s
  | .frint p0 p1 p2 => Sys2Proof.Machine.execFrint p0 p1 p2 s
  | .cvtf p0 p1 p2 p3 p4 => Sys2Proof.Machine.execCvtf p0 p1 p2 p3 p4 s
  | .cvtt p0 p1 p2 p3 => Sys2Proof.Machine.execCvtt p0 p1 p2 p3 s
  | .cvti p0 p1 p2 p3 p4 => Sys2Proof.Machine.execCvti p0 p1 p2 p3 p4 s
  | .pack p0 p1 p2 p3 p4 => Sys2Proof.Machine.execPack p0 p1 p2 p3 p4 s
  | .unpk p0 p1 p2 p3 p4 => Sys2Proof.Machine.execUnpk p0 p1 p2 p3 p4 s
  | .qcvt p0 p1 p2 p3 p4 => Sys2Proof.Machine.execQcvt p0 p1 p2 p3 p4 s
  | .bmaxa p0 p1 p2 p3 => Sys2Proof.Machine.execBmaxa p0 p1 p2 p3 s
  | .scalef p0 p1 p2 p3 => Sys2Proof.Machine.execScalef p0 p1 p2 p3 s
  | .rand p0 p1 p2 p3 p4 => Sys2Proof.Machine.execRand p0 p1 p2 p3 p4 s
  | .movi p0 p1 p2 => Sys2Proof.Machine.execMovi p0 p1 p2 s
  | .rds p0 p1 p2 => Sys2Proof.Machine.execRds p0 p1 p2 s
  | .ld p0 p1 p2 p3 p4 => Sys2Proof.Machine.execLd p0 p1 p2 p3 p4 s
  | .lds p0 p1 p2 p3 p4 => Sys2Proof.Machine.execLds p0 p1 p2 p3 p4 s
  | .st p0 p1 p2 p3 p4 => Sys2Proof.Machine.execSt p0 p1 p2 p3 p4 s
  | .ldk p0 p1 p2 p3 p4 => Sys2Proof.Machine.execLdk p0 p1 p2 p3 p4 s
  | .ldga p0 p1 p2 p3 p4 => Sys2Proof.Machine.execLdga p0 p1 p2 p3 p4 s
  | .pref p0 p1 p2 p3 => Sys2Proof.Machine.execPref p0 p1 p2 p3 s
  | .ldx p0 p1 p2 p3 p4 => Sys2Proof.Machine.execLdx p0 p1 p2 p3 p4 s
  | .stx p0 p1 p2 p3 p4 => Sys2Proof.Machine.execStx p0 p1 p2 p3 p4 s
  | .ldl p0 p1 p2 p3 p4 => Sys2Proof.Machine.execLdl p0 p1 p2 p3 p4 s
  | .stl p0 p1 p2 p3 p4 => Sys2Proof.Machine.execStl p0 p1 p2 p3 p4 s
  | .ldw p0 p1 p2 p3 => Sys2Proof.Machine.execLdw p0 p1 p2 p3 s
  | .ldc p0 p1 p2 p3 => Sys2Proof.Machine.execLdc p0 p1 p2 p3 s
  | .stf p0 p1 p2 p3 => Sys2Proof.Machine.execStf p0 p1 p2 p3 s
  | .stfs p0 p1 p2 p3 => Sys2Proof.Machine.execStfs p0 p1 p2 p3 s
  | .feset p0 p1 p2 p3 => Sys2Proof.Machine.execFeset p0 p1 p2 p3 s
  | .feget p0 p1 p2 p3 => Sys2Proof.Machine.execFeget p0 p1 p2 p3 s
  | .atadd p0 p1 p2 p3 p4 => Sys2Proof.Machine.execAtadd p0 p1 p2 p3 p4 s
  | .atmin p0 p1 p2 p3 p4 => Sys2Proof.Machine.execAtmin p0 p1 p2 p3 p4 s
  | .atmax p0 p1 p2 p3 p4 => Sys2Proof.Machine.execAtmax p0 p1 p2 p3 p4 s
  | .atand p0 p1 p2 p3 p4 => Sys2Proof.Machine.execAtand p0 p1 p2 p3 p4 s
  | .ator p0 p1 p2 p3 p4 => Sys2Proof.Machine.execAtor p0 p1 p2 p3 p4 s
  | .atxor p0 p1 p2 p3 p4 => Sys2Proof.Machine.execAtxor p0 p1 p2 p3 p4 s
  | .atxch p0 p1 p2 p3 p4 => Sys2Proof.Machine.execAtxch p0 p1 p2 p3 p4 s
  | .atcas p0 p1 p2 p3 p4 => Sys2Proof.Machine.execAtcas p0 p1 p2 p3 p4 s
  | .redadd p0 p1 p2 p3 p4 => Sys2Proof.Machine.execRedadd p0 p1 p2 p3 p4 s
  | .redmin p0 p1 p2 p3 p4 => Sys2Proof.Machine.execRedmin p0 p1 p2 p3 p4 s
  | .redmax p0 p1 p2 p3 p4 => Sys2Proof.Machine.execRedmax p0 p1 p2 p3 p4 s
  | .redand p0 p1 p2 p3 p4 => Sys2Proof.Machine.execRedand p0 p1 p2 p3 p4 s
  | .redor p0 p1 p2 p3 p4 => Sys2Proof.Machine.execRedor p0 p1 p2 p3 p4 s
  | .redxor p0 p1 p2 p3 p4 => Sys2Proof.Machine.execRedxor p0 p1 p2 p3 p4 s
  | .append p0 p1 p2 p3 p4 => Sys2Proof.Machine.execAppend p0 p1 p2 p3 p4 s
  | .appendt p0 p1 p2 p3 p4 => Sys2Proof.Machine.execAppendt p0 p1 p2 p3 p4 s
  | .latadd p0 p1 p2 p3 p4 => Sys2Proof.Machine.execLatadd p0 p1 p2 p3 p4 s
  | .latmin p0 p1 p2 p3 p4 => Sys2Proof.Machine.execLatmin p0 p1 p2 p3 p4 s
  | .latmax p0 p1 p2 p3 p4 => Sys2Proof.Machine.execLatmax p0 p1 p2 p3 p4 s
  | .latcas p0 p1 p2 p3 p4 => Sys2Proof.Machine.execLatcas p0 p1 p2 p3 p4 s
  | .bra p0 p1 => Sys2Proof.Machine.execBra p0 p1 s
  | .bnz p0 p1 p2 => Sys2Proof.Machine.execBnz p0 p1 p2 s
  | .bz p0 p1 p2 => Sys2Proof.Machine.execBz p0 p1 p2 s
  | .call p0 p1 => Sys2Proof.Machine.execCall p0 p1 s
  | .callr p0 p1 => Sys2Proof.Machine.execCallr p0 p1 s
  | .ret p0 => Sys2Proof.Machine.execRet p0 s
  | .jmpr p0 p1 => Sys2Proof.Machine.execJmpr p0 p1 s
  | .meet p0 p1 => Sys2Proof.Machine.execMeet p0 p1 s
  | .exit p0 => Sys2Proof.Machine.execExit p0 s
  | .trapl p0 p1 => Sys2Proof.Machine.execTrapl p0 p1 s
  | .bkptl p0 p1 => Sys2Proof.Machine.execBkptl p0 p1 s
  | .nop p0 => Sys2Proof.Machine.execNop p0 s
  | .gadd p0 p1 p2 p3 => Sys2Proof.Machine.execGadd p0 p1 p2 p3 s
  | .gsub p0 p1 p2 p3 => Sys2Proof.Machine.execGsub p0 p1 p2 p3 s
  | .gmul p0 p1 p2 p3 => Sys2Proof.Machine.execGmul p0 p1 p2 p3 s
  | .gmulhi p0 p1 p2 p3 => Sys2Proof.Machine.execGmulhi p0 p1 p2 p3 s
  | .gnmulhi p0 p1 p2 p3 => Sys2Proof.Machine.execGnmulhi p0 p1 p2 p3 s
  | .gand p0 p1 p2 p3 => Sys2Proof.Machine.execGand p0 p1 p2 p3 s
  | .gor p0 p1 p2 p3 => Sys2Proof.Machine.execGor p0 p1 p2 p3 s
  | .gxor p0 p1 p2 p3 => Sys2Proof.Machine.execGxor p0 p1 p2 p3 s
  | .gshl p0 p1 p2 p3 => Sys2Proof.Machine.execGshl p0 p1 p2 p3 s
  | .gshr p0 p1 p2 p3 => Sys2Proof.Machine.execGshr p0 p1 p2 p3 s
  | .gsar p0 p1 p2 p3 => Sys2Proof.Machine.execGsar p0 p1 p2 p3 s
  | .gmin p0 p1 p2 p3 => Sys2Proof.Machine.execGmin p0 p1 p2 p3 s
  | .gmax p0 p1 p2 p3 => Sys2Proof.Machine.execGmax p0 p1 p2 p3 s
  | .gnmin p0 p1 p2 p3 => Sys2Proof.Machine.execGnmin p0 p1 p2 p3 s
  | .gnmax p0 p1 p2 p3 => Sys2Proof.Machine.execGnmax p0 p1 p2 p3 s
  | .gslt p0 p1 p2 p3 => Sys2Proof.Machine.execGslt p0 p1 p2 p3 s
  | .gsle p0 p1 p2 p3 => Sys2Proof.Machine.execGsle p0 p1 p2 p3 s
  | .gnslt p0 p1 p2 p3 => Sys2Proof.Machine.execGnslt p0 p1 p2 p3 s
  | .gnsle p0 p1 p2 p3 => Sys2Proof.Machine.execGnsle p0 p1 p2 p3 s
  | .geq p0 p1 p2 p3 => Sys2Proof.Machine.execGeq p0 p1 p2 p3 s
  | .gne p0 p1 p2 p3 => Sys2Proof.Machine.execGne p0 p1 p2 p3 s
  | .gsel p0 p1 p2 p3 => Sys2Proof.Machine.execGsel p0 p1 p2 p3 s
  | .gadd64 p0 p1 p2 p3 => Sys2Proof.Machine.execGadd64 p0 p1 p2 p3 s
  | .gsub64 p0 p1 p2 p3 => Sys2Proof.Machine.execGsub64 p0 p1 p2 p3 s
  | .gshl64 p0 p1 p2 p3 => Sys2Proof.Machine.execGshl64 p0 p1 p2 p3 s
  | .gshr64 p0 p1 p2 p3 => Sys2Proof.Machine.execGshr64 p0 p1 p2 p3 s
  | .gmadw p0 p1 p2 p3 => Sys2Proof.Machine.execGmadw p0 p1 p2 p3 s
  | .lballot p0 p1 p2 => Sys2Proof.Machine.execLballot p0 p1 p2 s
  | .lany p0 p1 p2 => Sys2Proof.Machine.execLany p0 p1 p2 s
  | .lall p0 p1 p2 => Sys2Proof.Machine.execLall p0 p1 p2 s
  | .lread p0 p1 p2 p3 => Sys2Proof.Machine.execLread p0 p1 p2 p3 s
  | .lwrite p0 p1 p2 p3 => Sys2Proof.Machine.execLwrite p0 p1 p2 p3 s
  | .lsum p0 p1 p2 => Sys2Proof.Machine.execLsum p0 p1 p2 s
  | .lfsum p0 p1 p2 => Sys2Proof.Machine.execLfsum p0 p1 p2 s
  | .lmax p0 p1 p2 => Sys2Proof.Machine.execLmax p0 p1 p2 s
  | .lmin p0 p1 p2 => Sys2Proof.Machine.execLmin p0 p1 p2 s
  | .lfmax p0 p1 p2 => Sys2Proof.Machine.execLfmax p0 p1 p2 s
  | .lpopc p0 p1 p2 => Sys2Proof.Machine.execLpopc p0 p1 p2 s
  | .lfirst p0 p1 p2 => Sys2Proof.Machine.execLfirst p0 p1 p2 s
  | .gfadd p0 p1 p2 p3 => Sys2Proof.Machine.execGfadd p0 p1 p2 p3 s
  | .gfmul p0 p1 p2 p3 => Sys2Proof.Machine.execGfmul p0 p1 p2 p3 s
  | .gffma p0 p1 p2 p3 => Sys2Proof.Machine.execGffma p0 p1 p2 p3 s
  | .gfmin p0 p1 p2 p3 => Sys2Proof.Machine.execGfmin p0 p1 p2 p3 s
  | .gfmax p0 p1 p2 p3 => Sys2Proof.Machine.execGfmax p0 p1 p2 p3 s
  | .gfslt p0 p1 p2 p3 => Sys2Proof.Machine.execGfslt p0 p1 p2 p3 s
  | .gmovi p0 p1 p2 => Sys2Proof.Machine.execGmovi p0 p1 p2 s
  | .gaddi p0 p1 p2 p3 => Sys2Proof.Machine.execGaddi p0 p1 p2 p3 s
  | .gandi p0 p1 p2 p3 => Sys2Proof.Machine.execGandi p0 p1 p2 p3 s
  | .gori p0 p1 p2 p3 => Sys2Proof.Machine.execGori p0 p1 p2 p3 s
  | .gshli p0 p1 p2 p3 => Sys2Proof.Machine.execGshli p0 p1 p2 p3 s
  | .gshri p0 p1 p2 p3 => Sys2Proof.Machine.execGshri p0 p1 p2 p3 s
  | .glui p0 p1 p2 => Sys2Proof.Machine.execGlui p0 p1 p2 s
  | .grds p0 p1 p2 => Sys2Proof.Machine.execGrds p0 p1 p2 s
  | .gwrs p0 p1 p2 => Sys2Proof.Machine.execGwrs p0 p1 p2 s
  | .ext p0 p1 p2 => Sys2Proof.Machine.execExt p0 p1 p2 s
  | .fence p0 p1 p2 p3 => Sys2Proof.Machine.execFence p0 p1 p2 p3 s
  | .barWait p0 p1 p2 p3 => Sys2Proof.Machine.execBarWait p0 p1 p2 p3 s
  | .barArrive p0 p1 p2 p3 => Sys2Proof.Machine.execBarArrive p0 p1 p2 p3 s
  | .wait p0 p1 p2 p3 => Sys2Proof.Machine.execWait p0 p1 p2 p3 s
  | .yield p0 => Sys2Proof.Machine.execYield p0 s
  | .gld p0 p1 p2 p3 p4 => Sys2Proof.Machine.execGld p0 p1 p2 p3 p4 s
  | .gst p0 p1 p2 p3 p4 => Sys2Proof.Machine.execGst p0 p1 p2 p3 p4 s
  | .gldk p0 p1 p2 p3 p4 => Sys2Proof.Machine.execGldk p0 p1 p2 p3 p4 s
  | .gatom p0 p1 p2 p3 p4 => Sys2Proof.Machine.execGatom p0 p1 p2 p3 p4 s
  | .cpy p0 p1 p2 => Sys2Proof.Machine.execCpy p0 p1 p2 s
  | .cpyq p0 p1 p2 => Sys2Proof.Machine.execCpyq p0 p1 p2 s
  | .cpystat p0 p1 p2 => Sys2Proof.Machine.execCpystat p0 p1 p2 s
  | .jpost p0 p1 p2 p3 => Sys2Proof.Machine.execJpost p0 p1 p2 p3 s
  | .sealPage p0 p1 p2 => Sys2Proof.Machine.execSealPage p0 p1 p2 s
  | .txbegin p0 p1 p2 p3 => Sys2Proof.Machine.execTxbegin p0 p1 p2 p3 s
  | .txcommit p0 p1 => Sys2Proof.Machine.execTxcommit p0 p1 s
  | .txcommitForce p0 p1 => Sys2Proof.Machine.execTxcommitForce p0 p1 s
  | .txabort p0 => Sys2Proof.Machine.execTxabort p0 s
  | .txstat p0 p1 p2 => Sys2Proof.Machine.execTxstat p0 p1 p2 s
  | .ttload p0 p1 p2 p3 => Sys2Proof.Machine.execTtload p0 p1 p2 p3 s
  | .ttset p0 p1 p2 p3 => Sys2Proof.Machine.execTtset p0 p1 p2 p3 s
  | .setpk p0 p1 p2 => Sys2Proof.Machine.execSetpk p0 p1 p2 s
  | .getpk p0 p1 p2 => Sys2Proof.Machine.execGetpk p0 p1 p2 s
  | .rdtime p0 p1 => Sys2Proof.Machine.execRdtime p0 p1 s
  | .digest p0 p1 => Sys2Proof.Machine.execDigest p0 p1 s
  | .digestFold p0 p1 p2 => Sys2Proof.Machine.execDigestFold p0 p1 p2 s
  | .gbra p0 p1 => Sys2Proof.Machine.execGbra p0 p1 s
  | .gbnz p0 p1 p2 => Sys2Proof.Machine.execGbnz p0 p1 p2 s
  | .gbz p0 p1 p2 => Sys2Proof.Machine.execGbz p0 p1 p2 s
  | .gexit p0 => Sys2Proof.Machine.execGexit p0 s
  | .trap p0 p1 => Sys2Proof.Machine.execTrap p0 p1 s
  | .trapret p0 => Sys2Proof.Machine.execTrapret p0 s
  | .bkpt p0 p1 => Sys2Proof.Machine.execBkpt p0 p1 s
  | .gnop p0 => Sys2Proof.Machine.execGnop p0 s
  | .mloadb p0 p1 p2 p3 => Sys2Proof.Machine.execMloadb p0 p1 p2 p3 s
  | .mloop p0 p1 p2 p3 p4 p5 p6 => Sys2Proof.Machine.execMloop p0 p1 p2 p3 p4 p5 p6 s
  | .mloopg p0 p1 p2 p3 p4 p5 p6 => Sys2Proof.Machine.execMloopg p0 p1 p2 p3 p4 p5 p6 s
  | .mfence p0 p1 p2 p3 => Sys2Proof.Machine.execMfence p0 p1 p2 p3 s
  | .mzero p0 p1 => Sys2Proof.Machine.execMzero p0 p1 s
  | .mstore p0 p1 p2 p3 p4 => Sys2Proof.Machine.execMstore p0 p1 p2 p3 p4 s
  | .mread p0 p1 p2 p3 => Sys2Proof.Machine.execMread p0 p1 p2 p3 s
  | .mwrite p0 p1 p2 p3 => Sys2Proof.Machine.execMwrite p0 p1 p2 p3 s
  | .mstat p0 p1 => Sys2Proof.Machine.execMstat p0 p1 s
  | .deviceQueueTake => Sys2Proof.Machine.execDeviceQueueTake s
  | .clusterQueueTake p0 => Sys2Proof.Machine.execClusterQueueTake p0 s
  | .teamPlace p0 p1 => Sys2Proof.Machine.execTeamPlace p0 p1 s
  | .groupRestore p0 p1 => Sys2Proof.Machine.execGroupRestore p0 p1 s
  | .preemptionRequest p0 => Sys2Proof.Machine.execPreemptionRequest p0 s
  | .groupEvict p0 => Sys2Proof.Machine.execGroupEvict p0 s
  | .pendingWriteLands p0 p1 => Sys2Proof.Machine.execPendingWriteLands p0 p1 s
  | .sliceStorePerform p0 p1 => Sys2Proof.Machine.execSliceStorePerform p0 p1 s
  | .sliceAtomicPerform p0 => Sys2Proof.Machine.execSliceAtomicPerform p0 s
  | .sliceAppendPerform p0 => Sys2Proof.Machine.execSliceAppendPerform p0 s
  | .sliceSealPerform p0 => Sys2Proof.Machine.execSliceSealPerform p0 s
  | .sliceFeAccess p0 => Sys2Proof.Machine.execSliceFeAccess p0 s
  | .leaseExpiry p0 => Sys2Proof.Machine.execLeaseExpiry p0 s
  | .groupStarved p0 => Sys2Proof.Machine.execGroupStarved p0 s
  | .waitTimeout p0 p1 => Sys2Proof.Machine.execWaitTimeout p0 p1 s
  | .waitPoll p0 p1 => Sys2Proof.Machine.execWaitPoll p0 p1 s
  | .fePollTry p0 => Sys2Proof.Machine.execFePollTry p0 s
  | .feTimeout p0 => Sys2Proof.Machine.execFeTimeout p0 s
  | .gatePoll p0 p1 => Sys2Proof.Machine.execGatePoll p0 p1 s
  | .placementWaitExpiry p0 p1 => Sys2Proof.Machine.execPlacementWaitExpiry p0 p1 s
  | .launchQuiet p0 => Sys2Proof.Machine.execLaunchQuiet p0 s
  | .haltAtBoundary p0 p1 => Sys2Proof.Machine.execHaltAtBoundary p0 p1 s
  | .carterStart p0 p1 => Sys2Proof.Machine.execCarterStart p0 p1 s
  | .carterPayloadComplete p0 => Sys2Proof.Machine.execCarterPayloadComplete p0 s
  | .carterCompletionWord p0 => Sys2Proof.Machine.execCarterCompletionWord p0 s
  | .carterPoison p0 => Sys2Proof.Machine.execCarterPoison p0 s
  | .loomStepGrant p0 p1 => Sys2Proof.Machine.execLoomStepGrant p0 p1 s
  | .loomCommandRetire p0 => Sys2Proof.Machine.execLoomCommandRetire p0 s
  | .txPreemptExpiry p0 => Sys2Proof.Machine.execTxPreemptExpiry p0 s
  | .overflowInterval p0 p1 p2 p3 p4 => Sys2Proof.Machine.execOverflowInterval p0 p1 p2 p3 p4 s
  | .hardwarePrefetch p0 p1 p2 p3 => Sys2Proof.Machine.execHardwarePrefetch p0 p1 p2 p3 s
  | .replicaDrop p0 p1 => Sys2Proof.Machine.execReplicaDrop p0 p1 s
  | .peerRequestArrive p0 => Sys2Proof.Machine.execPeerRequestArrive p0 s
  | .peerTimeout p0 => Sys2Proof.Machine.execPeerTimeout p0 s
  | .myentRead p0 p1 => Sys2Proof.Machine.execMyentRead p0 p1 s
  | .myentPostedWrite p0 p1 => Sys2Proof.Machine.execMyentPostedWrite p0 p1 s
  | .myentFetchAdd p0 p1 => Sys2Proof.Machine.execMyentFetchAdd p0 p1 s
  | .myentCompareAndSwap p0 p1 p2 => Sys2Proof.Machine.execMyentCompareAndSwap p0 p1 p2 s
  | .queueTailWrite p0 p1 => Sys2Proof.Machine.execQueueTailWrite p0 p1 s
  | .queueEnable p0 p1 => Sys2Proof.Machine.execQueueEnable p0 p1 s
  | .kill p0 => Sys2Proof.Machine.execKill p0 s
  | .cartrel p0 => Sys2Proof.Machine.execCartrel p0 s
  | .resdone p0 => Sys2Proof.Machine.execResdone p0 s
  | .freepg p0 p1 => Sys2Proof.Machine.execFreepg p0 p1 s
  | .freePageDone p0 => Sys2Proof.Machine.execFreePageDone p0 s
  | .l2quota p0 p1 => Sys2Proof.Machine.execL2quota p0 p1 s
  | .assayclr p0 => Sys2Proof.Machine.execAssayclr p0 s
  | .assayTableEmpty => Sys2Proof.Machine.execAssayTableEmpty s
  | .haltreq p0 p1 p2 => Sys2Proof.Machine.execHaltreq p0 p1 p2 s
  | .groupResume p0 p1 => Sys2Proof.Machine.execGroupResume p0 p1 s
  | .frozenRelease p0 p1 => Sys2Proof.Machine.execFrozenRelease p0 p1 s
  | .clkctl p0 p1 p2 => Sys2Proof.Machine.execClkctl p0 p1 p2 s
  | .clockChangeApply p0 => Sys2Proof.Machine.execClockChangeApply p0 s
  | .droopDetect p0 => Sys2Proof.Machine.execDroopDetect p0 s
  | .droopFloorRelease p0 => Sys2Proof.Machine.execDroopFloorRelease p0 s
  | .currentInterval p0 p1 => Sys2Proof.Machine.execCurrentInterval p0 p1 s
  | .thermalLevelChange p0 p1 => Sys2Proof.Machine.execThermalLevelChange p0 p1 s
  | .smhb p0 p1 p2 => Sys2Proof.Machine.execSmhb p0 p1 p2 s
  | .smctl p0 p1 p2 => Sys2Proof.Machine.execSmctl p0 p1 p2 s
  | .watchdogExpiry p0 => Sys2Proof.Machine.execWatchdogExpiry p0 s
  | .railStepUp p0 => Sys2Proof.Machine.execRailStepUp p0 s
  | .guardBandDown p0 => Sys2Proof.Machine.execGuardBandDown p0 s
  | .migreq p0 p1 p2 => Sys2Proof.Machine.execMigreq p0 p1 p2 s
  | .ueSend p0 => Sys2Proof.Machine.execUeSend p0 s
  | .ueTaggedSend p0 => Sys2Proof.Machine.execUeTaggedSend p0 s
  | .uePut p0 => Sys2Proof.Machine.execUePut p0 s
  | .ueGet p0 => Sys2Proof.Machine.execUeGet p0 s
  | .uePostTaggedReceive p0 => Sys2Proof.Machine.execUePostTaggedReceive p0 s
  | .uePostReceive p0 => Sys2Proof.Machine.execUePostReceive p0 s
  | .uePacketArrive p0 => Sys2Proof.Machine.execUePacketArrive p0 s
  | .ueCardComplete p0 p1 => Sys2Proof.Machine.execUeCardComplete p0 p1 s
  | .correctedError p0 => Sys2Proof.Machine.execCorrectedError p0 s
  | .uncorrectableError p0 => Sys2Proof.Machine.execUncorrectableError p0 s
  | .patrolScrub => Sys2Proof.Machine.execPatrolScrub s
  | .reset => Sys2Proof.Machine.execReset s
  | .stageAReady p0 p1 => Sys2Proof.Machine.execStageAReady p0 p1 s
  | .bootctl p0 => Sys2Proof.Machine.execBootctl p0 s
  | .stageBComplete p0 p1 => Sys2Proof.Machine.execStageBComplete p0 p1 s
  | .attctl p0 => Sys2Proof.Machine.execAttctl p0 s
  | .attestationReportReady => Sys2Proof.Machine.execAttestationReportReady s
  | .registerWrite p0 p1 p2 => Sys2Proof.Machine.execRegisterWrite p0 p1 p2 s
  | .reservedSlot p0 => Sys2Proof.Machine.execReservedSlot p0 s
  | .loomStepRetire p0 p1 => Sys2Proof.Machine.execLoomStepRetire p0 p1 s
  | .peerAcknowledgement p0 => Sys2Proof.Machine.execPeerAcknowledgement p0 s
  | .hostAcknowledgement p0 => Sys2Proof.Machine.execHostAcknowledgement p0 s
  | .linkLevelRetry => Sys2Proof.Machine.execLinkLevelRetry s

end Sys2Proof.Machine
end

