-- ==== Sys2Proof/Machine/Fetch.lean ====
section
/-! DEFINITION. The issue of a core's next instruction (spec/01 R29, spec/10 R244), device time (R200, R353), what agents outside the device
do to memory, and the round in which every agent of the device acts once. -/

namespace Sys2Proof.Machine

/-! ### Fetching and issuing -/

/-- A word that cannot be fetched is found when a thread would issue it (R244): TRAPWORD is a free value. DESIGN CHOICE, log 51. -/
def issueUnfetched (pfx : Prefix) (why : Why) (detail : Nat) (addr : DWord) (s : State) : Host.Outcome State Fault Refusal :=
  issueForm { word := Config.unfetchedWord s.free, reads := [], writes := [], lat := 0, detail := fun _ => none } pfx
    (fun c _ => c.cause why detail addr) { s with free := s.free + 1 }

/-- The instruction at one word, which is not EXT. -/
def runWord (w : Word) (s : State) : Host.Outcome State Fault Refusal :=
  match decodeDefined w with
  | some i => exec i s
  | none =>
    if isMwriteWord w then execMwrite (fS w) (fD w) (w.extractLsb' 11 3) (w.extractLsb' 4 7) s
    else if isMstatWord w then execMstat (fS w) (fD w) s
    else execReservedSlot w s

/-- Run the next instruction of a group: fetch its word, and the follower of an EXT (R58, R244). -/
def runGroup (gid : Nat) (s : State) : Host.Outcome State Fault Refusal :=
  match Tab.get? s.groups gid with
  | none => .next s
  | some g =>
    let s1 : State := { s with turn := gid }
    match fetchAt s g g.nextPc with
    | .outOfLease a => issueUnfetched none .outOfLease 2 a s1
    | .poisoned a => issueUnfetched none .poisoned 3 a s1
    | .word w =>
      if isExtWord w then
        match fetchAt s g (g.nextPc + 4#64) with
        | .outOfLease a => issueUnfetched (some (fI21 w)) .outOfLease 2 a s1
        | .poisoned a => issueUnfetched (some (fI21 w)) .poisoned 3 a s1
        | .word f => execExt (fS w) (fI21 w) f s1
      else runWord w s1

/-- A group is starved (R29): its 512 clocks have passed. -/
def Group.hungry (s : State) (g : Group) : Bool := g.starved || waitedLong s g

/-- A group is granted before another (R29): starved groups first, the oldest-resident of them first; then the highest PRIO, and the
oldest-resident among equals. DEDUCED, log 61. -/
def grantedBefore (s : State) (a b : Nat × Group) : Bool :=
  if a.2.hungry s != b.2.hungry s then a.2.hungry s
  else
    let pa := (s.launch a.2.launch).prio
    let pb := (s.launch b.2.launch).prio
    if !a.2.hungry s && pa != pb then decide (pb < pa) else decide (a.2.residentSince < b.2.residentSince)

/-- Insert a group in the order of grants. -/
def insertGrant (s : State) (x : Nat × Group) : List (Nat × Group) → List (Nat × Group)
  | [] => [x]
  | y :: t => if grantedBefore s x y then x :: y :: t else y :: insertGrant s x t

/-- The groups of a core that may issue on a pipe, in the order of grants. -/
def grants (s : State) (core : Nat) (pipe : Bool) : List Nat :=
  (((s.residents core).filter (fun e => issuable s e.1 e.2 pipe)).foldl (fun acc x => insertGrant s x acc) []).map (fun e => e.1)

/-- Grant the pipe to the first group of a list whose instruction does not wait at issue (R29): a group that waits on a pending bit, or on what
its instruction awaits, is not ready. DEDUCED, log 88. -/
def grantFirst (s : State) : List Nat → Host.Outcome State Fault Refusal
  | [] => .next s
  | [g] => runGroup g s
  | g :: t =>
    match runGroup g s with
    | .next s' => if s' = { s with turn := g } then grantFirst s t else .next s'
    | other => other

/-- One pipe of a core issues. -/
def issueStep (core : Nat) (pipe : Bool) (s : State) : Host.Outcome State Fault Refusal := grantFirst s (grants s core pipe)

/-! ### Device time (R200, R29, R345, R353) -/

/-- The device time moves on: writes that have completed are forgotten, and what must have held for a time is noted: quiet trees, waits for a
core, and readiness, whose count stands while the cluster's clock does (R29). Leases that have ended are forgotten, and watchdogs run out (R374).
DESIGN CHOICE, log 87. -/
def passTime (n : Nat) (s : State) : State :=
  let t := s.time + n
  expireWatchdogs <| reap { s with
    time := t
    launches := s.launches.map (fun e =>
      (e.1, { e.2 with
        quietSince := if e.2.phase == .running && calm s e.1 then some (e.2.quietSince.getD s.time) else none
        waitSince := if mayPlace s e.1 && !placeableAnywhere s e.1 then e.2.waitSince else t }))
    leases := s.leases.filter (fun e => decide (t < e.2))
    groups := s.groups.map (fun e =>
      if couldBeReady s e.1 e.2 then (if clockRuns s e.2.core then e else (e.1, { e.2 with readySince := e.2.readySince + n }))
      else (e.1, { e.2 with readySince := t, readyClocks := 0 })) }

/-! ### Outside the device -/

/-- Agents outside change host memory, or a peer's memory as this device reaches it. DESIGN CHOICE, log 85. -/
def outsideWrite (cells : List Host.Cell) (s : State) : State :=
  cells.foldl (fun s c => if aperture c.1 = 1 ∨ aperture c.1 = 3 then wake c.1 (s.poke c.1 [c.2]) else s) s

/-- A peer sets the F/E bit of a word of its own, as this device sees it: a fill resolves a gate that waits for the word (R341). DESIGN CHOICE, log 85. -/
def outsideFill (pa : Nat) (full : Bool) (s : State) : State :=
  if aperture pa = 1 then wake pa (if full then resolveGates pa (s.setFull pa true) else s.setFull pa false) else s

/-- A peer of the domain stops answering, or answers again (R384). DESIGN CHOICE, log 85. -/
def silencePeer (peer : Nat) (on : Bool) (s : State) : State :=
  { s with silent := if on then NatSet.ins s.silent peer else NatSet.del s.silent peer }

/-! ### The round of the device (log 30)

Where the agenda names nothing, every agent of the device acts once, in a fixed order, and 10 ns pass. -/

/-- Run meanings one after another; the first stop ends the run. -/
def runAll : List (State → Host.Outcome State Fault Refusal) → State → Host.Outcome State Fault Refusal
  | [], s => .next s
  | f :: fs, s =>
    match f s with
    | .next s' => runAll fs s'
    | other => other

/-- The cores that hold a group. -/
def busyCores (s : State) : List Nat := (List.range 768).filter (fun c => !(s.residents c).isEmpty)

/-- Every pipe issues. -/
def roundIssue (s : State) : List (State → Host.Outcome State Fault Refusal) :=
  (busyCores s).flatMap (fun c => [issueStep c false, issueStep c true])

/-- Requests in flight reach their slices, land, time out and are acknowledged. -/
def roundRequests (s : State) : List (State → Host.Outcome State Fault Refusal) :=
  (Tab.keys s.reqs).flatMap (fun n => [execSliceStorePerform n 0, execSliceAtomicPerform n, execSliceAppendPerform n, execSliceSealPerform n,
    execSliceFeAccess n, execPendingWriteLands n 0, execFePollTry n, execFeTimeout n, execPeerTimeout n, execPeerAcknowledgement n,
    execHostAcknowledgement n])

/-- Waits, pre-emptions and halts of groups. -/
def roundGroups (s : State) : List (State → Host.Outcome State Fault Refusal) :=
  s.groups.flatMap (fun e =>
    (Tab.keys e.2.blocks).flatMap (fun b => [execWaitPoll e.1 b, execWaitTimeout e.1 b])
      ++ [execGroupEvict e.1, execTxPreemptExpiry e.1, execGroupStarved e.1]
      ++ (match e.2.place with
        | .resident c q => [execHaltAtBoundary c q]
        | .evicted c => [fun s => match (restoreCores c).find? (mayRestore s e.1) with
          | some c => execGroupRestore e.1 c s
          | none => .next s]))

/-- Carters start, write up to 64 words each, and finish. -/
def roundCarters (s : State) : List (State → Host.Outcome State Fault Refusal) :=
  (s.cmds.flatMap (fun e =>
    (List.range 8).map (fun k => execCarterStart e.1 (8 * e.2.die + k))
      ++ (List.range 64).map (fun k => execSliceStorePerform e.1 (e.2.performed.length + k))
      ++ [execPeerTimeout e.1, execPeerAcknowledgement e.1, execHostAcknowledgement e.1]))
    ++ (List.range 32).flatMap (fun k => [execCarterPoison k, execCarterPayloadComplete k, execCarterCompletionWord k])

/-- Loom commands grant and add a step, write up to 64 words, and retire. -/
def roundLooms (s : State) : List (State → Host.Outcome State Fault Refusal) :=
  s.looms.flatMap (fun e =>
    [execLoomStepGrant e.1 e.2.nextStep, execLoomStepRetire e.1 e.2.nextStep]
      ++ (List.range 64).map (fun k => execSliceStorePerform e.1 (e.2.performed.length + k)) ++ [execLoomCommandRetire e.1])

/-- Clusters follow their clocks and guard bands. -/
def roundClusters (s : State) : List (State → Host.Outcome State Fault Refusal) :=
  (Tab.keys s.clusters).flatMap (fun c => [execRailStepUp c, execGuardBandDown c, execDroopFloorRelease c, execClockChangeApply c,
    execClusterQueueTake c])

/-- The dispatcher takes cards, places teams and ends launches. -/
def roundDispatcher (s : State) : List (State → Host.Outcome State Fault Refusal) :=
  [execDeviceQueueTake]
    ++ (Tab.keys s.launches).flatMap (fun n =>
      [execGatePoll n 0, execGatePoll n 1,
       fun s => (match (List.range 768).find? (fun c => placeable s n c && nearEnough s n c) with
         | some c => execTeamPlace n c s
         | none => .next s),
       fun s => (match askable s n with
         | some vs => (match (List.range 768).find? (freesCore s n vs) with
           | some c => execPlacementWaitExpiry n c s
           | none => .next s)
         | none => .next s),
       execLaunchQuiet n])
    ++ [execFreePageDone 0, execFreePageDone 1, execFreePageDone 2, execFreePageDone 3, execAssayTableEmpty]
    ++ (List.range 4).map (fun d s => .next (if (s.die d).migBusy then tryMigrate d s else s))

/-- The Ultra Ethernet engine takes and completes cards. -/
def roundEngine (s : State) : List (State → Host.Outcome State Fault Refusal) :=
  (List.range 8).flatMap (fun q => [execUeSend q, execUeTaggedSend q, execUePut q, execUeGet q, execUePostTaggedReceive q, execUePostReceive q])
    ++ (Tab.keys s.engine.cards).map (fun c => execUeCardComplete c .done)

/-- Copies whose leases have ended are dropped. -/
def roundCopies (s : State) : List (State → Host.Outcome State Fault Refusal) :=
  (s.copies.filter (fun e => match e.2.holder with
    | .peer _ => false
    | _ => true)).map (fun e => execLeaseExpiry e.1)

/-- The round. -/
def deviceRound (s : State) : Host.Outcome State Fault Refusal :=
  runAll [fun s => runAll (roundIssue s) s, fun s => runAll (roundRequests s) s, fun s => runAll (roundGroups s) s,
    fun s => runAll (roundCarters s) s, fun s => runAll (roundLooms s) s, fun s => runAll (roundClusters s) s,
    fun s => runAll (roundDispatcher s) s, fun s => runAll (roundEngine s) s, fun s => runAll (roundCopies s) s,
    fun s => .next (passTime 10 s)] s

/-! ### A word in place of a program (log 31) -/

/-- The card of the launch that `placeWord` makes: ENTRY 0x1_0000, one group of 16 threads with 112 V and 64 G registers, a scratchpad of 16 KiB,
its completion word at 0x1_8000. -/
def wordCard : BitVec 1024 :=
  0x180000000000000000000000000000000000000000000000000000000000000000000000000000000000000000000000B0004000000000000000000000000000000000000000000000000000000000000000101014070000000000000000000010000#1024

/-- Its launch: one extent of 128 KiB at VA and PA 0x1_0000, which grants everything. -/
def wordLaunch (s : State) : Launch :=
  { Launch.empty with
    ctxid := 1, keymax := BitVec.allOnes 64, card := wordCard, phase := .running, leased := true, nextTeam := 1, waitSince := s.time,
    extents := [{ va := 0x10000, pa := 0x10000, len := 0x20000, append := false, page := 0, qc := 3, key := 0, rd := true, wr := true,
                  fetch := true }] }

/-- A launch of one team of one group stands on core 0, slot 0, its threads at 0x1_0000, where two words are stored; the agenda has that
core issue. DESIGN CHOICE, log 31. -/
def placeWord (lo hi : Word) (s : State) : State :=
  let l := wordLaunch s
  let t : Team := { Team.empty with launch := 1, tensors := [] }
  let pad : State := { s with
    boot := { s.boot with stage := 3 }
    launches := Tab.put s.launches 1 l
    teams := Tab.put s.teams 1 t
    groups := s.groups.filter (fun e => e.2.core != 0 && e.1 != 1)
    reqs := s.reqs.filter (fun e => e.2.group != 1)
    copies := s.copies.filter (fun e => e.2.line != lineOf 0x10000)
    nextLaunch := max 2 s.nextLaunch, uid := max 2 s.uid, turn := 1, agenda := [.issue 0 (pipeOf (if isExtWord lo then hi else lo))] }
  let g := (newGroup pad 1 l 1 0 0 0 0 0 0 0).choose
  let s1 := (clearPoison 0x10000 8 (pad.setBytes 0x10000 (bytesOfWord lo ++ bytesOfWord hi))).setGroup 1 g
  ((s1.modCore 0 (fun k => { k with debugSlots := listModify k.debugSlots 0 (fun _ => DebugSlot.zero), holds := Tab.del k.holds 1 })).modCluster 0
    (fun c => { c with thermal := 0 })).modDie 0 (fun d => { d with replicas := d.replicas.filter (fun e => !meetRanges 0x10000 8 e.1 e.2.2) })

end Sys2Proof.Machine
end

