-- ==== Sys2Proof/Machine/Step.lean ====
section
/-! DEFINITION. One step of the machine: the agent that the agenda names acts, or, where it names none, every agent of the device acts once. -/

namespace Sys2Proof.Machine

/-- One step. DESIGN CHOICE, log 30. -/
def step (s : State) : Host.Outcome State Fault Refusal :=
  match s.agenda with
  | [] => deviceRound s
  | .issue core pipe :: rest => issueStep core pipe { s with agenda := rest }
  | .event i :: rest => if (encode i).isEmpty then exec i { s with agenda := rest } else .next { s with agenda := rest }
  | .pass n :: rest => .next (passTime n { s with agenda := rest })
  | .outsideFill pa full :: rest => .next (outsideFill pa full { s with agenda := rest })
  | .peerSilence peer on :: rest => .next (silencePeer peer on { s with agenda := rest })
  | .outside cells :: rest => .next (outsideWrite cells { s with agenda := rest })

/-- The state with one instruction where the next step fetches it. -/
def State.withFetchWord (s : State) (nbits w : Nat) : State :=
  let v := w % 2 ^ nbits
  placeWord (BitVec.ofNat 32 v) (BitVec.ofNat 32 (v / 2 ^ 32)) s

end Sys2Proof.Machine
end

