-- ==== Sys2Proof/Safety.lean ====
section
/-! DEFINITION. What the claims about the machine are stated in: the registers of a group as a claim reads them, what an
instruction needs of the state in order to issue and be performed (spec/01 R15, R23; spec/03 R45; spec/04 R61 to R65; spec/10 R210, R228), what an issue leaves
alone, and the canonical forms that a state keeps. -/

namespace Sys2Proof.Machine

/-! ### Registers as claims read them -/

/-- A register of a group: V n of a lane, or G n. -/
def Group.reg (g : Group) (lane : Nat) : Reg → Word
  | .v n => (g.thread lane).vreg n
  | .g n => g.greg n

/-- A register of a group of a state, 0 where there is no such group. -/
def State.reg (s : State) (gid lane : Nat) (r : Reg) : Word :=
  match Tab.get? s.groups gid with
  | some g => g.reg lane r
  | none => 0#32

/-- val(x) of R99: an L-set source code in a lane. -/
def Group.val (g : Group) (lane : Nat) (code : BitVec 7) : Word := g.reg lane (lreg code.toNat)

/-- val64(x) of R99. -/
def Group.val64 (g : Group) (lane : Nat) (code : BitVec 7) : DWord :=
  g.reg lane (lreg (code.toNat + 1)) ++ g.reg lane (lreg code.toNat)

/-- Address register A_k (R40), and the effective addresses of R125: of the FM forms, and of LDX and STX. -/
def Group.areg (g : Group) (k : BitVec 4) : DWord := g.greg (32 + 2 * k.toNat + 1) ++ g.greg (32 + 2 * k.toNat)
def Group.ea (g : Group) (lane : Nat) (a : BitVec 4) (o : BitVec 7) : DWord := g.areg a + (g.val lane o).signExtend 64
def Group.eax (g : Group) (lane size : Nat) (a : BitVec 4) (o : BitVec 7) : DWord := g.val64 lane o + BitVec.ofNat 64 (size * a.toNat)
/-- A local address (R125): the low 32 bits of the effective address. -/
def Group.la (g : Group) (lane : Nat) (a : BitVec 4) (o : BitVec 7) : Nat := (g.ea lane a o).toNat % 2 ^ 32

/-- G[x], and the pair G[x+1]:G[x]. -/
def Group.gval (g : Group) (code : BitVec 7) : Word := g.greg code.toNat
def Group.gval64 (g : Group) (code : BitVec 7) : DWord := g.greg (code.toNat + 1) ++ g.greg code.toNat

/-- A cross-lane source of kind x (R164). -/
def Group.xval (g : Group) (lane : Nat) (code : BitVec 7) : Word :=
  if code.toNat < 64 then g.greg code.toNat else g.reg lane (.v (code.toNat - 64))

/-! ### Issue -/

/-- The group after the pops that its issuing threads owe (R23). -/
def poppedGroup (s : State) (at_ : Site) (g : Group) : Group :=
  (owedPops s at_ g).foldl Group.popDone g

/-- An instruction word of a form issues and its own effect follows: the group at the turn has an issue set that may issue, no
debugger stops it (R228, R229), its fetch is not suspended (R210), the pops its threads owe succeed (R23), the word has no defect
(R45), no register it reads or writes is pending (R63), no Loom command holds it (R313), it reads no register short of its
latency (R61), and none that an error has poisoned (R389). -/
structure IssuesForm (f : Form) (p : Prefix) (s : State) (at_ : Site) (g : Group) : Prop where
  site : siteOf s f.word p = some (at_, g)
  halt : haltDue s g = none
  comparator : pcMatch s g at_.pc at_.lanes = none
  fetching : suspended s at_.gid g = false
  pops : ∀ e ∈ owedPops s at_ g, ∃ t, e.2 = .done t
  legal : f.detail (shapeOf s g) = none
  notPending : ∀ r ∈ f.reads ++ f.writes, r ∉ pendingRegs s at_.gid g
  notHeld : loomHeld s at_.gid g.core = false
  inTime : shortDues g f.reads = []
  sound : poisonedLanes s g (LaneSet.toList at_.lanes) f.reads = []

/-- An instruction issues, with or without a prefix. -/
abbrev Issues (i : Instr) (p : Prefix) (s : State) (at_ : Site) (g : Group) : Prop := IssuesForm (formOf i) p s at_ g

/-- What an instruction's own effect sees, and the state it starts from: pops made, the threads past the instruction. -/
def ctxForm (f : Form) (s : State) (at_ : Site) (g : Group) : Ctx :=
  { site := at_, g := poppedGroup s at_ g, lanes := LaneSet.toList at_.lanes, lat := f.lat, short := [] }
def ctxOf (i : Instr) (s : State) (at_ : Site) (g : Group) : Ctx := ctxForm (formOf i) s at_ g
def issuedState (s : State) (at_ : Site) (g : Group) : State := advance at_ (s.setGroup at_.gid (poppedGroup s at_ g))

/-- No data comparator matches an access of the group (R229). -/
def Unwatched (s : State) (g : Group) : Prop := ∀ ts, dataMatch s g ts = none

/-- Register writes of one kind in every issuing lane. -/
def laneWrites (at_ : Site) (f : Nat → List (Reg × Word)) (l : Nat) : List (Reg × Word) := if at_.lanes.has l then f l else []

/-- After `t`, the registers of a group hold what `ws` lists for each lane, and every other register what it held in `s`. -/
def Writes (gid : Nat) (ws : Nat → List (Reg × Word)) (s t : State) : Prop :=
  ∀ l r, t.reg gid l r = ((ws l).lookup r).getD (s.reg gid l r)

/-- The special registers of a group, and what else of it an instruction may change only where a rule says so (R42, R212). -/
def Group.specials (g : Group) : List DWord × List Bool × List LaneSet :=
  ([g.keyperm, g.srkey, g.trapvec, g.trapcauseWord.zeroExtend 64, g.trappc, g.trapword.zeroExtend 64, g.trapf, g.trapaddr],
   [g.stallchk, g.handler, g.frozen], [g.traplanes, g.hset])

/-- Nothing but one group changes, debug registers and a halt that a single step asks of other groups (R231) apart. -/
structure SameOutside (gid : Nat) (s t : State) : Prop where
  rest : { t with groups := s.groups, cores := s.cores } = s
  cores : ∀ c, { t.core c with debugSlots := [] } = { s.core c with debugSlots := [] }
  groups : ∀ n, n ≠ gid →
    (Tab.get? t.groups n).map (fun x => { x with teamhalt := false }) = (Tab.get? s.groups n).map (fun x => { x with teamhalt := false })

/-- The special registers of a group and of its threads are as before. -/
def SameSpecials (gid : Nat) (s t : State) : Prop :=
  ∃ g g', Tab.get? s.groups gid = some g ∧ Tab.get? t.groups gid = some g' ∧ g'.specials = g.specials
    ∧ ∀ l, (g'.thread l).febudget = (g.thread l).febudget

/-- A thread keeps its call stack and its meetings, but that a meeting released at level 0 leaves it in none (R16, R19, R23). -/
structure KeepsStack (a b : Thread) : Prop where
  live : b.live = a.live
  stack : b.stack = a.stack
  spilled : b.spilled = a.spilled
  depth : b.md = a.md
  record : b.record = a.record
  meet : b.meet = a.meet ∨ (a.md = 0 ∧ b.meet = noMeeting)

/-- What an issue leaves of its group outside the issue set (R15, R16, R25): the other threads keep their PCs, stacks and meetings, and blocked issue
sets stay blocked, but that YIELDs of the group may end. -/
structure OthersKept (lanes : LaneSet) (g g' : Group) : Prop where
  calls : ∀ l, lanes.has l = false → KeepsStack (g.thread l) (g'.thread l)
  pcs : ∀ l, lanes.has l = false → (∀ e ∈ g.blocks, e.2.kind = .yield → (g.thread l).wait ≠ .block e.1) →
    (g'.thread l).pc = (g.thread l).pc ∧ (g'.thread l).wait = (g.thread l).wait
  blocks : ∀ k b, Tab.get? g.blocks k = some b → (∀ e ∈ g.blocks, e.2.kind = .yield → e.1 ≠ k) → Tab.get? g'.blocks k = some b

/-- The same of the group of a site, from one state to another. -/
def SameOthers (at_ : Site) (s t : State) : Prop :=
  ∃ g g', Tab.get? s.groups at_.gid = some g ∧ Tab.get? t.groups at_.gid = some g' ∧ OthersKept at_.lanes g g'

/-- The issuing threads go to an address each (R37), and one that owes no pop keeps its stack and its meeting (R16, R23). -/
def IssuersAt (at_ : Site) (pc : Nat → DWord) (s t : State) : Prop :=
  ∃ g g', Tab.get? s.groups at_.gid = some g ∧ Tab.get? t.groups at_.gid = some g' ∧ ∀ l, at_.lanes.has l = true →
    ((g.thread l).wait = .run → (g'.thread l).wait = .run ∧ (g'.thread l).pc = pc l)
    ∧ ((g.thread l).owes = false → KeepsStack (g.thread l) (g'.thread l))

/-- The frame of an instruction that writes registers of its group alone: memory, every other group, every core, queue, command
and request is as before, and so are the group's special registers and its other threads; its issuing threads go on behind it. -/
structure IssueFrame (at_ : Site) (s t : State) : Prop where
  outside : SameOutside at_.gid s t
  specials : SameSpecials at_.gid s t
  issuers : IssuersAt at_ (fun _ => at_.next) s t
  others : SameOthers at_ s t

/-- The register write of a value, in a lane where the register is a V register. -/
def asWrite (lane : Option Nat) (e : Reg × Word) : RegWrite :=
  match e.1 with
  | .v n => { lane := lane, reg := n, val := e.2 }
  | .g n => { lane := none, reg := n, val := e.2 }
def asWrites (lane : Option Nat) (ws : List (Reg × Word)) : List RegWrite := ws.map (asWrite lane)

/-- A result of variable latency is in flight (R63): request `s.uid` holds the writes, its registers are pending, and no register has changed. -/
def InFlight (at_ : Site) (ws : List RegWrite) (s t : State) : Prop :=
  (∃ r, Tab.get? t.reqs s.uid = some r ∧ r.group = at_.gid ∧ r.kind = .value ws ∧ r.dest = dedupRegs (ws.map RegWrite.target))
    ∧ (∀ n, n ≠ s.uid → Tab.get? t.reqs n = Tab.get? s.reqs n) ∧ t.mem = s.mem ∧ Writes at_.gid (fun _ => []) s t
    ∧ SameSpecials at_.gid s t ∧ IssuersAt at_ (fun _ => at_.next) s t ∧ SameOthers at_ s t

/-- The group goes on after an instruction that writes none of its registers at once: its registers and special registers stay, its issuing threads go on
behind the instruction, and its other threads are as before. -/
structure GoesOn (at_ : Site) (s t : State) : Prop where
  regs : Writes at_.gid (fun _ => []) s t
  specials : SameSpecials at_.gid s t
  issuers : IssuersAt at_ (fun _ => at_.next) s t
  others : SameOthers at_ s t

/-- `t` is `s1` but for what the group does as its issue ends: its threads move past the instruction, pops they owed are made, and the next
issue set is chosen. Registers, special registers, the threads that do not issue and everything outside the group are those of `s1`. -/
structure Follows (at_ : Site) (s1 t : State) : Prop where
  outside : SameOutside at_.gid s1 t
  regs : ∀ l r, t.reg at_.gid l r = s1.reg at_.gid l r
  specials : SameSpecials at_.gid s1 t
  others : SameOthers at_ s1 t

/-- The same, and the issuing threads go to an address each, with their stacks and meetings; with Passes, to the address behind the instruction. -/
structure Goes (at_ : Site) (pc : Nat → DWord) (s1 t : State) : Prop where
  follows : Follows at_ s1 t
  issuers : IssuersAt at_ pc s1 t
abbrev Passes (at_ : Site) (s1 t : State) : Prop := Goes at_ (fun _ => at_.next) s1 t

/-! ### Canonical forms -/

/-- The tables of a state are in their canonical forms. -/
def State.wf (s : State) : Prop := memWf s.mem = true

end Sys2Proof.Machine
end

