-- ==== Sys2Proof/Certificates/Slice0/Obligations.lean ====
section
/-! DEFINITION. The statements about the machine, and before them the tables of results that they read: each says what the spec's rules
give, in terms of the registers before the instruction. -/

namespace Sys2Proof.Machine.Says

/-! ### Results of lane instructions (spec/07) -/

/-- R101: what each 32-bit integer and logic instruction writes in a lane. -/
def laneInteger (i : Instr) (g : Group) : Option (Nat → List (Reg × Word)) :=
  let one := fun (d : BitVec 7) (f : Nat → Word) => some (fun l => [(Reg.v d.toNat, f l)])
  match i with
  | .iadd _ d a b => one d (fun l => g.val l a + g.val l b)
  | .isub _ d a b => one d (fun l => g.val l a - g.val l b)
  | .imul _ d a b => one d (fun l => g.val l a * g.val l b)
  | .imulhi _ d a b => one d (fun l => BitVec.ofInt 32 ((g.val l a).toInt * (g.val l b).toInt / 2 ^ 32))
  | .nmulhi _ d a b => one d (fun l => BitVec.ofNat 32 ((g.val l a).toNat * (g.val l b).toNat / 2 ^ 32))
  | .imad _ d a b => one d (fun l => g.val l a * g.val l b + g.val l d)
  | .and _ d a b => one d (fun l => g.val l a &&& g.val l b)
  | .or _ d a b => one d (fun l => g.val l a ||| g.val l b)
  | .xor _ d a b => one d (fun l => g.val l a ^^^ g.val l b)
  | .andn _ d a b => one d (fun l => g.val l a &&& ~~~g.val l b)
  | .shl _ d a b => one d (fun l => g.val l a <<< (g.val l b &&& 31#32).toNat)
  | .shr _ d a b => one d (fun l => g.val l a >>> (g.val l b &&& 31#32).toNat)
  | .sar _ d a b => one d (fun l => BitVec.ofInt 32 ((g.val l a).toInt / 2 ^ (g.val l b &&& 31#32).toNat))
  | .rotl _ d a b => one d (fun l =>
      let n := (g.val l b &&& 31#32).toNat
      g.val l a <<< n ||| g.val l a >>> (32 - n))
  | .imin _ d a b => one d (fun l => if (g.val l a).toInt ≤ (g.val l b).toInt then g.val l a else g.val l b)
  | .imax _ d a b => one d (fun l => if (g.val l a).toInt ≤ (g.val l b).toInt then g.val l b else g.val l a)
  | .nmin _ d a b => one d (fun l => if (g.val l a).toNat ≤ (g.val l b).toNat then g.val l a else g.val l b)
  | .nmax _ d a b => one d (fun l => if (g.val l a).toNat ≤ (g.val l b).toNat then g.val l b else g.val l a)
  | .islt _ d a b => one d (fun l => if (g.val l a).toInt < (g.val l b).toInt then 1#32 else 0#32)
  | .isle _ d a b => one d (fun l => if (g.val l a).toInt ≤ (g.val l b).toInt then 1#32 else 0#32)
  | .nslt _ d a b => one d (fun l => if (g.val l a).toNat < (g.val l b).toNat then 1#32 else 0#32)
  | .nsle _ d a b => one d (fun l => if (g.val l a).toNat ≤ (g.val l b).toNat then 1#32 else 0#32)
  | .ieq _ d a b => one d (fun l => if g.val l a = g.val l b then 1#32 else 0#32)
  | .ine _ d a b => one d (fun l => if g.val l a = g.val l b then 0#32 else 1#32)
  | .sel _ d a b => one d (fun l => if g.val l d = 0#32 then g.val l b else g.val l a)
  | _ => none

/-- The two registers of a pair hold a 64-bit value, bits [31:0] in the lower one (R40, R99). -/
def pairOf (r : Nat → Reg) (d : BitVec 7) (x : DWord) : List (Reg × Word) :=
  [(r d.toNat, x.extractLsb' 0 32), (r (d.toNat + 1), x.extractLsb' 32 32)]

/-- R102: what each 64-bit instruction writes to the pair D of a lane. -/
def lanePair (i : Instr) (g : Group) : Option (Nat → List (Reg × Word)) :=
  let two := fun (d : BitVec 7) (f : Nat → DWord) => some (fun l => pairOf .v d (f l))
  match i with
  | .iadd64 _ d a b => two d (fun l => g.val64 l a + g.val64 l b)
  | .isub64 _ d a b => two d (fun l => g.val64 l a - g.val64 l b)
  | .imadw _ d a b => two d (fun l => BitVec.ofInt 64 ((g.val l a).toInt * (g.val l b).toInt) + g.val64 l d)
  | .nmadw _ d a b => two d (fun l => BitVec.ofNat 64 ((g.val l a).toNat * (g.val l b).toNat) + g.val64 l d)
  | .shl64 _ d a b => two d (fun l => g.val64 l a <<< (g.val l b &&& 63#32).toNat)
  | .shr64 _ d a b => two d (fun l => g.val64 l a >>> (g.val l b &&& 63#32).toNat)
  | _ => none

/-- R103, R123: what each immediate form writes in a lane; imm is formed under R36 with or without a prefix (kinds s and z). -/
def laneImmediate (i : Instr) (p : Prefix) (g : Group) : Option (Nat → List (Reg × Word)) :=
  let one := fun (d : BitVec 7) (f : Nat → Word) => some (fun l => [(Reg.v d.toNat, f l)])
  let two := fun (d : BitVec 7) (f : Nat → DWord) => some (fun l => pairOf .v d (f l))
  match i with
  | .iaddi _ d a n => one d (fun l => g.val l a + (immS p n).extractLsb' 0 32)
  | .andi _ d a n => one d (fun l => g.val l a &&& (immS p n).extractLsb' 0 32)
  | .ori _ d a n => one d (fun l => g.val l a ||| (immZ p n).extractLsb' 0 32)
  | .xori _ d a n => one d (fun l => g.val l a ^^^ (immZ p n).extractLsb' 0 32)
  | .islti _ d a n => one d (fun l => if (g.val l a).toInt < (immS p n).toInt then 1#32 else 0#32)
  | .ieqi _ d a n => one d (fun l => if g.val l a = (immS p n).extractLsb' 0 32 then 1#32 else 0#32)
  | .add64i _ d a n => two d (fun l => g.val64 l a + immS p n)
  | .movi _ d n => one d (fun _ => (immS p n).extractLsb' 0 32)
  | _ => none

/-- R103: what each immediate shift writes in a lane, with count n. -/
def laneShiftImmediate (i : Instr) (g : Group) : Option (Nat → List (Reg × Word)) :=
  let one := fun (d : BitVec 7) (f : Nat → Word) => some (fun l => [(Reg.v d.toNat, f l)])
  let two := fun (d : BitVec 7) (f : Nat → DWord) => some (fun l => pairOf .v d (f l))
  match i with
  | .shli _ d a n => one d (fun l => g.val l a <<< n.toNat)
  | .shri _ d a n => one d (fun l => g.val l a >>> n.toNat)
  | .sari _ d a n => one d (fun l => BitVec.ofInt 32 ((g.val l a).toInt / 2 ^ n.toNat))
  | .rotli _ d a n => one d (fun l => g.val l a <<< n.toNat ||| g.val l a >>> (32 - n.toNat))
  | .shl64i _ d a n => two d (fun l => g.val64 l a <<< n.toNat)
  | .shr64i _ d a n => two d (fun l => g.val64 l a >>> n.toNat)
  | _ => none

/-- R104: what each unary integer instruction writes in a lane. -/
def laneUnary (i : Instr) (g : Group) : Option (Nat → List (Reg × Word)) :=
  let one := fun (d : BitVec 7) (f : Nat → Word) => some (fun l => [(Reg.v d.toNat, f l)])
  match i with
  | .not _ d a => one d (fun l => g.val l a ^^^ BitVec.allOnes 32)
  | .neg _ d a => one d (fun l => BitVec.ofInt 32 (-(g.val l a).toInt))
  | .abs _ d a => one d (fun l => BitVec.ofNat 32 (g.val l a).toInt.natAbs)
  | .clz _ d a => one d (fun l => BitVec.ofNat 32 ((List.range 32).takeWhile (fun k => !(g.val l a).getLsbD (31 - k))).length)
  | .popc _ d a => one d (fun l => BitVec.ofNat 32 ((List.range 32).filter (fun k => (g.val l a).getLsbD k)).length)
  | .brev _ d a => one d (fun l => (g.val l a).reverse)
  | .sext8 _ d a => one d (fun l => ((g.val l a).extractLsb' 0 8).signExtend 32)
  | .sext16 _ d a => one d (fun l => ((g.val l a).extractLsb' 0 16).signExtend 32)
  | .zext8 _ d a => one d (fun l => g.val l a &&& 0xFF#32)
  | .zext16 _ d a => one d (fun l => g.val l a &&& 0xFFFF#32)
  | _ => none

/-- R105 to R108, R110, R112: what each binary32 instruction of fixed latency writes in a lane. -/
def laneFloat (i : Instr) (g : Group) : Option (Nat → List (Reg × Word)) :=
  let one := fun (d : BitVec 7) (f : Nat → Word) => some (fun l => [(Reg.v d.toNat, f l)])
  let x := fun (l : Nat) (a : BitVec 7) => valF32 (g.val l a)
  match i with
  | .fadd _ d a b => one d (fun l => rne32 ((x l a).add (x l b)))
  | .fsub _ d a b => one d (fun l => rne32 ((x l a).add (x l b).neg))
  | .fmul _ d a b => one d (fun l => rne32 ((x l a).mul (x l b)))
  | .ffma _ d a b => one d (fun l => rne32 (((x l a).mul (x l b)).add (x l d)))
  | .fmin _ d a b => one d (fun l => fminF (g.val l a) (g.val l b))
  | .fmax _ d a b => one d (fun l => fmaxF (g.val l a) (g.val l b))
  | .fslt _ d a b => one d (fun l => if (x l a).lt (x l b) then 1#32 else 0#32)
  | .fsle _ d a b => one d (fun l => if (x l a).lt (x l b) ∨ (x l a).eq (x l b) then 1#32 else 0#32)
  | .fseq _ d a b => one d (fun l => if (x l a).eq (x l b) then 1#32 else 0#32)
  | .fsne _ d a b => one d (fun l => if (x l a).eq (x l b) then 0#32 else 1#32)
  | .fsun _ d a b => one d (fun l => if (x l a).isNan ∨ (x l b).isNan then 1#32 else 0#32)
  | .fldexp _ d a b => one d (fun l => fldexpF (g.val l a) (g.val l b))
  | .fneg _ d a => one d (fun l => if (x l a).isNan then 0x7FC0_0000#32 else g.val l a ^^^ 0x8000_0000#32)
  | .fabs _ d a => one d (fun l => if (x l a).isNan then 0x7FC0_0000#32 else g.val l a &&& 0x7FFF_FFFF#32)
  | .ffloor _ d a => one d (fun l => fintF .rdn (g.val l a))
  | .fceil _ d a => one d (fun l => fintF .rup (g.val l a))
  | .ftrunc _ d a => one d (fun l => fintF .rtz (g.val l a))
  | .frint _ d a => one d (fun l => fintF .rne (g.val l a))
  | _ => none

/-- The BF16 value of the low or the high half of a register (R109). -/
def half (w : Word) (hi : Bool) : Val := valBf16 (w.extractLsb' (if hi then 16 else 0) 16)
/-- A register whose halves are these. -/
def ofHalves (f : Bool → Half) : Word := f true ++ f false

/-- R109: what each bf16×2 instruction writes in a lane. -/
def laneBf16 (i : Instr) (g : Group) : Option (Nat → List (Reg × Word)) :=
  let one := fun (d : BitVec 7) (f : Nat → Word) => some (fun l => [(Reg.v d.toNat, f l)])
  let h := fun (l : Nat) (a : BitVec 7) => half (g.val l a)
  match i with
  | .badd2 _ d a b => one d (fun l => ofHalves (fun k => rneBf16 ((h l a k).add (h l b k))))
  | .bmul2 _ d a b => one d (fun l => ofHalves (fun k => rneBf16 ((h l a k).mul (h l b k))))
  | .bfma2 _ d a b => one d (fun l => ofHalves (fun k => rneBf16 (((h l a k).mul (h l b k)).add (h l d k))))
  | .bdot2 _ d a b => one d (fun l =>
      rne32 ((((h l a false).mul (h l b false)).add ((h l a true).mul (h l b true))).add (valF32 (g.val l d))))
  | _ => none

/-- R113 to R116, R118 to R122: what each conversion writes in a lane. -/
def laneConvert (i : Instr) (g : Group) : Option (Nat → List (Reg × Word)) :=
  let one := fun (d : BitVec 7) (f : Nat → Word) => some (fun l => [(Reg.v d.toNat, f l)])
  let x := fun (l : Nat) (a : BitVec 7) => valF32 (g.val l a)
  match i with
  | .cvtf _ d a f r => one d (fun l =>
      BitVec.ofNat 32 (conv (NarrowFmt.ofCode f.toNat) (Rnd.ofCode r.toNat) (genH g.srkey (g.val l d) 3) (x l a)))
  | .cvtt _ d a f => one d (fun l => toF32 ((NarrowFmt.ofCode f.toNat).value (g.val l a).toNat))
  | .cvti _ d a k r =>
      let m := Rnd.ofCode r.toNat
      match k.toNat with
      | 0 => one d (fun l => BitVec.ofInt 32 (convInt m true 32 (x l a)))
      | 1 => one d (fun l => BitVec.ofInt 32 (convInt m false 32 (x l a)))
      | 2 => one d (fun l => BitVec.ofNat 32 (fmtF32.round m (Val.ofInt (g.val l a).toInt)))
      | 3 => one d (fun l => BitVec.ofNat 32 (fmtF32.round m (Val.ofInt (g.val l a).toNat)))
      | 4 => some (fun l => pairOf .v d (BitVec.ofInt 64 (convInt m true 64 (x l a))))
      | 5 => some (fun l => pairOf .v d (BitVec.ofInt 64 (convInt m false 64 (x l a))))
      | 6 => one d (fun l => BitVec.ofNat 32 (fmtF32.round m (Val.ofInt (g.val64 l a).toInt)))
      | 7 => one d (fun l => BitVec.ofNat 32 (fmtF32.round m (Val.ofInt (g.val64 l a).toNat)))
      | _ => none
  | .pack _ d a w e => one d (fun l =>
      let ew := 2 ^ (w.toNat + 2)
      let lo := e.toNat * ew
      BitVec.ofNat 32 ((g.val l d).toNat % 2 ^ lo + (g.val l a).toNat % 2 ^ ew * 2 ^ lo
        + (g.val l d).toNat / 2 ^ (lo + ew) * 2 ^ (lo + ew)))
  | .unpk _ d a w e => one d (fun l =>
      let ew := 2 ^ (w.toNat + 2)
      BitVec.ofNat 32 ((g.val l a).toNat / 2 ^ (e.toNat * ew) % 2 ^ ew))
  | .scalef _ d a f => if f = 10#4 then one d (fun l =>
        let y := valBf16 ((g.val l a).extractLsb' 0 16)
        let b := (g.val l a).extractLsb' 16 16
        BitVec.ofNat 32 (if b = 0#16 then bsf4Band y else bsf4Block y b.toNat))
      else one d (fun l => BitVec.ofNat 32 (mxScale (NarrowFmt.ofCode f.toNat) (x l a)))
  | .rand _ d a e k => one d (fun l => genH (g.greg (2 * k.toNat + 1) ++ g.greg (2 * k.toNat)) (g.val l a) e.toNat)
  | _ => none

/-- R111: what each function of variable latency sends to a lane; BMAXA (R117) and the shuffles (R124) take other lanes' values. -/
def laneFunction (i : Instr) (at_ : Site) (g : Group) : Option (Nat → List (Reg × Word)) :=
  let one := fun (d : BitVec 7) (f : Nat → Word) => some (fun l => [(Reg.v d.toNat, f l)])
  let source := fun (d a : BitVec 7) (j : Nat → Option Nat) => one d (fun l =>
    match j l with
    | some k => if at_.lanes.has k then g.val k a else g.val l a
    | none => g.val l a)
  match i with
  | .frcp _ d a => one d (fun l => frcpF (g.val l a))
  | .frsq _ d a => one d (fun l => frsqF (g.val l a))
  | .fsqrt _ d a => one d (fun l => fsqrtF (g.val l a))
  | .fexp2 _ d a => one d (fun l => fexp2F (g.val l a))
  | .flog2 _ d a => one d (fun l => flog2F (g.val l a))
  | .fsin _ d a => one d (fun l => fsinF (g.val l a))
  | .fcos _ d a => one d (fun l => fcosF (g.val l a))
  | .ftanh _ d a => one d (fun l => ftanhF (g.val l a))
  | .ferf _ d a => one d (fun l => ferfF (g.val l a))
  | .bmaxa _ d a n => one d (fun l =>
      let block := ((LaneSet.toList at_.lanes).filter (fun j => j / n.toNat == l / n.toNat)).map (fun j => g.val j a)
      if ∃ x ∈ block, (valF32 x).isNan then 0x7FC0_0000#32
      else BitVec.ofNat 32 ((block.map (fun x => x.toNat % 2 ^ 31)).foldl max 0))
  | .shfl _ d a b => source d a (fun l => some (g.val l b).toNat)
  | .shflx _ d a b => source d a (fun l => some (l ^^^ (g.val l b).toNat))
  | .shflu _ d a b => source d a (fun l => if (g.val l b).toNat ≤ l then some (l - (g.val l b).toNat) else none)
  | .shfld _ d a b => source d a (fun l => some (l + (g.val l b).toNat))
  | _ => none
/-! ### Results of uniform and cross-lane instructions (spec/08) -/

/-- R156: what each 32-bit uniform instruction writes. -/
def uniform32 (i : Instr) (g : Group) : Option (List (Reg × Word)) :=
  let one := fun (d : BitVec 7) (x : Word) => some [(Reg.g d.toNat, x)]
  let v := g.gval
  match i with
  | .gadd _ d a b => one d (v a + v b)
  | .gsub _ d a b => one d (v a - v b)
  | .gmul _ d a b => one d (v a * v b)
  | .gmulhi _ d a b => one d (BitVec.ofInt 32 ((v a).toInt * (v b).toInt / 2 ^ 32))
  | .gnmulhi _ d a b => one d (BitVec.ofNat 32 ((v a).toNat * (v b).toNat / 2 ^ 32))
  | .gand _ d a b => one d (v a &&& v b)
  | .gor _ d a b => one d (v a ||| v b)
  | .gxor _ d a b => one d (v a ^^^ v b)
  | .gshl _ d a b => one d (v a <<< (v b &&& 31#32).toNat)
  | .gshr _ d a b => one d (v a >>> (v b &&& 31#32).toNat)
  | .gsar _ d a b => one d (BitVec.ofInt 32 ((v a).toInt / 2 ^ (v b &&& 31#32).toNat))
  | .gmin _ d a b => one d (if (v a).toInt ≤ (v b).toInt then v a else v b)
  | .gmax _ d a b => one d (if (v a).toInt ≤ (v b).toInt then v b else v a)
  | .gnmin _ d a b => one d (if (v a).toNat ≤ (v b).toNat then v a else v b)
  | .gnmax _ d a b => one d (if (v a).toNat ≤ (v b).toNat then v b else v a)
  | .gslt _ d a b => one d (if (v a).toInt < (v b).toInt then 1#32 else 0#32)
  | .gsle _ d a b => one d (if (v a).toInt ≤ (v b).toInt then 1#32 else 0#32)
  | .gnslt _ d a b => one d (if (v a).toNat < (v b).toNat then 1#32 else 0#32)
  | .gnsle _ d a b => one d (if (v a).toNat ≤ (v b).toNat then 1#32 else 0#32)
  | .geq _ d a b => one d (if v a = v b then 1#32 else 0#32)
  | .gne _ d a b => one d (if v a = v b then 0#32 else 1#32)
  | .gsel _ d a b => one d (if v d = 0#32 then v b else v a)
  | _ => none

/-- R157, R158: what each 64-bit and each binary32 uniform instruction writes. -/
def uniformWide (i : Instr) (g : Group) : Option (List (Reg × Word)) :=
  let one := fun (d : BitVec 7) (x : Word) => some [(Reg.g d.toNat, x)]
  let two := fun (d : BitVec 7) (x : DWord) => some (pairOf .g d x)
  let v := g.gval
  let v64 := g.gval64
  let x := fun (a : BitVec 7) => valF32 (g.gval a)
  match i with
  | .gadd64 _ d a b => two d (v64 a + v64 b)
  | .gsub64 _ d a b => two d (v64 a - v64 b)
  | .gshl64 _ d a b => two d (v64 a <<< (v b &&& 63#32).toNat)
  | .gshr64 _ d a b => two d (v64 a >>> (v b &&& 63#32).toNat)
  | .gmadw _ d a b => two d (BitVec.ofInt 64 ((v a).toInt * (v b).toInt) + v64 d)
  | .gfadd _ d a b => one d (rne32 ((x a).add (x b)))
  | .gfmul _ d a b => one d (rne32 ((x a).mul (x b)))
  | .gffma _ d a b => one d (rne32 (((x a).mul (x b)).add (x d)))
  | .gfmin _ d a b => one d (fminF (v a) (v b))
  | .gfmax _ d a b => one d (fmaxF (v a) (v b))
  | .gfslt _ d a b => one d (if (x a).lt (x b) then 1#32 else 0#32)
  | _ => none

/-- R159: what each immediate form of the uniform arithmetic writes, with or without a prefix. -/
def uniformImmediate (i : Instr) (p : Prefix) (g : Group) : Option (List (Reg × Word)) :=
  let one := fun (d : BitVec 7) (x : Word) => some [(Reg.g d.toNat, x)]
  match i with
  | .gmovi _ d n => one d ((immS p n).extractLsb' 0 32)
  | .gaddi _ d a n => one d (g.gval a + (immS p n).extractLsb' 0 32)
  | .gandi _ d a n => one d (g.gval a &&& (immS p n).extractLsb' 0 32)
  | .gori _ d a n => one d (g.gval a ||| (immZ p n).extractLsb' 0 32)
  | _ => none

/-- R159: the immediate forms that take no prefix. -/
def uniformFixed (i : Instr) (g : Group) : Option (List (Reg × Word)) :=
  let one := fun (d : BitVec 7) (x : Word) => some [(Reg.g d.toNat, x)]
  match i with
  | .gshli _ d a n => one d (g.gval a <<< n.toNat)
  | .gshri _ d a n => one d (g.gval a >>> n.toNat)
  | .glui _ d n => one d (BitVec.ofNat 32 (n.toNat * 2 ^ 18 + (g.gval d).toNat % 2 ^ 18))
  | _ => none

/-- R165, R166: what each cross-lane instruction sends to its G register or pair, from the issuing lanes in ascending order. -/
def acrossLanes (i : Instr) (at_ : Site) (g : Group) : Option (List (Reg × Word)) :=
  let one := fun (d : BitVec 7) (x : Word) => some [(Reg.g d.toNat, x)]
  let lanes := LaneSet.toList at_.lanes
  let vs := fun (a : BitVec 7) => lanes.map (fun l => g.xval l a)
  match i with
  | .lballot _ d a => some (pairOf .g d (lanes.foldl (fun m l => if g.xval l a = 0#32 then m else m ||| BitVec.ofNat 64 (2 ^ l)) 0#64))
  | .lany _ d a => one d (if ∃ v ∈ vs a, v ≠ 0#32 then 1#32 else 0#32)
  | .lall _ d a => one d (if ∀ v ∈ vs a, v ≠ 0#32 then 1#32 else 0#32)
  | .lread _ d a b => one d (if (g.gval b).toNat < g.width ∨ a.toNat < 64 then g.xval (g.gval b).toNat a else 0#32)
  | .lsum _ d a => one d (BitVec.ofNat 32 ((vs a).map BitVec.toNat).sum)
  | .lfsum _ d a => one d (match vs a with
    | [] => 0#32
    | v :: t => t.foldl (fun s x => rne32 ((valF32 s).add (valF32 x))) (if (valF32 v).isNan then 0x7FC0_0000#32 else v))
  | .lmax _ d a => one d (match vs a with
    | [] => 0#32
    | v :: t => BitVec.ofInt 32 (t.foldl (fun m x => max m x.toInt) v.toInt))
  | .lmin _ d a => one d (match vs a with
    | [] => 0#32
    | v :: t => BitVec.ofInt 32 (t.foldl (fun m x => min m x.toInt) v.toInt))
  | .lfmax _ d a => one d (match vs a with
    | [] => 0#32
    | v :: t => t.foldl fmaxF (if (valF32 v).isNan then 0x7FC0_0000#32 else v))
  | .lpopc _ d a => one d (BitVec.ofNat 32 ((vs a).filter (fun v => v ≠ 0#32)).length)
  | .lfirst _ d a => one d (match lanes.find? (fun l => g.xval l a ≠ 0#32) with
    | some l => BitVec.ofNat 32 l
    | none => 0xFFFF_FFFF#32)
  | _ => none
/-! ### Special registers and status (R42, R160, R199 to R201) -/

/-- R42: what each special register holds, as a thread of a group reads it. -/
def special (s : State) (g : Group) (lane : Nat) (n : Nat) : Option DWord :=
  let l := s.launch g.launch
  let t := s.team g.team
  match n with
  | 0x0000 => some (BitVec.ofNat 64 lane)
  | 0x0001 => some (BitVec.ofNat 64 g.gid)
  | 0x0002 => some (BitVec.ofNat 64 t.teamid)
  | 0x0003 => some (BitVec.ofNat 64 l.nteams)
  | 0x0004 => some (BitVec.ofNat 64 g.width)
  | 0x0005 => some (BitVec.ofNat 64 g.core)
  | 0x0006 => some (BitVec.ofNat 64 (g.core / 4))
  | 0x0007 => some (BitVec.ofNat 64 (g.core / 192))
  | 0x0008 => some ((logicalWord l t.teamid).zeroExtend 64)
  | 0x0009 => some (BitVec.ofNat 64 (2 ^ (s.cluster (g.core / 4)).peff))
  | 0x000A => some (BitVec.ofNat 64 l.heat)
  | 0x0010 => some (t.rungWord.zeroExtend 64)
  | 0x0011 => some (t.txstateWord.zeroExtend 64)
  | 0x0020 => some ((g.thread lane).febudget.zeroExtend 64)
  | 0x0021 => some g.keyperm
  | 0x0022 => some g.srkey
  | 0x0023 => some (if g.stallchk then 1#64 else 0#64)
  | 0x0030 => some g.trapvec
  | 0x0031 => some (g.trapcauseWord.zeroExtend 64)
  | 0x0032 => some g.traplanes
  | 0x0033 => some g.trappc
  | 0x0034 => some (g.trapword.zeroExtend 64)
  | 0x0035 => some g.trapf
  | 0x0036 => some g.trapaddr
  | _ => none

/-- R42: the 64-bit special registers, which take a pair. -/
def specialPair (n : Nat) : Bool := n ∈ [0x21, 0x22, 0x30, 0x32, 0x33, 0x35, 0x36]

/-- A special register's value in a register or a pair. -/
def specialInto (r : Nat → Reg) (d : BitVec 7) (n : Nat) (x : DWord) : List (Reg × Word) :=
  if specialPair n then pairOf r d x else [(r d.toNat, x.extractLsb' 0 32)]

/-- R160: a group after GWRS writes a value to a special register; FEBUDGET is written for the issuing threads. -/
def afterGwrs (lanes : LaneSet) (n : Nat) (v : DWord) (g : Group) : Group :=
  match n with
  | 0x0020 => { g with threads := listMapIdx (fun l t => if lanes.has l then { t with febudget := v.extractLsb' 0 32 } else t) 0 g.threads }
  | 0x0022 => { g with srkey := v }
  | 0x0023 => { g with stallchk := v.getLsbD 0 }
  | 0x0030 => { g with trapvec := v &&& ~~~3#64 }
  | 0x0031 => { g with trapcause := v.extractLsb' 0 17 }
  | 0x0033 => { g with trappc := v &&& ~~~3#64 }
  | _ => g

/-- R186, R195, R199 to R201: what each reading of status sends to its G register or pair. -/
def statusRead (i : Instr) (s : State) (g : Group) : Option (List (Reg × Word)) :=
  let l := s.launch g.launch
  let t := s.team g.team
  match i with
  | .cpystat _ d a => some (pairOf .g d (match ticketStatus s g.team (g.gval a) with
    | none => 0x12#64
    | some f => BitVec.ofNat 64 (f.state % 8 + (if f.poison then 8 else 0) + min f.clamp (2 ^ 32 - 1) * 2 ^ 32)))
  | .txstat _ d n => some [(.g d.toNat, BitVec.ofNat 32 (match t.tx, n.toNat with
    | none, _ => 0
    | some x, 0 => x.range
    | some x, 1 => x.cancel
    | some x, 2 => (x.logBytes.map (fun e => e.2)).sum
    | some x, _ => x.shadows.length))]
  | .getpk _ d e => some (pairOf .g d (if e = 0#1 then g.keyperm else l.keymax))
  | .rdtime _ d => some (pairOf .g d (BitVec.ofNat 64 s.time))
  | .digest _ d => some (pairOf .g d (if l.det then t.digest else 0#64))
  | _ => none

/-! ### Control -/

/-- A word on its own, or behind an EXT with a payload. -/
def runs (p : Prefix) (i : Instr) : Instr :=
  match p with
  | none => i
  | some e => .ext 0#2 e (wordOf i)

/-- R37: the target of a branch that stands at a site. -/
def targetOf (at_ : Site) (imm : DWord) : DWord := at_.next - 4#64 + (imm <<< 2)

/-- R145, R202: where each thread of the issue set goes after a branch. -/
def branch (i : Instr) (p : Prefix) (at_ : Site) (g : Group) : Option (Nat → DWord) :=
  match i with
  | .bra _ n => some (fun _ => targetOf at_ (immS p n))
  | .bnz _ c n => some (fun l => if g.val l c ≠ 0#32 then targetOf at_ (immS p n) else at_.next)
  | .bz _ c n => some (fun l => if g.val l c = 0#32 then targetOf at_ (immS p n) else at_.next)
  | .gbra _ n => some (fun _ => targetOf at_ (immS p n))
  | .gbnz _ c n => some (fun _ => if g.gval c ≠ 0#32 then targetOf at_ (immS p n) else at_.next)
  | .gbz _ c n => some (fun _ => if g.gval c = 0#32 then targetOf at_ (immS p n) else at_.next)
  | _ => none

/-- The issuing threads that could run stand at these addresses, and the others are as before. -/
def StandAt (at_ : Site) (g : Group) (pc : Nat → DWord) (t : State) : Prop :=
  ∃ g', Tab.get? t.groups at_.gid = some g' ∧ (∀ l, at_.lanes.has l = true → (g.thread l).wait = .run → (g'.thread l).pc = pc l)
    ∧ OthersKept at_.lanes g g'

/-- R146, R149: the entry that CALL, CALLR or MEET pushes in a thread, where the thread goes, and the meeting that MEET names. -/
def pushes (i : Instr) (p : Prefix) (at_ : Site) (g : Group) : Option ((Thread → StackEntry) × (Nat → DWord) × Option DWord) :=
  match i with
  | .call _ n => some (fun _ => 0#1 ++ 0#7 ++ at_.next.extractLsb' 0 56, fun _ => targetOf at_ (immS p n), none)
  | .callr _ a => some (fun _ => 0#1 ++ 0#7 ++ at_.next.extractLsb' 0 56, fun l => g.val64 l a, none)
  | .meet _ n => some (fun t => 1#1 ++ 0#7 ++ t.meet.extractLsb' 0 56, fun _ => at_.next, some (targetOf at_ (immS p n)))
  | _ => none

/-- R20, R21: the address of entry `k` of a thread's spill slot. -/
def slotAddr (l : Launch) (g : Group) (lane k : Nat) : Nat := l.stack + (g.seat * g.width + lane) * l.stksz + 8 * k

/-- R21: the lanes of an issue set whose stacks are full on the chip, so that a push spills their oldest on-chip entry. -/
def fullLanes (at_ : Site) (g : Group) : List Nat := (LaneSet.toList at_.lanes).filter (fun l => decide (4 ≤ (g.thread l).stack.length))

/-- A byte of memory after these bytes have been written, in order, to these addresses. -/
def storedBytes (ws : List (Nat × List Byte)) (m : Nat → Byte) (a : Nat) : Byte :=
  ws.foldl (fun b w => if w.1 ≤ a ∧ a < w.1 + w.2.length then w.2.getD (a - w.1) b else b) (m a)

/-- No access and no condition waits at any sector. -/
def NoWaiters (s : State) : Prop := ∀ sector, waitersOf s sector = []

/-- What a group is after a taken trap (R217): the trap registers, its issuing threads at TRAPVEC, the others as before. -/
structure Entered (at_ : Site) (g : Group) (code detail : Nat) (lanes : LaneSet) (addr pc : DWord) (t : State) : Prop where
  group : ∃ g', Tab.get? t.groups at_.gid = some g' ∧ g'.handler = true ∧ g'.trapcause = causeBits code detail at_.pfx.isSome
    ∧ g'.traplanes = lanes ∧ g'.trapaddr = addr ∧ g'.trapword = at_.word ∧ g'.trapf = trapF at_.pfx at_.word ∧ g'.trappc = pc
    ∧ g'.hset = at_.lanes ∧ g'.trapvec = g.trapvec ∧ g'.frozen = false
    ∧ (∀ l, at_.lanes.has l = true → (g.thread l).wait = .run → (g'.thread l).pc = g.trapvec)
    ∧ (∀ l r, g'.reg l r = g.reg l r) ∧ OthersKept at_.lanes g g'

/-- A group frozen with a cause (R220): the trap registers, and that it stands. -/
structure Froze (at_ : Site) (g : Group) (code detail : Nat) (lanes : LaneSet) (addr : DWord) (t : State) : Prop where
  group : ∃ g', Tab.get? t.groups at_.gid = some g' ∧ g'.frozen = true ∧ g'.trapcause = causeBits code detail at_.pfx.isSome
    ∧ g'.traplanes = lanes ∧ g'.trapaddr = addr ∧ g'.trappc = at_.pc ∧ g'.trapword = at_.word ∧ g'.cur = 0#64
    ∧ (∀ l r, g'.reg l r = g.reg l r)
    ∧ (∀ l, at_.lanes.has l = false → KeepsStack (g.thread l) (g'.thread l) ∧ (g'.thread l).pc = (g.thread l).pc)

/-- The issue set enters the handler for a cause with TRAPPC at the instruction, before any effect. -/
def Traps (i : Instr) (s : State) (at_ : Site) (g : Group) (code detail : Nat) (lanes : LaneSet) (addr : DWord) : Prop :=
  ∃ t, exec i s = .next t ∧ Entered at_ g code detail lanes addr at_.pc t ∧ t.mem = s.mem ∧ t.reqs = s.reqs

/-- R228, R230: a comparator halts the group before any effect: what its debug registers say, and that the group is as it was. -/
def ComparatorHalts (i : Instr) (s : State) (at_ : Site) (core slot reason comp : Nat) (lanes : LaneSet) : Prop :=
  ∃ t g g' d, exec i s = .next t ∧ Tab.get? s.groups at_.gid = some g ∧ Tab.get? t.groups at_.gid = some g' ∧ g'.halted = true
    ∧ (t.core core).debugSlots[slot]? = some d ∧ d.reason = reason ∧ d.comp = comp ∧ d.lanes = lanes ∧ d.pc = at_.pc
    ∧ g'.threads = g.threads ∧ (∀ l r, g'.reg l r = g.reg l r) ∧ t.mem = s.mem ∧ t.reqs = s.reqs

/-- R229: a comparator that is enabled for the group of a slot. -/
def forSlot (c : Comparator) (slot : Nat) : Prop := c.ctrl.getLsbD 3 = true ∨ bitsAt c.ctrl 4 4 = slot

/-- R229: a PC comparator matches the issue at a site. -/
def pcTakes (c : Comparator) (slot : Nat) (at_ : Site) : Prop :=
  c.ctrl.getLsbD 0 = true ∧ c.addr = at_.pc ∧ forSlot c slot ∧ ∃ l, l < 64 ∧ c.lanes.has l = true ∧ at_.lanes.has l = true

/-- R229: a data comparator matches an access of a lane: which of reads and writes it is, its address and its size. -/
def dataTakes (c : Comparator) (slot lane : Nat) (rd wr : Bool) (va : DWord) (size : Nat) : Prop :=
  c.ctrl.getLsbD 0 = true ∧ forSlot c slot ∧ c.lanes.has lane = true
    ∧ ((c.ctrl.getLsbD 1 = true ∧ rd = true) ∨ (c.ctrl.getLsbD 2 = true ∧ wr = true))
    ∧ ∃ k, k < size ∧ (va + BitVec.ofNat 64 k) &&& c.mask = c.addr &&& c.mask

/-- R151, R204: the trap instructions. -/
def isTrap (i : Instr) : Bool :=
  match i with
  | .trapl _ _ | .trap _ _ => true
  | _ => false

/-! ### Memory forms (spec/07 R125 to R144, spec/08 R177 to R179, R191) -/

/-- R130, R131, R133: the load of a lane form: its path, size, sign, destination and addresses. -/
def laneLoadOf (i : Instr) (g : Group) : Option (Path × Nat × Bool × BitVec 7 × (Nat → DWord)) :=
  match i with
  | .ld _ d o a z => some (.gen, 2 ^ z.toNat, false, d, fun l => g.ea l a o)
  | .lds _ d o a z => some (.gen, 2 ^ z.toNat, true, d, fun l => g.ea l a o)
  | .ldk _ d o a z => some (.con, 2 ^ z.toNat, false, d, fun l => g.ea l a o)
  | .ldga _ d o a z => some (.gath, 2 ^ z.toNat, false, d, fun l => g.ea l a o)
  | .ldx _ d o a z => some (.gen, 2 ^ z.toNat, false, d, fun l => g.eax l (2 ^ z.toNat) a o)
  | _ => none

/-- R178: the load of a uniform form: its path, size, destination and address. -/
def uniformLoadOf (i : Instr) (p : Prefix) (g : Group) : Option (Path × Nat × BitVec 7 × DWord) :=
  match i with
  | .gld _ d a z n => some (.gen, 2 ^ z.toNat, d, g.areg a + immS p n)
  | .gldk _ d a z n => some (.con, 2 ^ z.toNat, d, g.areg a + immS p n)
  | _ => none

/-- R130, R133: the store of a lane form: its size, source and addresses. -/
def laneStoreOf (i : Instr) (g : Group) : Option (Nat × BitVec 7 × (Nat → DWord)) :=
  match i with
  | .st _ d o a z => some (2 ^ z.toNat, d, fun l => g.ea l a o)
  | .stx _ d o a z => some (2 ^ z.toNat, d, fun l => g.eax l (2 ^ z.toNat) a o)
  | _ => none

/-- The bytes of `size` that a register and those after it hold, the lowest first (R5, R40). -/
def bytesOf (r : Nat → Word) (size : Nat) : List Byte :=
  (List.range size).map (fun k => BitVec.ofNat 8 ((r (k / 4)).toNat / 2 ^ (8 * (k % 4))))

/-- The parts of a load, one for each issuing lane. -/
def loadParts (at_ : Site) (size : Nat) (sg : Bool) (d : BitVec 7) (ea : Nat → DWord) (pa : Nat → Nat) : List LoadPart :=
  (LaneSet.toList at_.lanes).map (fun l => { lane := some l, reg := d.toNat, va := ea l, pa := pa l, size := size, signed := sg })

/-- A state with a request of an instruction in flight. -/
def sent (i : Instr) (s : State) (at_ : Site) (g : Group) (dest : List Reg) (k : ReqKind) : State :=
  s.addReq ((ctxOf i s at_ g).req s dest k)

/-- R134, R144: the local accesses of the lane forms: size, whether they write, register and addresses. -/
def localOf (i : Instr) (g : Group) : Option (Nat × Bool × BitVec 7 × (Nat → Nat)) :=
  match i with
  | .ldl _ d o a z => some (2 ^ z.toNat, false, d, fun l => g.la l a o)
  | .stl _ d o a z => some (2 ^ z.toNat, true, d, fun l => g.la l a o)
  | .latadd _ d o a z | .latmin _ d o a z | .latmax _ d o a z | .latcas _ d o a z => some (typeSize z, true, d, fun l => g.la l a o)
  | _ => none

/-- R144: the operation of a local atomic, and its type. -/
def localAtomOf (i : Instr) : Option (AtomOp × BitVec 3) :=
  match i with
  | .latadd _ _ _ _ z => some (.add, z)
  | .latmin _ _ _ _ z => some (.min, z)
  | .latmax _ _ _ _ z => some (.max, z)
  | .latcas _ _ _ _ z => some (.cas, z)
  | _ => none

/-- R135: the full/empty forms but STFS: kind, access, destination registers, operand and register code. -/
def feOf (i : Instr) (g : Group) : Option (FeKind × Acc × List Reg × (Nat → DWord) × BitVec 7 × (Nat → DWord)) :=
  match i with
  | .ldw _ d o a => some (.ldw, .feRead, destRegs .v d.toNat 8, fun _ => 0#64, d, fun l => g.ea l a o)
  | .ldc _ d o a => some (.ldc, .atomic, destRegs .v d.toNat 8, fun _ => 0#64, d, fun l => g.ea l a o)
  | .stf _ d o a => some (.stf, .slice, [], fun l => g.val64 l d, d, fun l => g.ea l a o)
  | .feset _ d o a => some (.feset, .slice, [], fun l => (g.val l d).zeroExtend 64, d, fun l => g.ea l a o)
  | .feget _ d o a => some (.feget, .feRead, destRegs .v d.toNat 4, fun _ => 0#64, d, fun l => g.ea l a o)
  | _ => none

/-- R138, R140, R141: the atomics, which return the old value, and the reductions: operation, register, type and addresses. -/
def atomicOf (i : Instr) (g : Group) : Option (AtomOp × BitVec 7 × BitVec 3 × (Nat → DWord)) :=
  match i with
  | .atadd _ d o a z => some (.add, d, z, fun l => g.ea l a o)
  | .atmin _ d o a z => some (.min, d, z, fun l => g.ea l a o)
  | .atmax _ d o a z => some (.max, d, z, fun l => g.ea l a o)
  | .atand _ d o a z => some (.and, d, z, fun l => g.ea l a o)
  | .ator _ d o a z => some (.or, d, z, fun l => g.ea l a o)
  | .atxor _ d o a z => some (.xor, d, z, fun l => g.ea l a o)
  | .atxch _ d o a z => some (.xch, d, z, fun l => g.ea l a o)
  | .atcas _ d o a z => some (.cas, d, z, fun l => g.ea l a o)
  | _ => none
def reductionOf (i : Instr) (g : Group) : Option (AtomOp × BitVec 7 × BitVec 3 × (Nat → DWord)) :=
  match i with
  | .redadd _ d o a z => some (.add, d, z, fun l => g.ea l a o)
  | .redmin _ d o a z => some (.min, d, z, fun l => g.ea l a o)
  | .redmax _ d o a z => some (.max, d, z, fun l => g.ea l a o)
  | .redand _ d o a z => some (.and, d, z, fun l => g.ea l a o)
  | .redor _ d o a z => some (.or, d, z, fun l => g.ea l a o)
  | .redxor _ d o a z => some (.xor, d, z, fun l => g.ea l a o)
  | _ => none

/-- R142: the appends: whether a trial, register, size and addresses. -/
def appendOf (i : Instr) (g : Group) : Option (Bool × BitVec 7 × Nat × (Nat → DWord)) :=
  match i with
  | .append _ d o a z => some (false, d, 2 ^ z.toNat, fun l => g.ea l a o)
  | .appendt _ d o a z => some (true, d, 2 ^ z.toNat, fun l => g.ea l a o)
  | _ => none

/-- The accesses of the L-set's memory forms but the local ones: kind, size and addresses. -/
def accessesOf (i : Instr) (g : Group) : Option (Acc × Nat × (Nat → DWord)) :=
  match i with
  | .stfs _ _ o a => some (.slice, 8, fun l => g.ea l a o)
  | _ => (laneLoadOf i g).map (fun x => (.load, x.2.1, x.2.2.2.2)) <|> (laneStoreOf i g).map (fun x => (.store, x.1, x.2.2))
    <|> (feOf i g).map (fun x => (x.2.1, 8, x.2.2.2.2.2)) <|> (atomicOf i g).map (fun x => (.atomic, typeSize x.2.2.1, x.2.2.2))
    <|> (reductionOf i g).map (fun x => (.slice, typeSize x.2.2.1, x.2.2.2)) <|> (appendOf i g).map (fun x => (.append, x.2.2.1, x.2.2.2))

/-- The access of the G-set's memory forms. -/
def uniformAccessOf (i : Instr) (q : Prefix) (g : Group) : Option (Acc × Nat × DWord) :=
  match i, q with
  | .gld _ _ a z n, _ | .gldk _ _ a z n, _ => some (.load, 2 ^ z.toNat, g.areg a + immS q n)
  | .gst _ _ a z n, _ => some (.store, 2 ^ z.toNat, g.areg a + immS q n)
  | .gatom _ _ a z _, none => some (.atomic, typeSize z, g.areg a)
  | .sealPage _ _ a, none => some (.append, 1, g.gval64 a)
  | _, _ => none

/-- R126, R129, R243, R246: the first of its address checks that an access fails, by CODE and DETAIL: alignment, lease, key, class. -/
def accessFault (s : State) (g : Group) (acc : Acc) (size : Nat) (va : DWord) : Option (Nat × Nat) :=
  if va.toNat % size ≠ 0 then some (0x03, 0)
  else
    match if canonical va.toNat then (s.launch g.launch).translate va.toNat else none with
    | none => some (0x20, 0)
    | some (e, pa) =>
      if e.va + e.len < va.toNat + size ∨ (acc.reads = true ∧ e.rd = false) ∨ (acc.writes = true ∧ e.wr = false) then some (0x20, 0)
      else if acc.reads = true ∧ g.keyperm.getLsbD (2 * e.key) = false then some (0x21, 0)
      else if acc.writes = true ∧ g.keyperm.getLsbD (2 * e.key + 1) = false then some (0x21, 1)
      else if acc = .append then (if e.append then none else some (0x22, 0))
      else if acc.writes = true ∧ e.append = true then some (0x22, if s.sealed (e.pageBase pa) then 2 else 1)
      else if acc ≠ .load ∧ acc ≠ .store ∧ (aperture pa = 2 ∨ aperture pa = 3) then some (0x22, 0)
      else none

/-- R128: the atomics, FESET and the full/empty forms that may wait. -/
def forbiddenInTx (i : Instr) (g : Group) : Prop := (atomicOf i g).isSome = true ∨ ∃ x, feOf i g = some x ∧ x.1 ≠ .feget

/-- R128, R322, R323: inside a transaction accesses are entries of its store log, and nothing else happens. -/
structure Logged (at_ : Site) (g : Group) (x : Tx) (es : List LogEntry) (s t : State) : Prop where
  team : ∃ u' x', Tab.get? t.teams g.team = some u' ∧ u'.tx = some x' ∧ x'.log = x.log ++ es ∧ x'.shadows = x.shadows
  mem : t.mem = s.mem
  reqs : t.reqs = s.reqs
  onward : GoesOn at_ s t

/-- R322: the entry of the store log for an access of an issuing group. -/
def logged (at_ : Site) (g : Group) (lane : Option Nat) (pa : Nat) (va : DWord) (op : LogOp) : LogEntry :=
  { core := g.core, group := at_.gid, lane := lane, pa := pa, va := va, op := op }

/-- R323: the shadows that local writes at these places make: one of each 4 KiB segment that has none, with its bytes and its poison before the write,
in the overflow store of the core that writes (R389). -/
def newShadows (s : State) (g : Group) (x : Tx) (ps : List (Nat × LocalAt)) : List Shadow :=
  (freshSegments x ps).map (fun y =>
    { holder := g.core, core := y.2.core, lrf := y.2.lrf, base := segmentOf y.2, bytes := localBytes s { y.2 with off := segmentOf y.2 } 4096,
      bad := segmentPoison s y.2 })

/-- The lent and scratchpad bytes of every core are those of another state. -/
def SameLocal (s t : State) : Prop := ∀ c, (t.core c).lstore = (s.core c).lstore ∧ (t.core c).lrf = (s.core c).lrf

/-- R142: the request of an APPEND or APPENDT for one page: the lanes whose address lies in it, in ascending order, with their records. -/
def PageRequest (at_ : Site) (g : Group) (trial : Bool) (d : BitVec 7) (n : Nat) (ea : Nat → DWord) (page : Nat → Nat × DWord × Nat) (r : Req) : Prop :=
  r.group = at_.gid ∧ r.dest = [.v d.toNat] ∧ ∃ k, at_.lanes.has k = true ∧ (∀ l, l < k → at_.lanes.has l = true → (page l).1 ≠ (page k).1)
    ∧ (let mine := (LaneSet.toList at_.lanes).filter (fun l => (page l).1 == (page k).1)
       r.lanes = LaneSet.of mine ∧ r.kind = .append trial (page k).1 (page k).2.2 n
        (mine.map (fun l => { lane := l, va := ea l, bytes := bytesOf (fun j => g.reg l (lreg (d.toNat + j))) n })) d.toNat)

/-- R139: the request of an atomic or a reduction on a word holds its lanes, in ascending order, with their operands. -/
def WordRequest (at_ : Site) (g : Group) (op : AtomOp) (ty : BitVec 3) (dest : List Reg) (reg : Option Nat) (d : BitVec 7) (pa : Nat → Nat) (r : Req) :
    Prop :=
  r.group = at_.gid ∧ r.dest = dest ∧ ∃ w va, r.lanes = LaneSet.of ((LaneSet.toList at_.lanes).filter (fun l => pa l == w))
    ∧ r.kind = .atomic op ty va w (((LaneSet.toList at_.lanes).filter (fun l => pa l == w)).map (fun l =>
        { lane := some l, x := (atomOperands (fun k => g.reg l (lreg (d.toNat + k))) op ty).1,
          new := if reg.isSome then (atomOperands (fun k => g.reg l (lreg (d.toNat + k))) op ty).2 else 0#64 })) reg


/-! ### Synchronisation, engines, transactions and the Loom (spec/08 R167 to R197, spec/16 R301 to R328) -/

/-- A state with a result of an instruction in flight: D pending until it lands. -/
def replied (i : Instr) (s : State) (at_ : Site) (g : Group) (ws : List (Reg × Word)) : State :=
  sent i s at_ g (ws.map (·.1)) (.value (asWrites none ws))

/-- R170: how many arrivals a phase of a barrier awaits: as the first arrival set it, from G[A] and GPT. -/
def expected (s : State) (g : Group) (a : BitVec 7) (n : Nat) : Nat :=
  let b := (s.team g.team).bars.getD n Barrier.start
  let cnt := (g.gval a).toNat
  let gpt := (s.launch g.launch).gpt
  if b.arrived = 0 then (if cnt = 0 ∨ gpt < cnt then gpt else cnt) else b.expect

/-- R170: a barrier of the issuing group's team. -/
def barOf (s : State) (g : Group) (n : Nat) : Barrier := (s.team g.team).bars.getD n Barrier.start

/-- R171: the highest GROUPID among the wait-form arrivals of a phase, with this one. -/
def highAfter (s : State) (g : Group) (n : Nat) (waits : Bool) : Option Nat :=
  if waits then some (match (barOf s g n).highWait with
    | some h => max h g.gid
    | none => g.gid)
  else (barOf s g n).highWait

/-- R170, R171: what BAR reads at the end of a phase: the phase, and LAST for the group whose arrival completed it, or, in a deterministic launch, for the
wait-form arrival of the highest GROUPID. -/
def phaseResult (s : State) (g : Group) (n : Nat) (waits completed : Bool) (waiter : Option Nat) : Word :=
  (if (if (s.launch g.launch).det then waiter.isSome && highAfter s g n waits == waiter else completed || waiter == some g.gid) then 1#1 else 0#1)
    ++ (barOf s g n).phase

/-- R169: the two forms of BAR: whether it waits, D, A and the barrier. -/
def barrierOf (i : Instr) : Option (Bool × BitVec 7 × BitVec 7 × Nat) :=
  match i with
  | .barWait _ d a n => some (true, d, a, n.toNat)
  | .barArrive _ d a n => some (false, d, a, n.toNat)
  | _ => none

/-- R173, R174: the entries of a wait block, with the physical addresses of their words. -/
def waitEntries (block : Nat) (pa : Nat → Nat) : List WaitEntry := (List.range 4).map (fun k => { parseWait block k with pa := pa k })

/-- R173, R174: a wait block that WAIT takes: it has no defect, its words are readable, and it names no deferred command. -/
structure WaitAccepted (s : State) (g : Group) (block : Nat) (pa : Nat → Nat) : Prop where
  loom : (s.launch g.launch).ttab ≠ 0 ∨ ∀ k, k < 4 → (parseWait block k).kind ≠ 5
  form : waitBad block = false
  words : ∀ k, k < 4 → if (parseWait block k).ofMemory then waitAccess s g (parseWait block k) = .ok (pa k) else pa k = 0
  tickets : ∀ k, k < 4 → (parseWait block k).kind = 3 → ∀ e ∈ s.cmds, e.2.team = g.team → e.2.state = 4 →
    e.2.ticket ≠ (parseWait block k).addr.extractLsb' 0 32

/-- R25: threads of an issue set stand blocked at their instruction. -/
def BlockedAt (at_ : Site) (id : Nat) (kind : BlockKind → Prop) (t : State) : Prop :=
  ∃ g' b, Tab.get? t.groups at_.gid = some g' ∧ Tab.get? g'.blocks id = some b ∧ b.lanes = at_.lanes ∧ b.next = at_.next ∧ kind b.kind
    ∧ ∀ l, at_.lanes.has l = true → (g'.thread l).wait = .block id ∧ (g'.thread l).pc = at_.pc

/-- R180, R182: a posted command: the next ticket, and the command in the reservation table. -/
def posted (i : Instr) (s : State) (at_ : Site) (g : Group) (d : BitVec 7) (k : Cmd) : State :=
  replied i { s.modTeam g.team (fun t => { t with ticket := nextTicket t.ticket }) with cmds := Tab.put s.cmds s.uid k, uid := s.uid + 1 } at_ g
    [(.g d.toNat, k.ticket)]

/-- R192, R319, R329: the rung at which a transaction starts. -/
def firstRung (s : State) (l : Launch) (t : Team) (n tile top : Nat) : Nat :=
  let predicted := if l.det then 0 else (match assayWay s l n tile with
    | some w => min w.rung top
    | none => 0)
  match t.replay with
  | some r => if r.ladder = n ∧ r.tile = tile then r.rung else predicted
  | none => predicted

/-- R187: a carter command that an open transaction of a team has deferred. -/
def deferredBy (team : Nat) (e : Nat × Cmd) : Bool := e.2.team == team && e.2.state == 4

/-- R329: the assay table after an outcome that gives a transaction's tag a rung and a CALM count: its way is the most recent of its set of four, and every
other set is as before. -/
def AssaySet (s t : State) (l : Launch) (x : Tx) (rung calm : Nat) : Prop :=
  Tab.get? t.assay (x.tile % 4096) = some (((⟨l.ctxid, l.entry, x.ladder, rung, calm⟩ : AssayWay)
      :: (Tab.getD s.assay (x.tile % 4096) []).filter (fun v => !(v.ctx == l.ctxid && v.entry == l.entry && v.ladder == x.ladder))).take 4)
    ∧ ∀ k, k ≠ x.tile % 4096 → Tab.get? t.assay k = Tab.get? s.assay k

/-- R329: the assay table after a calm commit. -/
def AssayCalm (s t : State) (l : Launch) (x : Tx) : Prop :=
  (assayWay s l x.ladder x.tile = none → t.assay = s.assay)
    ∧ ∀ w, assayWay s l x.ladder x.tile = some w →
      AssaySet s t l x (if w.calm + 1 = 3 then w.rung - 1 else w.rung) (if w.calm + 1 = 3 then 0 else w.calm + 1)

/-- R187, R222: a team's deferred commands are gone, each with STATE 5, and every other command is as it was. -/
structure DeferredDropped (team : Nat) (u u' : Team) (s t : State) : Prop where
  held : u'.finished = (((s.cmds.filter (deferredBy team)).reverse.map (fun e =>
    ({ ticket := e.2.ticket, state := 5, poison := false, clamp := 0 } : CpyStatus))) ++ u.finished).take 16
  gone : ∀ e ∈ t.cmds, e ∈ s.cmds ∧ deferredBy team e = false
  kept : ∀ e ∈ s.cmds, (∀ e' ∈ s.cmds, e'.1 = e.1 → deferredBy team e' = false) → e ∈ t.cmds

/-- No WAIT is blocked on an event inside the device: a ticket, a barrier or a Loom accumulator (R174, R175). -/
def NoInnerWaits (s : State) : Prop :=
  ∀ e ∈ s.groups, ∀ b ∈ e.2.blocks, ∀ es any t0 dest, b.2.kind = .wait es any t0 dest → ∀ w ∈ es, w.kind < 3

/-- No park record is held. -/
def NoParks (s : State) : Prop :=
  (∀ e ∈ s.reqs, ∀ k l va pa d r i, e.2.kind ≠ .fe k l va pa d r (.parked i))
    ∧ ∀ e ∈ s.groups, ∀ b ∈ e.2.blocks, ∀ es any t0 dest, b.2.kind = .wait es any t0 dest → ∀ w ∈ es, ∀ i, w.watch ≠ .parked i

/-- R323: the shadows of a transaction are of distinct whole segments. -/
def ShadowsDistinct (x : Tx) : Prop :=
  (∀ h ∈ x.shadows, h.bytes.length = 4096 ∧ h.base % 4096 = 0 ∧ ∀ w ∈ h.bad, w < 512)
    ∧ x.shadows.Pairwise (fun a b => ¬ (a.core = b.core ∧ a.lrf = b.lrf ∧ a.base = b.base)
      ∧ segmentPa a.core a.lrf a.base ≠ segmentPa b.core b.lrf b.base)

/-- R194, R323, R389: the segments that a transaction shadowed hold the bytes and the poison of their shadows, and every other byte of the local stores and of
the lent register files is as it was. -/
structure ShadowsBack (x : Tx) (s t : State) : Prop where
  pad : ∀ h ∈ x.shadows, h.lrf = false → ∀ k, k < 4096 → Sparse.get 0#8 (t.core h.core).lstore (h.base + k) = h.bytes.getD k 0#8
  lent : ∀ h ∈ x.shadows, h.lrf = true → ∀ k, k < 1024 →
    Sparse.get 0#32 (t.core h.core).lrf (h.base / 4 + k) = BitVec.ofNat 32 (leNat ((h.bytes.drop (4 * k)).take 4))
  poison : ∀ h ∈ x.shadows, ∀ k, k < 512 → NatSet.mem t.poison (segmentPa h.core h.lrf h.base / 8 + k) = NatSet.mem h.bad k
  padRest : ∀ c a, (∀ h ∈ x.shadows, h.lrf = false → h.core = c → a < h.base ∨ h.base + 4096 ≤ a) →
    Sparse.get 0#8 (t.core c).lstore a = Sparse.get 0#8 (s.core c).lstore a
  lentRest : ∀ c a, (∀ h ∈ x.shadows, h.lrf = true → h.core = c → a < h.base / 4 ∨ h.base / 4 + 1024 ≤ a) →
    Sparse.get 0#32 (t.core c).lrf a = Sparse.get 0#32 (s.core c).lrf a

/-- R305: a quad of G registers as a Loom command reads it. -/
def quadOf (g : Group) (q : BitVec 4) : Quad :=
  { first := g.greg (4 * q.toNat), row := (g.greg (4 * q.toNat + 1)).toNat, col := (g.greg (4 * q.toNat + 2)).toNat,
    last := g.greg (4 * q.toNat + 3) }

/-- R306, R307, R312: the row and column of a quad after a command: each has grown by its half of G(4q+3), as a signed number. -/
def quadAfter (q : BitVec 4) (x : Quad) : List (Reg × Word) :=
  [(.g (4 * q.toNat + 1), BitVec.ofNat 32 x.row + (x.last.extractLsb' 0 16).signExtend 32),
   (.g (4 * q.toNat + 2), BitVec.ofNat 32 x.col + (x.last.extractLsb' 16 16).signExtend 32)]

/-- R301: the state in which a Loom command of the group is posted under number `s.uid`. -/
def LoomPosted (at_ : Site) (g : Group) (op : LoomOp) (s t : State) : Prop :=
  ∃ x, Tab.get? t.looms s.uid = some x ∧ x.op = op ∧ x.core = g.core ∧ x.team = g.team ∧ x.group = at_.gid ∧ x.lanes = at_.lanes ∧ x.nextStep = 0
    ∧ x.tx = (s.team g.team).tx.map (fun y => y.id)

/-- R292, R301: a Loom launch, and room on the core. -/
def LoomOpen (s : State) (g : Group) : Prop := (s.launch g.launch).ttab ≠ 0 ∧ loomFull s g.core = false

/-! ### Events: what happens without an instruction word -/

/-- Memory in `t` is that of `s` with these bytes at an address. -/
def Stored (s t : State) (pa : Nat) (bytes : List Byte) : Prop :=
  ∀ a, t.byte a = if pa ≤ a ∧ a < pa + bytes.length then bytes.getD (a - pa) 0#8 else s.byte a

/-- R63, R150: a register after writes land: the last of those that name it, in a lane that has not ended. -/
def landed (g : Group) (ws : List RegWrite) (l : Nat) (r : Reg) : Word :=
  (((ws.filter (fun w => w.target == r && (match w.lane with
    | some k => k == l && (g.thread k).live
    | none => true))).getLast?).map (fun w => w.val)).getD (g.reg l r)

/-- R138: the word that an atomic's lanes leave, one after the other. -/
def atomFold (op : AtomOp) (ty : BitVec 3) (m : DWord) (ops : List AtomLane) : DWord := ops.foldl (fun m x => atomicF op ty m x.x x.new) m

/-- R135: what a full/empty access leaves of its word and of the bits. -/
structure FeDone (s t : State) (k : FeKind) (pa : Nat) (data : DWord) : Prop where
  word : if k = .stf ∨ k = .stfs then Stored s t pa (leBytes 8 data.toNat) else t.mem = s.mem
  bit : t.isFull pa = (match k with
    | .ldw | .feget => s.isFull pa
    | .ldc => false
    | .stf | .stfs => true
    | .feset => data.getLsbD 0)
  others : ∀ q, q / 8 ≠ pa / 8 → t.isFull q = s.isFull q

/-- R135: the word that a full/empty form reads. -/
def feWord (s : State) (k : FeKind) (pa : Nat) : DWord :=
  if k = .feget then (if s.isFull pa then 1#64 else 0#64) else BitVec.ofNat 64 (s.read pa 8)

/-- R256 to R258: a thread set of a group waits in a WAIT of which one entry is used, on a word of memory; a monitor holds it, and nothing else waits on its
sector; no handler of the group is open (R218). -/
structure AwaitsOne (s : State) (gid id k : Nat) (g : Group) (b : Block) (e : WaitEntry) (any : Bool) (dest : Nat) : Prop where
  group : Tab.get? s.groups gid = some g
  block : Tab.get? g.blocks id = some b
  kind : ∃ es t0, b.kind = .wait es any t0 dest ∧ es[k]? = some e ∧ ∀ j x, es[j]? = some x → j ≠ k → x.kind = 0 ∧ ∀ i, x.watch ≠ .parked i
  held : ∃ m, e.watch = .monitor m
  alone : waitersOf s (e.pa / 64) = [.cond gid id k]
  fresh : b.woken = none
  runs : g.halted = false
  own : g.handler = false

/-- R174, R175: the condition of an entry on a word of memory. -/
def holdsOn (s : State) (e : WaitEntry) : Bool :=
  if e.kind = 1 then
    (if e.size8 then compareBy e.cmp (BitVec.ofNat 64 (s.read e.pa 8)) e.value
     else compareBy e.cmp (BitVec.ofNat 32 (s.read e.pa 4)) (e.value.extractLsb' 0 32))
  else s.isFull e.pa == e.value.getLsbD 0

/-- R175: that WAIT has ended, with ANY the number of its entry, else 4: its threads go on, and nothing else of its group's G registers changes. -/
def WaitEnded (gid id k : Nat) (g : Group) (b : Block) (any : Bool) (dest : Nat) (t : State) : Prop :=
  ∃ g', Tab.get? t.groups gid = some g' ∧ Tab.get? g'.blocks id = none ∧ g'.greg dest = (if any then BitVec.ofNat 32 k else 4#32)
    ∧ (∀ m, m ≠ dest → g'.greg m = g.greg m) ∧ ∀ l, (g.thread l).wait = .block id → (g'.thread l).wait = .run ∧ (g'.thread l).pc = b.next

/-- R175, R218: what a blocked issue set waited for has come: its threads go on, or, where a handler of the group is open, keep their places, to go on after
TRAPRET. -/
def WentOn (g : Group) (id : Nat) (next : DWord) (g' : Group) : Prop :=
  (g.handler = false → Tab.get? g'.blocks id = none ∧ ∀ l, (g.thread l).wait = .block id → (g'.thread l).wait = .run ∧ (g'.thread l).pc = next)
    ∧ (g.handler = true → (∃ b, Tab.get? g'.blocks id = some b ∧ b.kind = .over ∧ b.next = next)
      ∧ ∀ l, (g.thread l).wait = .block id → (g'.thread l).wait = .block id ∧ (g'.thread l).pc = (g.thread l).pc)

/-- R257: the park record of a full/empty access, with what the record names. -/
def parkRecordOf (g : Group) (k : FeKind) (lane pa : Nat) (data : DWord) : Nat :=
  (pa + (match k with
    | .ldw => 1
    | .ldc => 2
    | _ => 3) * 2 ^ 48 + (if k = .stf then 0 else 2 ^ 51) + g.core * 2 ^ 64 + g.seat * 2 ^ 80 + lane * 2 ^ 96
    + (if k = .stf then data.toNat else 0) * 2 ^ 128) % 2 ^ 256

/-- R302: one ready step is granted before another: one that 16 grants have passed over, then by PRIO, age and k. -/
def grantedFirst (a b : ReadyStep) : Prop :=
  (16 ≤ a.passed ∧ b.passed < 16) ∨ ((16 ≤ a.passed ↔ 16 ≤ b.passed)
    ∧ (b.of.prio < a.of.prio ∨ (a.of.prio = b.of.prio ∧ (a.cmd < b.cmd ∨ (a.cmd = b.cmd ∧ a.k < b.k)))))

/-- R325: a task waits to be run again at a rung, and no group of its team is left. -/
def Requeued (t : State) (team launch : Nat) (r : ReplayTask) : Prop :=
  (∀ n g', Tab.get? t.groups n = some g' → g'.team ≠ team) ∧ ∃ l', Tab.get? t.launches launch = some l' ∧ r ∈ l'.replays

/-- R227, R390: what an 8-byte write leaves in a counter or a comparator, by its offset in a core's window. -/
def windowRegister (off : Nat) (v : DWord) : Option (Core → Core) :=
  let pc := fun (f : Comparator → Comparator) => some (fun (k : Core) => { k with pcs := listModify k.pcs ((off - 0x43100) / 0x20) f })
  let data := fun (f : Comparator → Comparator) => some (fun (k : Core) => { k with datas := listModify k.datas ((off - 0x43200) / 0x20) f })
  if 0x43100 ≤ off ∧ off < 0x43180 then
    match off % 0x20 with
    | 0x00 => pc (fun c => { c with addr := v })
    | 0x08 => pc (fun c => { c with lanes := v })
    | 0x10 => pc (fun c => { c with ctrl := BitVec.ofNat 32 (bitsAt v 0 8) })
    | _ => none
  else if 0x43200 ≤ off ∧ off < 0x43280 then
    match off % 0x20 with
    | 0x00 => data (fun c => { c with addr := v })
    | 0x08 => data (fun c => { c with mask := v })
    | 0x10 => data (fun c => { c with lanes := v })
    | 0x18 => data (fun c => { c with ctrl := BitVec.ofNat 32 (bitsAt v 0 8) })
    | _ => none
  else
    match off with
    | 0x44000 => some (fun k => { k with qclamp := v })
    | 0x44008 => some (fun k => { k with droppf := v })
    | 0x44010 => some (fun k => { k with fedrop := v })
    | 0x44018 => some (fun k => { k with cesram := v })
    | 0x44020 => some (fun k => { k with uesram := v })
    | _ => none

/-- R260, R262, R377, R384, R390: what an 8-byte write leaves in a register of a die's page, by its offset. -/
def dieRegister (off : Nat) (d : Nat) (v : DWord) (s : State) : Option State :=
  match off with
  | 0x008 => some (s.modDie d (fun x => { x with tailtab := v }))
  | 0x010 => some (s.modDie d (fun x => { x with replbase := v }))
  | 0x018 => some (s.modDie d (fun x => { x with replsize := v }))
  | 0x120 => some (s.modDie d (fun x => { x with cehbm := v }))
  | 0x128 => some (s.modDie d (fun x => { x with uehbm := v }))
  | 0x100 => some (if d = 0 then { s with mode := BitVec.ofNat 5 (bitsAt v 0 5) } else s)
  | 0x108 => some (if d = 0 then { s with weftSelf := bitsAt v 0 7, weftSize := bitsAt v 8 7 + 1 } else s)
  | _ => none

/-- R369, R374: the clocks of a cluster, in CLKCTL's codes. -/
def clocksOf (s : State) (cluster : Nat) : Nat × Nat × Nat :=
  let c := s.cluster cluster
  let safe := (s.die (cluster / 48)).upd || (s.die (cluster / 48)).expired || decide (s.boot.stage < 3)
  let floor := max (if c.droop.isSome then 2 else 0) (max c.cfloor (if safe then 1 else 0))
  if safe then (24, 1, max c.preq floor) else (bitsAt c.clkctl 0 6, bitsAt c.clkctl 6 2, max (bitsAt c.clkctl 8 2) floor)

/-- R374: from s to t the safe table begins on a die, if it was not in force: each cluster there keeps its PREQ. -/
def SafeBegun (s t : State) (d : Nat) : Prop :=
  ∀ c, (t.cluster c).clkctl = (s.cluster c).clkctl
    ∧ (c / 48 = d → (s.die d).upd = false → (s.die d).expired = false → s.boot.stage = 3 →
        (t.cluster c).preq = bitsAt (s.cluster c).clkctl 8 2)

/-- R386: the take of each operation: its queue and OP. -/
def ueTake (i : Instr) : Option (Nat × Nat) :=
  match i with
  | .ueSend q => some (q, 0)
  | .ueTaggedSend q => some (q, 1)
  | .uePut q => some (q, 2)
  | .ueGet q => some (q, 3)
  | .uePostTaggedReceive q => some (q, 4)
  | .uePostReceive q => some (q, 5)
  | _ => none

/-- R386: what a take sends to the endpoint in the entry at `e` of the context's table. -/
def sentPacket (s : State) (n : Nat) (c : Card) (e : Nat) (data : List Byte) : Packet :=
  let op := bitsAt c 0 3
  let rma := op = 2 ∨ op = 3
  { card := n, op := op, ports := if bitsAt c 8 8 = 0 then 0xFF else bitsAt c 8 8, address := BitVec.ofNat 128 (s.read e 16), job := s.read (e + 16) 4,
    deliv := bitsAt c 3 2, tag := if op = 1 then c.extractLsb' 256 64 else 0#64, rkey := if rma then c.extractLsb' 320 32 else 0#32,
    roff := if rma then c.extractLsb' 384 64 else 0#64, len := bitsAt c 192 32, data := data }

/-- R387: a byte of memory after bytes have filled a buffer, in its order, from an offset on. -/
def filledByte (buf : List Seg) (off : Nat) (data : List Byte) (m : Nat → Byte) (a : Nat) : Byte :=
  match ((List.range data.length).filter (fun i => ((pieceAt buf (off + i)).map (fun p => p.2)) = some a)).getLast? with
  | some i => data.getD i 0#8
  | none => m a

/-- R389, R390: the core whose CESRAM and UESRAM count an error. -/
def inCore (place : ErrorPlace) : Option Nat :=
  match place with
  | .sram core off _ => if off < 0x60000 then some core else none
  | .window core off _ => if errorWindow off then some core else none
  | .cache (.l1 core) _ _ _ => some core
  | _ => none

/-- R389: the 8-byte word of a core's window at an offset is poisoned. -/
def windowPoisoned (s : State) (core off : Nat) : Bool := NatSet.mem s.poison ((2 ^ 47 + core * 0x100000 + off) / 8)

/-! ### Cards (spec/18 R334 to R341, spec/01 R9 to R11, spec/12 R240, R241) -/

/-- R334, R335, R337, R338: what reports a refusal: STATE 3 in the ring entry, or a dispatcher record in the fault ring. -/
def reported (t : Take) (n fail offset : Nat) (s : State) : State :=
  match t.ring with
  | some r => wake r (s.poke (r + 0x10) (leBytes 8 (3 + fail * 2 ^ 8 + offset * 2 ^ 16 + n % 2 ^ 32 * 2 ^ 32)))
  | none => faultRecord t.ctx (dispatcherRecord 0x40 n (2 ^ 63 + fail * 256 + offset) t.card s) s

/-- R9 to R11, R332, R338: a card fails a condition that is reported at this offset. `rs` are the ranges that its list declares, none where the list cannot be
read; `malformed` says that another entry of it is malformed. Log 144. -/
def cardFault (l : Launch) (rs : Option (List DeclRange)) (malformed privOk : Bool) (off : Nat) : Prop :=
  let f := bitsAt l.card
  let ptr := fun (va align n : Nat) => va % align ≠ 0 ∨ (rs.map (fun r => insideRanges r (r.length + 1) va n)).getD true = false
  let flags := f 88 8 ≠ 0 ∨ 1 < l.priv ∨ (l.pair = true ∧ 2 ≤ l.heat) ∨ (l.priv = 1 ∧ privOk = false)
  let vregs := l.vregs = 0 ∨ 112 < l.vregs
  let gregs := l.gregs < 16 ∨ 64 < l.gregs
  let gpt := l.gpt = 0 ∨ (if l.pair then 32 else 16) < l.gpt
  let det := if l.det then l.nlog = 0 ∨ l.nwaves = 0 else l.nlog ≠ 0 ∨ l.nwaves ≠ 0 ∨ f 960 64 ≠ 0
  match off with
  | 0x00 => ptr (f 0 64) 4 4
  | 0x08 => 2 < f 64 8
  | 0x09 => 3 < l.heat
  | 0x0A => flags
  | 0x0C => vregs
  | 0x0D => gregs
  | 0x0E => gpt ∨ (f 64 8 ≤ 2 ∧ ¬ flags ∧ ¬ vregs ∧ ¬ gregs ∧ ¬ det ∧ ¬ (f 320 64 ≠ 0 ∧ l.spec = false) ∧ l.scratch ≤ 80
      ∧ l.scratch * 4 + l.ovmin * 32 ≤ 352 ∧ l.ovmin ≤ l.ovmax ∧ l.ovmax ≤ 11 ∧ fitsEmpty l = false)
  | 0x0F => l.nranges = 0 ∨ 64 < l.nranges
  | 0x10 => l.nteams = 0 ∨ (l.det = true ∧ l.nteams ≠ l.nlog * l.nwaves)
  | 0x14 => if l.det then l.nlog = 0 ∨ (if 2 ≤ l.heat then 384 else 768) < l.nlog else l.nlog ≠ 0
  | 0x16 => if l.det then l.nwaves = 0 else l.nwaves ≠ 0
  | 0x18 => malformed = true ∨ rs = none ∨ ptr (f 192 64) 8 (32 * l.nranges)
  | 0x20 => l.ttab ≠ 0 ∧ ptr l.ttab 64 16384
  | 0x28 => f 320 64 ≠ 0 ∧ (l.spec = false ∨ ptr (f 320 64) 64 1024)
  | 0x30 => 80 < l.scratch
  | 0x31 => 352 < l.scratch * 4 + l.ovmin * 32
  | 0x32 => 11 < l.ovmax ∨ l.ovmax < l.ovmin
  | 0x33 => f 408 8 ≠ 0
  | 0x34 => l.parksz % 32 ≠ 0
  | 0x38 => if l.parksz = 0 then l.park ≠ 0 else ptr l.park 32 l.parksz
  | 0x40 => if l.stksz = 0 then l.stack % 8 ≠ 0 else ptr l.stack 8 (12288 * (16 * 2 ^ min (f 64 8) 2) * l.stksz)
  | 0x48 => if l.stksz = 0 then l.stack ≠ 0 else l.stksz % 8 ≠ 0 ∨ 4096 < l.stksz
  | 0x4A => f 592 48 ≠ 0
  | 0x50 => f 640 64 ≠ 0 ∧ ptr (f 640 64) 8 8
  | 0x58 => f 704 64 ≠ 0 ∧ ptr (f 704 64) 8 8
  | 0x60 => ptr l.compw 8 8
  | 0x70 => ptr (f 896 64) 8 64
  | 0x78 => l.det = false ∧ f 960 64 ≠ 0
  | _ => False

/-- R11, R340: COMPW of an invalid card can carry its failure, to this address. -/
def Carries (s : State) (ctx : Nat) (l : Launch) (pa : Nat) : Prop :=
  let list := bitsAt l.card 192 64
  l.compw % 8 = 0 ∧ list % 8 = 0 ∧ (∀ k, k < l.nranges → (ctxRead s ctx (list + 32 * k) 4).isSome = true)
    ∧ (∃ k x, k < l.nranges ∧ ctxRead s ctx (list + 32 * k) 4 = some x ∧ rangeBad x = false ∧ (parseRange x).wr = true
        ∧ (parseRange x).base.toNat ≤ l.compw ∧ l.compw + 8 ≤ (parseRange x).base.toNat + (parseRange x).len.toNat)
    ∧ ∃ f, walk s ctx l.priv l.compw = .leaf f ∧ pa = f.frame + l.compw % pageSize f.level ∧ f.append = false
        ∧ (ctxKeymax s ctx).getLsbD (2 * f.key + 1) = true ∧ (aperture pa = 2 → l.priv = 1)

/-- R11, R337: what the refusal of an invalid card leaves: its failure in COMPW where that can carry it, and in the ring entry, or in the fault ring
where neither can. -/
def Refused (t : Take) (n : Nat) (l : Launch) (offset : Nat) (s u : State) : Prop :=
  ((∀ pa, ¬ Carries s t.ctx l pa) → u = reported t n 0 offset s)
    ∧ ∀ pa, Carries s t.ctx l pa → aperture pa = 0 → NoWaiters s → ∃ v, Stored s v pa (leBytes 8 (2 ^ 63 + offset)) ∧ v.isFull pa = true
      ∧ u = (match t.ring with
        | some _ => reported t n 0 offset v
        | none => v)

/-- R241: ACC and DIRTY on the leaves of a lease, and nothing else. -/
def LeavesMarked (ps : Tab Page) (s u : State) : Prop :=
  (∀ e ∈ ps, (u.read e.2.pte 8).testBit 10 = true ∧ (e.2.wr = true → (u.read e.2.pte 8).testBit 11 = true))
    ∧ ∀ a, (∀ e ∈ ps, a < e.2.pte ∨ e.2.pte + 8 ≤ a) → u.byte a = s.byte a

/-- R241, R258, R338, R341: what the acceptance of a card leaves: its launch, which waits for its gates; its park pool, all zeros; STATE 1 in its ring
entry; and no team. -/
structure Accepted (t : Take) (n : Nat) (l : Launch) (s u : State) : Prop where
  launch : ∃ k, Tab.get? u.launches n = some k ∧ k.ctx = l.ctx ∧ k.card = l.card ∧ k.prio = l.prio ∧ k.extents = l.extents ∧ k.heir = l.heir
    ∧ k.leased = l.heir.isNone ∧ k.phase = (if k.gates.all (fun g => g.resolved) then .running else .gated)
    ∧ k.gates.map (fun g => g.pa) = (([bitsAt l.card 640 64, bitsAt l.card 704 64].filter (fun va => va != 0)).map (fun va =>
        ((l.translate va).map (fun e => e.2)).getD 0))
    ∧ ∀ g ∈ k.gates, g.resolved = true ↔ peerAnswers s g.pa = true ∧ s.isFull g.pa = true
  others : ∀ m, m ≠ n → Tab.get? u.launches m = Tab.get? s.launches m
  teams : u.teams = s.teams ∧ u.groups = s.groups
  pool : ∀ i a, i < l.parksz / 32 → l.parkRecord i ≤ a → a < l.parkRecord i + 32 → (∀ r, t.ring = some r → a < r + 0x10 ∨ r + 0x18 ≤ a) → u.byte a = 0#8
  ring : ∀ r, t.ring = some r → u.read (r + 0x10) 8 = 1 + n % 2 ^ 32 * 2 ^ 32
  kept : ∀ a, (∀ i, i < l.parksz / 32 → a < l.parkRecord i ∨ l.parkRecord i + 32 ≤ a) → (∀ r, t.ring = some r → a < r + 0x10 ∨ r + 0x18 ≤ a) →
    u.byte a = s.byte a

/-- R335, R336: the queue that is served: ready, of the highest priority, and the first in turn after the last one served at it. Log 114. -/
def QueueOrder (s : State) : Prop :=
  ∀ n, nextQueue s = some n → n < 256 ∧ ∃ p, queuePrio s n = some p ∧ (∀ k q, k < 256 → queuePrio s k = some q → q ≤ p)
    ∧ ∀ k, k < 256 → queuePrio s k = some p →
      (n + 256 - (Tab.getD s.lastQueue p 255 + 1) % 256) % 256 ≤ (k + 256 - (Tab.getD s.lastQueue p 255 + 1) % 256) % 256

/-- R338, R351, R352: a queue entry leads to its card, through a bucket table where it names one; one that cannot be read is refused with FAIL 4. -/
def EntryRead (out : Nat → Nat → List Byte → State → State) (t : Take) (s : State) : Prop :=
  let n := s.nextLaunch
  let s1 := { s with nextLaunch := if n + 1 = 2 ^ 32 then 1 else n + 1 }
  let table := t.bucket = true ∨ (t.parent.isSome = true ∧ ctxRead8 s t.ctx t.card = some bucketTag)
  ((t.card % 8 ≠ 0 ∨ ctxRead8 s t.ctx t.card = none) → acceptEntry out t s = reported t n 4 0 s1)
    ∧ (t.card % 8 = 0 → ¬ table →
      (ctxRead s t.ctx t.card 16 = none → acceptEntry out t s = reported t n 4 0 s1)
      ∧ ∀ c, ctxRead s t.ctx t.card 16 = some c → acceptEntry out t s = takeCard out t n (BitVec.ofNat 1024 c) [] s1)
    ∧ (t.card % 8 = 0 → table →
      (∀ f o, resolveBucket s t.ctx t.card = .error (f, o) → acceptEntry out t s = reported t n f o s1)
      ∧ ∀ va shapes, resolveBucket s t.ctx t.card = .ok (va, shapes) →
        (va % 8 ≠ 0 ∨ ctxRead s t.ctx va 16 = none → acceptEntry out t s = reported t n 4 0 s1)
        ∧ ∀ c, va % 8 = 0 → ctxRead s t.ctx va 16 = some c →
          acceptEntry out t s = takeCard out { t with card := va } n (BitVec.ofNat 1024 c) shapes s1)

/-- R11: a card that fails a condition is refused at the least offset of those it fails. -/
def CardChecked (t : Take) (n : Nat) (card : BitVec 1024) (shapes : List Word) (s : State) : Prop :=
  let l := cardLaunch t card shapes s
  let rs := cardRanges s t.ctx l
  let fails := cardFault l rs (listMalformed s t.ctx l) (ctxPrivOk s t.ctx)
  ∀ off, fails off → (∀ o, o < off → ¬ fails o) → Refused t n l off s (takeCard writeCompletionUnit t n card shapes s)

/-- R241, R338, R339, R340: a card that passes them gets the extents that it inherits or that its walk finds; a check of R297, R298 or R340 may refuse it
still, as may a walk that meets a malformed entry or ends in more than 64 extents; one that meets a page that is not resident asks for it and waits; and
it is accepted. -/
def CardLeased (t : Take) (n : Nat) (card : BitVec 1024) (shapes : List Word) (s : State) : Prop :=
  let l := cardLaunch t card shapes s
  ∀ rs, cardRanges s t.ctx l = some rs → (∀ off, ¬ cardFault l (some rs) (listMalformed s t.ctx l) (ctxPrivOk s t.ctx) off) →
    let l1 := { l with ranges := rs }
    let u := takeCard writeCompletionUnit t n card shapes s
    (∀ root es, inherited s t l1 = some (root, es) →
      let l2 := ({ l1 with extents := es, heir := some root } : Launch).withTables s
      (leaseFault l2 = none → NoWaiters s → Accepted t n l2 s u)
      ∧ ∀ off, leaseFault l2 = some off → Refused t n l2 off { s with launches := Tab.del s.launches n } u)
    ∧ (∀ s2, inherited s t l1 = none → (walkRanges t.ctx l.priv rs [] s = (.invalid, s2)
        ∨ ∃ ps, walkRanges t.ctx l.priv rs [] s = (.pages ps, s2) ∧ 64 < (extentsOf false ps).length) →
      Refused t n l1 0x18 { s2 with launches := Tab.del s2.launches n } u)
    ∧ (∀ size va s2, inherited s t l1 = none → walkRanges t.ctx l.priv rs [] s = (.waits size va, s2) →
      ∃ k s3, Tab.get? s3.launches n = some k ∧ k.phase = .residency ∧ k.card = l.card ∧ k.ranges = rs ∧ { s3 with launches := s2.launches } = s2
        ∧ let s4 := faultRecord t.ctx (dispatcherRecord 0x44 n size va s3) s3
          u = (match t.ring with
            | some r => wake r (s4.poke (r + 0x10) (leBytes 8 (1 + n % 2 ^ 32 * 2 ^ 32)))
            | none => s4))
    ∧ ∀ ps s2, inherited s t l1 = none → walkRanges t.ctx l.priv rs [] s = (.pages ps, s2) → (extentsOf false ps).length ≤ 64 →
      let l2 := ({ l1 with extents := (extentsOf true ps).reverse } : Launch).withTables s2
      (leaseFault l2 = none → (∀ e ∈ ps, e.2.pte % 8 = 0) → NoWaiters s2 → ∃ s3, LeavesMarked ps s2 s3 ∧ Accepted t n l2 s3 u)
      ∧ ∀ off, leaseFault l2 = some off → Refused t n l2 off { s2 with launches := Tab.del s2.launches n } u

/-- R241: the walk of declared ranges, where it makes nothing resident, finds a page for every byte of them, with the permissions of every range that touches
it; and the extents of a table of pages hold them. -/
def WalkCovers (ctx priv : Nat) (rs : List DeclRange) (s : State) : Prop :=
  ∀ ps s2, walkRanges ctx priv rs [] s = (.pages ps, s2) →
    ((s.mode.getLsbD 0 = true ∨ s.read (ctx + 0x30) 8 = 0) → s2 = s ∧ ∀ r ∈ rs, ∀ a, r.base.toNat ≤ a → a < r.base.toNat + r.len.toNat → ∃ e ∈ ps, e.1 ≤ a ∧ a < e.1 + e.2.size
      ∧ (r.rd = true → e.2.rd = true) ∧ (r.wr = true → e.2.wr = true) ∧ (r.fetch = true → e.2.fetch = true))
    ∧ ∀ fine, ∀ e ∈ ps, ∃ x ∈ extentsOf fine ps, x.va ≤ e.1 ∧ e.1 + e.2.size ≤ x.va + x.len ∧ x.pa + (e.1 - x.va) = e.2.pa
      ∧ x.append = e.2.append ∧ x.qc = e.2.qc ∧ x.key = e.2.key ∧ x.rd = e.2.rd ∧ x.wr = e.2.wr ∧ x.fetch = e.2.fetch

/-- R241: a page is made resident: a frame of the free list, zeroed with every F/E bit empty, under a leaf of CLASS 0, QC 3 and KEY 0. -/
def MadeResident (ctx pte : Nat) (s : State) : Prop :=
  let top := s.read (ctx + 0x28) 8 + 0x10
  let n := s.read top 8
  s.mode.getLsbD 0 = false → s.read (ctx + 0x30) 8 ≠ 0 → n ≠ 0 → NoWaiters s →
    let s1 := s.write top 8 (n - 1)
    let frame := s1.read (s.read (ctx + 0x30) 8 + 8 * (n - 1)) 8 / 2 ^ 16 % 2 ^ 32 * 2 ^ 16
    ∃ u, makeResident ctx pte s = some u ∧ u.read pte 8 = frame + 0x1B
      ∧ (∀ a, frame ≤ a → a < frame + 0x10000 → (a < pte ∨ pte + 8 ≤ a) → u.byte a = 0#8)
      ∧ (∀ a, frame ≤ a → a < frame + 0x10000 → u.isFull a = false)
      ∧ ∀ a, (a < frame ∨ frame + 0x10000 ≤ a) → (a < pte ∨ pte + 8 ≤ a) → u.byte a = s1.byte a

/-- R339: a card inherits only from a parent of its context whose lease still holds, ranges that lie in the parent's extents, within their permissions. -/
def Inherits (s : State) (t : Take) (l : Launch) : Prop :=
  ∀ root es, inherited s t l = some (root, es) → ∃ p, t.parent = some p ∧ (s.launch p).ctx = t.ctx ∧ leaseHeld s root = true
    ∧ root = (s.launch p).heir.getD p
    ∧ (∀ r ∈ l.ranges, ∀ e ∈ (s.launch p).extents, r.base.toNat < e.va + e.len → e.va < r.base.toNat + r.len.toNat →
        (r.rd = true → e.rd = true) ∧ (r.wr = true → e.wr = true) ∧ (r.fetch = true → e.fetch = true))
    ∧ ((∀ e ∈ (s.launch p).extents, e.va < 2 ^ 64 ∧ e.len < 2 ^ 64) → ∀ r ∈ l.ranges, ∀ a, r.base.toNat ≤ a → a < r.base.toNat + r.len.toNat →
        ∃ e ∈ (s.launch p).extents, e.va ≤ a ∧ a < e.va + e.len)
    ∧ ∀ x ∈ es, ∃ e ∈ (s.launch p).extents, x.va = e.va ∧ x.pa = e.pa ∧ x.len = e.len ∧ x.key = e.key ∧ x.qc = e.qc ∧ x.append = e.append
        ∧ let touching := l.ranges.filter (fun r => decide (r.base.toNat < e.va + e.len ∧ e.va < r.base.toNat + r.len.toNat))
          touching ≠ [] ∧ x.rd = (e.rd && touching.any (fun r => r.rd)) ∧ x.wr = (e.wr && touching.any (fun r => r.wr))
            ∧ x.fetch = (e.fetch && touching.any (fun r => r.fetch))

/-- R340: the words that the dispatcher reads and writes for an accepted launch. -/
def LeaseSound (l : Launch) : Prop :=
  leaseFault l = none →
    (∃ e pa, l.translate l.compw = some (e, pa) ∧ e.wr = true ∧ l.keymax.getLsbD (2 * e.key + 1) = true ∧ e.append = false
      ∧ (aperture pa = 2 → l.priv ≠ 0))
    ∧ ∀ va, va = bitsAt l.card 640 64 ∨ va = bitsAt l.card 704 64 → va ≠ 0 → ∃ e pa, l.translate va = some (e, pa) ∧ e.rd = true
      ∧ l.keymax.getLsbD (2 * e.key) = true ∧ aperture pa ≠ 2 ∧ aperture pa ≠ 3

/-- R345: the launches whose groups are pre-empted for a team: of lower PRIO, the lowest first and of one PRIO the youngest, no more of them than it takes
for the going of their groups to make some core qualify. -/
structure VictimsTaken (s : State) (n : Nat) (vs : List Nat) : Prop where
  lower : ∀ a ∈ vs, (s.launch a).prio < (s.launch n).prio ∧ ∃ e ∈ s.groups, e.2.launch = a ∧ e.2.resident = true
  order : vs.Pairwise (fun a b => (s.launch a).prio < (s.launch b).prio ∨ ((s.launch a).prio = (s.launch b).prio ∧ b < a))
  first : ∀ a ∈ vs, ∀ b l, b ∉ vs → Tab.get? s.launches b = some l → l.prio < (s.launch n).prio → (∃ e ∈ s.groups, e.2.launch = b ∧ e.2.resident = true) →
    (s.launch a).prio < l.prio ∨ ((s.launch a).prio = l.prio ∧ b < a)
  enough : ∃ c, c < 768 ∧ placeable (without (victimGroups s vs ((s.launch n).coresAt c)) s) n c = true
  fewest : ∀ us x, vs = us ++ [x] → ∀ c, c < 768 → placeable (without (victimGroups s us ((s.launch n).coresAt c)) s) n c = false

/-- R345: groups asked to go for a team of a launch on a core: groups of those launches there, whose going makes it qualify, and each was needed when it was
weighed; each is asked, and no other. -/
structure AsksToGo (s t : State) (n core : Nat) (vs need : List Nat) : Prop where
  victims : ∀ k ∈ need, ∃ g, Tab.get? s.groups k = some g ∧ g.launch ∈ vs ∧ g.resident = true ∧ g.frozen = false ∧ g.preempt = none
    ∧ g.core ∈ (s.launch n).coresAt core
  enough : placeable (without need (withoutAsked s)) n core = true
  needed : ∀ k ∈ need, ∃ keep : List Nat, (∀ m ∈ need, m ∈ keep) ∧ placeable (without (keep.filter (fun m => m != k)) (withoutAsked s)) n core = false
  asked : ∀ k ∈ need, ∀ g, Tab.get? s.groups k = some g → Tab.get? t.groups k = some { g with preempt := some { since := s.time } }
  others : ∀ k, k ∉ need → Tab.get? t.groups k = Tab.get? s.groups k
  launch : ∀ l, Tab.get? s.launches n = some l → Tab.get? t.launches n = some { l with asked := true }
  launches : ∀ m, m ≠ n → Tab.get? t.launches m = Tab.get? s.launches m
  rest : { t with groups := s.groups, launches := s.launches } = s

/-! ### The host and errors -/

/-- R383: the 8-byte operations of the host: their address, and what they store; a compare-and-swap that does not match stores nothing. -/
def hostOp (i : Instr) : Option (Nat × (DWord → Option DWord)) :=
  match i with
  | .myentFetchAdd pa add => some (pa, fun m => some (m + add))
  | .myentCompareAndSwap pa cmp new => some (pa, fun m => if m = cmp then some new else none)
  | _ => none

end Sys2Proof.Machine.Says

open Sys2Proof Sys2Proof.Machine Sys2Proof.Machine.Says

/-! ### Lane arithmetic -/

/-- R101, R102, R104: every integer and logic instruction of the L-set, of 32 bits, of 64 bits and unary, writes its result in the issuing lanes and changes
nothing else. -/
def Obligations.LaneIntegerResults : Prop :=
  ∀ (i : Instr) (s : State) (at_ : Site) (g : Group) (ws : Nat → List (Reg × Word)), laneInteger i g = some ws ∨ lanePair i g = some ws ∨ laneUnary i g = some ws →
       Issues i none s at_ g →
    ∃ t, exec i s = .next t ∧ Writes at_.gid (laneWrites at_ ws) s t ∧ IssueFrame at_ s t

/-- R103, R36, R123: the immediate forms that EXT may prefix, with no prefix, MOVI among them, and the immediate shifts and rotates. -/
def Obligations.LaneImmediateResults : Prop :=
  ∀ (i : Instr) (s : State) (at_ : Site) (g : Group) (ws : Nat → List (Reg × Word)), laneImmediate i none g = some ws ∨ laneShiftImmediate i g = some ws → Issues i none s at_ g →
    ∃ t, exec i s = .next t ∧ Writes at_.gid (laneWrites at_ ws) s t ∧ IssueFrame at_ s t

/-- R36, R57 to R59: an EXT pair whose follower is an immediate form of the L-set or of the uniform arithmetic computes with the wide immediate. -/
def Obligations.ExtPairResults : Prop :=
  ∀ (e : BitVec 21) (i : Instr) (s : State) (at_ : Site) (g : Group), decodeDefined (wordOf i) = some i → Issues i (some e) s at_ g →
    (∀ ws, laneImmediate i (some e) g = some ws →
      ∃ t, exec (.ext 0#2 e (wordOf i)) s = .next t ∧ Writes at_.gid (laneWrites at_ ws) s t ∧ IssueFrame at_ s t)
    ∧ (∀ ws, uniformImmediate i (some e) g = some ws →
      ∃ t, exec (.ext 0#2 e (wordOf i)) s = .next t ∧ Writes at_.gid (fun _ => ws) s t ∧ IssueFrame at_ s t)

/-- R105 to R110, R112 to R116, R118, R119, R122: the binary32 and bf16×2 instructions of fixed latency, the conversions and RAND. Where it rests on choices of the model: log 105,
108. -/
def Obligations.LaneFloatResults : Prop :=
  ∀ (i : Instr) (s : State) (at_ : Site) (g : Group) (ws : Nat → List (Reg × Word)), laneFloat i g = some ws ∨ laneBf16 i g = some ws ∨ laneConvert i g = some ws →
      Issues i none s at_ g →
    ∃ t, exec i s = .next t ∧ Writes at_.gid (laneWrites at_ ws) s t ∧ IssueFrame at_ s t

/-- R111, R117, R124: the functions, BMAXA and the shuffles send their results, which are in flight with D pending. That the functions' series give
R111's rounding is the model's presumption: log 12. -/
def Obligations.LaneFunctionResults : Prop :=
  ∀ (i : Instr) (s : State) (at_ : Site) (g : Group) (ws : Nat → List (Reg × Word)), laneFunction i at_ g = some ws → Issues i none s at_ g →
    ∃ t, exec i s = .next t ∧ InFlight at_ ((LaneSet.toList at_.lanes).flatMap (fun l => asWrites (some l) (ws l))) s t

/-! ### Uniform arithmetic -/

/-- R156 to R159: the uniform arithmetic, of 32 bits, of 64 bits and of binary32, in register and immediate forms without a prefix, writes G[D], or its pair, and
changes nothing else. -/
def Obligations.UniformResults : Prop :=
  ∀ (i : Instr) (s : State) (at_ : Site) (g : Group) (ws : List (Reg × Word)), uniform32 i g = some ws ∨ uniformWide i g = some ws ∨ uniformImmediate i none g = some ws ∨ uniformFixed i g = some ws → Issues i none s at_ g →
    ∃ t, exec i s = .next t ∧ Writes at_.gid (fun _ => ws) s t ∧ IssueFrame at_ s t

/-! ### Special registers, keys and status -/

/-- R123, R160, R42, R43: RDS and GRDS read every special register, per thread where it is per thread, for GRDS in the lowest issuing lane; GWRS writes
the special register that it names and nothing else of the group. -/
def Obligations.SpecialRegisters : Prop :=
  (∀ (st : BitVec 2) (d : BitVec 7) (n : BitVec 14) (s : State) (at_ : Site) (g : Group) (x : Nat → DWord),
    (∀ l, special s g l n.toNat = some (x l)) → Issues (.rds st d n) none s at_ g →
      ∃ t, exec (.rds st d n) s = .next t ∧ Writes at_.gid (laneWrites at_ (fun l => specialInto .v d n.toNat (x l))) s t ∧ IssueFrame at_ s t)
  ∧ (∀ (st : BitVec 2) (d : BitVec 7) (n : BitVec 14) (s : State) (at_ : Site) (g : Group) (x : DWord),
    special s g ((LaneSet.toList at_.lanes).headD 0) n.toNat = some x → Issues (.grds st d n) none s at_ g →
      ∃ t, exec (.grds st d n) s = .next t ∧ Writes at_.gid (fun _ => specialInto .g d n.toNat x) s t ∧ IssueFrame at_ s t)
  ∧ (∀ (st : BitVec 2) (d : BitVec 7) (n : BitVec 14) (s : State) (at_ : Site) (g : Group), Issues (.gwrs st d n) none s at_ g →
    ∃ t, exec (.gwrs st d n) s = .next t ∧
      Passes at_ (s.modGroup at_.gid (afterGwrs at_.lanes n.toNat (if specialPair n.toNat then g.gval64 d else (g.gval d).zeroExtend 64))) t)

/-- R120, R121, R89: QCVT writes the codes and adds the number of clamped lanes to its core's QCLAMP. -/
def Obligations.QcvtWritesAndCounts : Prop :=
  ∀ (st : BitVec 2) (d a : BitVec 7) (f : BitVec 4) (r : BitVec 3) (s : State) (at_ : Site) (g : Group), Issues (.qcvt st d a f r) none s at_ g →
    let out := fun (l : Nat) =>
      if f = 10#4 then convBsf4 (Rnd.ofCode r.toNat) (genH g.srkey (((g.val l d).extractLsb' 24 8).zeroExtend 32) 3)
        ((g.val l d).toNat % 256) ((g.val l d).toNat / 256 % 2 ^ 16) (valF32 (g.val l a))
      else convMx (NarrowFmt.ofCode f.toNat) (Rnd.ofCode r.toNat) (genH g.srkey (((g.val l d).extractLsb' 8 24).zeroExtend 32) 3)
        ((g.val l d).toNat % 256) (valF32 (g.val l a))
    ∃ t, exec (.qcvt st d a f r) s = .next t
      ∧ Writes at_.gid (laneWrites at_ (fun l => [(.v d.toNat, BitVec.ofNat 32 (out l).1)])) s t
      ∧ (t.core g.core).qclamp = (s.core g.core).qclamp
          + BitVec.ofNat 64 ((LaneSet.toList at_.lanes).filter (fun l => (out l).2)).length
      ∧ t.mem = s.mem ∧ SameSpecials at_.gid s t ∧ IssuersAt at_ (fun _ => at_.next) s t ∧ SameOthers at_ s t

/-! ### Control -/

/-- R145, R202, R37: the branches set the PC of each issuing thread and nothing else, with or without a prefix. -/
def Obligations.BranchesSetPc : Prop :=
  ∀ (i : Instr) (p : Prefix) (s : State) (at_ : Site) (g : Group) (pc : Nat → DWord), branch i p at_ g = some pc →
    (p.isSome → decodeDefined (wordOf i) = some i) → Issues i p s at_ g →
      ∃ t, exec (runs p i) s = .next t ∧ Goes at_ pc s t

/-- R146, R149, R19 to R22: CALL, CALLR and MEET push their entry and go to their target; MEET adds 1 to the meeting depth and names the meeting. A thread
whose four on-chip entries are full spills the oldest to the next place of its slot, in memory or, for a slot that lies there, in a window of the on-chip
aperture (R250), and no other byte of memory changes; one whose slot is full freezes the group with out_of_lease. CALLR raises misaligned, with no effect, for
the lanes whose target has bits [1:0] not zero. That the spill is performed with its instruction is the model's choice: log 75. -/
def Obligations.CallsAndMeetPush : Prop :=
  (∀ (i : Instr) (p : Prefix) (s : State) (at_ : Site) (g : Group) (entry : Thread → StackEntry) (pc : Nat → DWord) (meeting : Option DWord) (pa : Nat → Nat),
    let g1 := poppedGroup s at_ g
    let full := fullLanes at_ g1
    pushes i p at_ g = some (entry, pc, meeting) → (p.isSome → decodeDefined (wordOf i) = some i) → Issues i p s at_ g → Unwatched s g →
    (∀ st a, i = .callr st a → ∀ l, at_.lanes.has l = true → (g.val64 l a).toNat % 4 = 0) →
    (∀ l ∈ full, (g1.thread l).spilled * 8 < (s.launch g.launch).stksz
      ∧ checkSpill s g1 .store (slotAddr (s.launch g.launch) g l (g1.thread l).spilled) = .ok (pa l) ∧ aperture (pa l) ≠ 2) →
    spillWaits s at_.gid g1 (full.map (fun l => (l, pa l))) = false → (full = [] ∨ NoWaiters s) →
      ∃ t g', exec (runs p i) s = .next t ∧ StandAt at_ g pc t ∧ Tab.get? t.groups at_.gid = some g'
        ∧ (∀ l, at_.lanes.has l = true → (g'.thread l).stack = entry (g1.thread l) :: (g1.thread l).stack.take 3
          ∧ (g'.thread l).spilled = (g1.thread l).spilled + (if l ∈ full then 1 else 0))
        ∧ (∀ m, meeting = some m → ∀ l, at_.lanes.has l = true → (g'.thread l).meet = m ∧ (g'.thread l).md = (g1.thread l).md + 1
          ∧ (g'.thread l).record = (g1.thread l).meet :: (g1.thread l).record)
        ∧ ((∀ l ∈ full, peerAnswers s (pa l) = true) →
          ∀ a, t.byte a = storedBytes (full.map (fun l => (pa l, leBytes 8 ((g1.thread l).stack.getD 3 0#64).toNat))) s.byte a)
        ∧ (∀ n, n < s.uid → Tab.get? t.reqs n = Tab.get? s.reqs n)
        ∧ Writes at_.gid (fun _ => []) s t ∧ SameSpecials at_.gid s t ∧ (full = [] → Follows at_ s t))
  ∧ (∀ (i : Instr) (p : Prefix) (s : State) (at_ : Site) (g : Group) (entry : Thread → StackEntry) (pc : Nat → DWord) (meeting : Option DWord)
    (l core off : Nat),
    let g1 := poppedGroup s at_ g
    let v := (g1.thread l).stack.getD 3 0#64
    let pa := 2 ^ 47 + core * 0x100000 + 0x50000 + off
    pushes i p at_ g = some (entry, pc, meeting) → (p.isSome → decodeDefined (wordOf i) = some i) → Issues i p s at_ g → Unwatched s g →
    (∀ st a, i = .callr st a → ∀ l, at_.lanes.has l = true → (g.val64 l a).toNat % 4 = 0) → fullLanes at_ g1 = [l] →
    (g1.thread l).spilled * 8 < (s.launch g.launch).stksz →
    checkSpill s g1 .store (slotAddr (s.launch g.launch) g l (g1.thread l).spilled) = .ok pa → core < 768 → off % 8 = 0 → off + 8 ≤ 0x60000 →
    (∀ k, k < 8 → localVisible s core (off + k) = true) → spillWaits s at_.gid g1 [(l, pa)] = false →
      ∃ t, exec (runs p i) s = .next t ∧ t.mem = s.mem ∧ ∀ k, k < 8 → Sparse.get 0#8 (t.core core).lstore (off + k) = BitVec.ofNat 8 (v.toNat / 256 ^ k))
  ∧ (∀ (i : Instr) (p : Prefix) (s : State) (at_ : Site) (g : Group) (entry : Thread → StackEntry) (pc : Nat → DWord) (meeting : Option DWord) (pa : Nat → Nat)
    (k : Nat),
    let g1 := poppedGroup s at_ g
    let full := fullLanes at_ g1
    let noRoom := fun (l : Nat) => (s.launch g.launch).stksz ≤ (g1.thread l).spilled * 8
    pushes i p at_ g = some (entry, pc, meeting) → (p.isSome → decodeDefined (wordOf i) = some i) → Issues i p s at_ g → Unwatched s g →
    (∀ st a, i = .callr st a → ∀ l, at_.lanes.has l = true → (g.val64 l a).toNat % 4 = 0) → k ∈ full → noRoom k → (∀ l ∈ full, l < k → ¬ noRoom l) →
    (∀ l ∈ full, ¬ noRoom l → checkSpill s g1 .store (slotAddr (s.launch g.launch) g l (g1.thread l).spilled) = .ok (pa l)) →
      ∃ t g' m, exec (runs p i) s = .next t ∧ Froze at_ g 0x20 1 m (BitVec.ofNat 64 (slotAddr (s.launch g.launch) g k (g1.thread k).spilled)) t
        ∧ (∀ l, m.has l = true ↔ l ∈ full ∧ noRoom l) ∧ Tab.get? t.groups at_.gid = some g'
        ∧ ∀ l, (g'.thread l).stack = (g1.thread l).stack ∧ (g'.thread l).spilled = (g1.thread l).spilled)
  ∧ (∀ (st : BitVec 2) (a : BitVec 7) (s : State) (at_ : Site) (g : Group) (k : Nat), Issues (.callr st a) none s at_ g → Unwatched s g →
    at_.lanes.has k = true → (g.val64 k a).toNat % 4 ≠ 0 → (∀ l, l < k → at_.lanes.has l = true → (g.val64 l a).toNat % 4 = 0) →
    g.handler = false → g.trapvec ≠ 0#64 →
      ∃ t g' m, exec (.callr st a) s = .next t ∧ Entered at_ g 0x03 1 m (g.val64 k a) at_.pc t ∧ t.mem = s.mem
        ∧ (∀ l, m.has l = true ↔ at_.lanes.has l = true ∧ (g.val64 l a).toNat % 4 ≠ 0) ∧ Tab.get? t.groups at_.gid = some g'
        ∧ ∀ l, (g'.thread l).stack = ((poppedGroup s at_ g).thread l).stack ∧ (g'.thread l).spilled = ((poppedGroup s at_ g).thread l).spilled)

/-- R147, R22: RET takes the top entry of each issuing thread's stack, which must be a return entry, and goes to its address; where some thread's stack is
empty, or its top entry is a saved meeting or has reserved bits set, it raises illegal_op with detail 9 for the whole issue set, before any effect. That a
refill is performed with its instruction is the model's choice: log 75. -/
def Obligations.RetPops : Prop :=
  (∀ (st : BitVec 2) (s : State) (at_ : Site) (g : Group) (e : Nat → StackEntry) (th : Nat → Thread), Issues (.ret st) none s at_ g → Unwatched s g →
    (∀ l, at_.lanes.has l = true → topEntry s (poppedGroup s at_ g) l ((poppedGroup s at_ g).thread l) = .ok (some (e l, th l))
      ∧ (e l).getLsbD 63 = false ∧ (e l).extractLsb' 56 7 = 0#7) →
    (let g1 := poppedGroup s at_ g
     spillWaits s at_.gid g1 (((LaneSet.toList at_.lanes).filterMap (fun l => refillTouch s g1 l (g1.thread l))).filterMap (refillPa s g1)) = false) →
      ∃ t g', exec (.ret st) s = .next t ∧ StandAt at_ g (fun l => ((e l).extractLsb' 0 56).signExtend 64) t ∧ Tab.get? t.groups at_.gid = some g'
        ∧ (∀ l, at_.lanes.has l = true → (g'.thread l).stack = (th l).stack ∧ (g'.thread l).spilled = (th l).spilled) ∧ Follows at_ s t)
  ∧ (∀ (st : BitVec 2) (s : State) (at_ : Site) (g : Group) (k : Nat), Issues (.ret st) none s at_ g → at_.lanes.has k = true →
    (let g1 := poppedGroup s at_ g
     ((g1.thread k).stack = [] ∧ (g1.thread k).spilled = 0 ∨ ∃ e rest, (g1.thread k).stack = e :: rest ∧ (e.getLsbD 63 = true ∨ e.extractLsb' 56 7 ≠ 0#7))
     ∧ spillWaits s at_.gid g1 (((LaneSet.toList at_.lanes).filterMap (fun l => refillTouch s g1 l (g1.thread l))).filterMap (refillPa s g1)) = false) →
    g.handler = false → g.trapvec ≠ 0#64 →
      ∃ t g', exec (.ret st) s = .next t ∧ Entered at_ g 0x01 9 at_.lanes 0#64 at_.pc t ∧ t.mem = s.mem ∧ Tab.get? t.groups at_.gid = some g'
        ∧ ∀ l, (g'.thread l).stack = ((poppedGroup s at_ g).thread l).stack ∧ (g'.thread l).spilled = ((poppedGroup s at_ g).thread l).spilled)

/-- R150, R203, R8: EXIT and GEXIT end the issuing threads; where a live thread is left the group goes on, else it is gone. -/
def Obligations.ExitEndsThreads : Prop :=
  ∀ (i : Instr) (s : State) (at_ : Site) (g : Group), ((∃ st, i = .exit st) ∨ (∃ st, i = .gexit st)) → Issues i none s at_ g →
    ((∃ l, l < g.threads.length ∧ at_.lanes.has l = false ∧ (g.thread l).live = true) →
      ∃ t g', exec i s = .next t ∧ Tab.get? t.groups at_.gid = some g'
        ∧ (∀ l, (g'.thread l).live = ((g.thread l).live && !at_.lanes.has l)) ∧ Follows at_ s t)
    ∧ ((∀ l, l < g.threads.length → at_.lanes.has l = false → (g.thread l).live = false) →
      ∃ t, exec i s = .next t ∧ Tab.get? t.groups at_.gid = none)

/-! ### Traps and violations -/

/-- R45, R56, R100: a defective word traps illegal_op with the first detail that R45 finds, for the whole issue set and before any effect, and so does a
word that matches no row of the opcode table. -/
def Obligations.IllegalWordTraps : Prop :=
  (∀ (i : Instr) (s : State) (at_ : Site) (g : Group) (d : Nat), (encode i).length = 1 → (∀ w, i ≠ .reservedSlot w) →
    siteOf s (wordOf i) none = some (at_, g) → haltDue s g = none → pcMatch s g at_.pc at_.lanes = none → suspended s at_.gid g = false →
    owedPops s at_ g = [] → illegalDetail (shapeOf s g) i = some d → g.handler = false → g.trapvec ≠ 0#64 →
      ∃ t, exec i s = .next t ∧ Entered at_ g 0x01 d at_.lanes 0#64 at_.pc t ∧ t.mem = s.mem)
  ∧ (∀ (w : Word) (s : State) (at_ : Site) (g : Group), siteOf s w none = some (at_, g) → haltDue s g = none →
    pcMatch s g at_.pc at_.lanes = none → suspended s at_.gid g = false → owedPops s at_ g = [] → g.handler = false → g.trapvec ≠ 0#64 →
      ∃ t, exec (.reservedSlot w) s = .next t ∧ Entered at_ g 0x01 (reservedDetail (shapeOf s g) w) at_.lanes 0#64 at_.pc t ∧ t.mem = s.mem)

/-- R205, R218, R219: TRAPRET closes the handler, and its threads resume at TRAPPC; other threads whose wait ended meanwhile go on behind their instruction. -/
def Obligations.TrapretResumes : Prop :=
  ∀ (st : BitVec 2) (s : State) (at_ : Site) (g : Group), Issues (.trapret st) none s at_ g →
    ∃ t g', exec (.trapret st) s = .next t ∧ Tab.get? t.groups at_.gid = some g' ∧ g'.handler = false
      ∧ (∀ l, l < g.threads.length → g.hset.has l = true → (g.thread l).live = true → (g.thread l).wait = .run → (g'.thread l).pc = g.trappc)
      ∧ (∀ k b l, Tab.get? g.blocks k = some b → b.kind = .over → (∀ e ∈ g.blocks, e.1 = k → e.2 = b) → (g.thread l).wait = .block k → g.hset.has l = false →
        (g'.thread l).wait = .run ∧ (g'.thread l).pc = b.next)
      ∧ (∀ l r, g'.reg l r = g.reg l r) ∧ SameOutside at_.gid s t

/-- R164 to R166, R186, R195, R199 to R201: the cross-lane instructions and the readings of status send their result, which is in flight with D pending. LWRITE
sends G[A] to the V register that D names in lane G[B], if that lane issues, and has no effect otherwise. Where it rests on choices of the model: log 36, 89. -/
def Obligations.ReadingsSendResults : Prop :=
  (∀ (i : Instr) (s : State) (at_ : Site) (g : Group) (ws : List (Reg × Word)), acrossLanes i at_ g = some ws ∨ statusRead i s g = some ws →
    Issues i none s at_ g → ∃ t, exec i s = .next t ∧ InFlight at_ (asWrites none ws) s t)
  ∧ (∀ (st : BitVec 2) (d a b : BitVec 7) (s : State) (at_ : Site) (g : Group), Issues (.lwrite st d a b) none s at_ g →
    (at_.lanes.has (g.gval b).toNat = true →
      ∃ t, exec (.lwrite st d a b) s = .next t
        ∧ InFlight at_ [{ lane := some (g.gval b).toNat, reg := d.toNat - 64, val := g.gval a }] s t)
    ∧ (at_.lanes.has (g.gval b).toNat = false → ∃ t, exec (.lwrite st d a b) s = .next t ∧ Passes at_ s t))

/-- R201, R198, R162: DIGEST.fold adds F of the pair A to the task digest of a deterministic launch and reads the new value, 0 elsewhere; SETPK sets in
KEYPERM the bits of A where B is 1, below the context's ceiling. -/
def Obligations.DigestFoldAndSetpk : Prop :=
  (∀ (st : BitVec 2) (d a : BitVec 7) (s : State) (at_ : Site) (g : Group), Issues (.digestFold st d a) none s at_ g →
    ((s.launch g.launch).det = true →
      ∃ t, exec (.digestFold st d a) s = .next t
        ∧ Tab.get? t.teams g.team = (Tab.get? s.teams g.team).map (fun x => { x with digest := (s.team g.team).digest + genF (g.gval64 a) })
        ∧ (∃ r, Tab.get? t.reqs s.uid = some r ∧ r.group = at_.gid
          ∧ r.kind = .value (asWrites none (pairOf .g d ((s.team g.team).digest + genF (g.gval64 a)))))
        ∧ t.mem = s.mem ∧ GoesOn at_ s t)
    ∧ ((s.launch g.launch).det = false →
      ∃ t, exec (.digestFold st d a) s = .next t ∧ InFlight at_ (asWrites none (pairOf .g d 0#64)) s t))
  ∧ (∀ (st : BitVec 2) (a b : BitVec 7) (s : State) (at_ : Site) (g : Group), Issues (.setpk st a b) none s at_ g →
    ∃ t g', exec (.setpk st a b) s = .next t ∧ Tab.get? t.groups at_.gid = some g'
      ∧ (∀ k, k < 64 → g'.keyperm.getLsbD k
          = ((if (g.gval64 b).getLsbD k then (g.gval64 a).getLsbD k else g.keyperm.getLsbD k) && (s.launch g.launch).keymax.getLsbD k))
      ∧ Passes at_ (s.modGroup at_.gid (fun x => { x with keyperm := g'.keyperm })) t)

/-- R148: JMPR goes to the aligned address in the pair A of each thread and pushes nothing; where some lane's address has bits [1:0] not zero it raises
misaligned for those lanes, with TRAPADDR the address of the lowest of them. -/
def Obligations.JmprJumpsOrTraps : Prop :=
  (∀ (st : BitVec 2) (a : BitVec 7) (s : State) (at_ : Site) (g : Group), Issues (.jmpr st a) none s at_ g →
    (∀ l, at_.lanes.has l = true → (g.val64 l a).toNat % 4 = 0) →
      ∃ t, exec (.jmpr st a) s = .next t ∧ Goes at_ (fun l => g.val64 l a) s t)
  ∧ (∀ (st : BitVec 2) (a : BitVec 7) (s : State) (at_ : Site) (g : Group) (k : Nat), Issues (.jmpr st a) none s at_ g →
    at_.lanes.has k = true → (g.val64 k a).toNat % 4 ≠ 0 → (∀ l, l < k → at_.lanes.has l = true → (g.val64 l a).toNat % 4 = 0) →
    g.handler = false → g.trapvec ≠ 0#64 →
      ∃ t m, exec (.jmpr st a) s = .next t ∧ Entered at_ g 0x03 1 m (g.val64 k a) at_.pc t ∧ t.mem = s.mem
        ∧ (∀ l, m.has l = true ↔ at_.lanes.has l = true ∧ (g.val64 l a).toNat % 4 ≠ 0))

/-- R151, R204, R217, R220: TRAPL and TRAP enter the handler for the whole issue set with CODE 0x0C, TRAPPC the address after the instruction; where the
handler is open already, or there is none, they freeze the group as unhandled, CODE 0x25 with 0x0C as its detail. R129, R153, R210, R214, R243: an access that
fails its checks takes effect in no lane: the first cause in the order of alignment, lease, key and class, of the lowest lane that raises it, enters the
handler, or freezes the group for one of the violations; a load of a handler that a lane whose checks pass would have served from afar is handler_block before them
(LaneLoadsSend; log 113). R128, R322: inside a transaction the atomics, FESET and the waiting full/empty forms raise
tx_forbidden on every lane, and so do a store, a reduction and an STFS whose words lie outside local HBM. R179, R189, R191 to R194, R196, R197: so do GATOM, SEAL, JPOST,
TTLOAD, TTSET and TXBEGIN inside one, TXBEGIN, TXCOMMIT and TXABORT in another group than group 0, TXCOMMIT and TXABORT outside one, and TXCOMMIT.force
outside the handler of ladder_exhausted (log 52). R153: operand values and blocks that their descriptions call malformed raise illegal_op with detail 10.
R61, R64: with STALLCHK a register read short of its latency raises stall_short. R135: an STFS of which a lane's word is full, or is filled by a lower lane,
raises double_fill when it reaches its words, and no lane has an effect. R229: the lowest comparator that matches halts the group before any effect. -/
def Obligations.TrapsEnterOrFreeze : Prop :=
  (∀ (i : Instr) (s : State) (at_ : Site) (g : Group), isTrap i = true → Issues i none s at_ g → g.handler = false → g.trapvec ≠ 0#64 →
    ∃ t, exec i s = .next t ∧ Entered at_ g 0x0C 0 at_.lanes 0#64 at_.next t ∧ t.mem = s.mem)
  ∧ (∀ (i : Instr) (s : State) (at_ : Site) (g : Group), isTrap i = true → Issues i none s at_ g → g.handler = true ∨ g.trapvec = 0#64 →
    ∃ t, exec i s = .next t ∧ Froze at_ g 0x25 0x0C at_.lanes 0#64 t)
  ∧ (∀ (i : Instr) (s : State) (at_ : Site) (g : Group) (acc : Acc) (n : Nat) (ea : Nat → DWord) (k code detail : Nat),
    accessesOf i g = some (acc, n, ea) → Issues i none s at_ g → Unwatched s g → at_.lanes.has k = true → accessFault s g acc n (ea k) = some (code, detail) →
    (∀ l c d, at_.lanes.has l = true → accessFault s g acc n (ea l) = some (c, d) → code < c ∨ (code = c ∧ k ≤ l)) →
      ∃ m, (∀ l, LaneSet.has m l = true ↔ at_.lanes.has l = true ∧ ∃ d, accessFault s g acc n (ea l) = some (code, d))
        ∧ (code = 0x03 → g.handler = false → g.trapvec ≠ 0#64 →
          ∃ t, exec i s = .next t ∧ Entered at_ g 0x03 0 m (ea k) at_.pc t ∧ t.mem = s.mem ∧ t.reqs = s.reqs)
        ∧ (code ≠ 0x03 → (∀ p n' sg d ea' l pa, laneLoadOf i g = some (p, n', sg, d, ea') → g.handler = true → at_.lanes.has l = true →
            accessVa s g .load n n (ea l) = .ok pa → servedAfar s g.core p pa = false) →
          ∃ t, exec i s = .next t ∧ Froze at_ g code detail m (ea k) t))
  ∧ (∀ (i : Instr) (q : Prefix) (s : State) (at_ : Site) (g : Group) (acc : Acc) (n : Nat) (ea : DWord) (code detail : Nat),
    uniformAccessOf i q g = some (acc, n, ea) → (q.isSome → decodeDefined (wordOf i) = some i) → Issues i q s at_ g → Unwatched s g →
    accessFault s g acc n ea = some (code, detail) →
      (code = 0x03 → g.handler = false → g.trapvec ≠ 0#64 →
        ∃ t, exec (runs q i) s = .next t ∧ Entered at_ g 0x03 0 at_.lanes ea at_.pc t ∧ t.mem = s.mem ∧ t.reqs = s.reqs)
      ∧ (code ≠ 0x03 → ∃ t, exec (runs q i) s = .next t ∧ Froze at_ g code detail at_.lanes ea t))
  ∧ (∀ (i : Instr) (s : State) (at_ : Site) (g : Group) (acc : Acc) (n : Nat) (ea : Nat → DWord) (pa : Nat → Nat) (x : Tx) (k : Nat),
    accessesOf i g = some (acc, n, ea) → Issues i none s at_ g → Unwatched s g → (s.team g.team).tx = some x →
    (∀ l, at_.lanes.has l = true → accessVa s g acc n n (ea l) = .ok (pa l)) →
    (forbiddenInTx i g ∨ ((acc = .store ∨ acc = .slice) ∧ ∀ l, at_.lanes.has l = true → aperture (pa l) ≠ 0)) →
    g.handler = false → g.trapvec ≠ 0#64 → at_.lanes.has k = true → (∀ l, l < k → at_.lanes.has l = false) →
      Traps i s at_ g 0x06 0 at_.lanes (ea k))
  ∧ (∀ (i : Instr) (s : State) (at_ : Site) (g : Group) (st : BitVec 2) (d a b : BitVec 7), Issues i none s at_ g → Unwatched s g →
    (s.team g.team).tx.isSome = true → g.handler = false → g.trapvec ≠ 0#64 →
      (∀ (r : BitVec 4) (z : BitVec 3) (p : BitVec 4) (pa : Nat), i = .gatom st d r z p → accessVa s g .atomic (typeSize z) (typeSize z) (g.areg r) = .ok pa →
        Traps i s at_ g 0x06 0 at_.lanes (g.areg r))
      ∧ (∀ pa, i = .sealPage st d a → accessVa s g .append 1 1 (g.gval64 a) = .ok pa → Traps i s at_ g 0x06 0 at_.lanes (g.gval64 a))
      ∧ (∀ ps, i = .jpost st d a b → (g.gval64 a).toNat % 8 = 0 → checkRange s (s.launch g.launch) g.keyperm .load (g.gval64 a).toNat 128 = .ok ps →
        Traps i s at_ g 0x06 0 at_.lanes (g.gval64 a))
      ∧ (∀ ps, i = .ttload st d a b → 0 < (g.gval b).toNat → (g.gval d).toNat + (g.gval b).toNat ≤ 256 → (g.gval64 a).toNat % 64 = 0 →
        checkRange s (s.launch g.launch) g.keyperm .load (g.gval64 a).toNat (64 * (g.gval b).toNat) = .ok ps → piecesLocked s g.core ps = none →
        (∀ k, k < (g.gval b).toNat → let e : Tensor := BitVec.ofNat 512 (leNat (((piecesBytes s g.core ps).drop (64 * k)).take 64))
          tValid e = true → tensorBad e = false) →
          Traps i s at_ g 0x06 0 at_.lanes (g.gval64 a))
      ∧ (i = .ttset st d a b → (g.gval a).toNat ≤ 255 →
        (∀ e, Tab.get? (s.team g.team).tensors (g.gval a).toNat = some e → tensorBad (setTensorField e d.toNat (g.gval64 b)) = false) →
          Traps i s at_ g 0x06 0 at_.lanes 0#64)
      ∧ (∀ n, i = .txbegin st d a n → ladderValid ((s.launch g.launch).ladders.getD n.toNat 0) = true → (g.gval a).toNat < 2 ^ 24 →
        Traps i s at_ g 0x06 0 at_.lanes 0#64))
  ∧ (∀ (i : Instr) (s : State) (at_ : Site) (g : Group) (st : BitVec 2) (d : BitVec 7), Issues i none s at_ g → g.handler = false → g.trapvec ≠ 0#64 →
    ((i = .txcommit st d ∨ i = .txabort st) ∧ ((s.team g.team).tx = none ∨ g.gid ≠ 0) ∨ i = .txcommitForce st d
      ∨ ∃ a n, i = .txbegin st d a n ∧ g.gid ≠ 0 ∧ ladderValid ((s.launch g.launch).ladders.getD n.toNat 0) = true ∧ (g.gval a).toNat < 2 ^ 24) →
      Traps i s at_ g 0x06 0 at_.lanes 0#64)
  ∧ (∀ (i : Instr) (s : State) (at_ : Site) (g : Group) (st : BitVec 2) (d a b : BitVec 7), Issues i none s at_ g → Unwatched s g →
    g.handler = false → g.trapvec ≠ 0#64 →
      (∀ n, i = .txbegin st d a n → ladderValid ((s.launch g.launch).ladders.getD n.toNat 0) = false ∨ 2 ^ 24 ≤ (g.gval a).toNat →
        Traps i s at_ g 0x01 10 at_.lanes 0#64)
      ∧ (i = .ttload st d a b → (g.gval b).toNat = 0 ∨ 256 < (g.gval d).toNat + (g.gval b).toNat → Traps i s at_ g 0x01 10 at_.lanes 0#64)
      ∧ (i = .ttset st d a b → 255 < (g.gval a).toNat
          ∨ (∃ e, Tab.get? (s.team g.team).tensors (g.gval a).toNat = some e ∧ tensorBad (setTensorField e d.toNat (g.gval64 b)) = true) →
        Traps i s at_ g 0x01 10 at_.lanes 0#64)
      ∧ (∀ acc, i = .mread st d acc a → LoomOpen s g → 2 ^ 12 ≤ (g.gval a).toNat → Traps i s at_ g 0x01 10 at_.lanes 0#64)
      ∧ (∀ x, localBlock s (ctxOf i s at_ g) (g.gval a).toNat 64 = .ok x →
        let block := leNat (localBytes s x 64)
        (i = .wait st d a b → ((s.launch g.launch).ttab ≠ 0 ∨ ∀ k, k < 4 → (parseWait block k).kind ≠ 5) → waitBad block = true →
            Traps i s at_ g 0x01 10 at_.lanes 0#64)
          ∧ (i = .cpy st d a → cpyBad (BitVec.ofNat 512 block) = true → Traps i s at_ g 0x01 10 at_.lanes 0#64)
          ∧ (i = .cpyq st d a → cpyqBad (ctxOf i s at_ g) s (BitVec.ofNat 512 block) = true → Traps i s at_ g 0x01 10 at_.lanes 0#64)))
  ∧ (∀ (i : Instr) (s : State) (at_ : Site) (g : Group), (encode i).length = 1 → (∀ w, i ≠ .reservedSlot w) → (∀ st d c a, i ≠ .mwrite st d c a) →
    (∀ st d, i ≠ .mstat st d) → siteOf s (wordOf i) none = some (at_, g) → haltDue s g = none → pcMatch s g at_.pc at_.lanes = none →
    suspended s at_.gid g = false → owedPops s at_ g = [] → illegalDetail (shapeOf s g) i = none →
    (∀ r ∈ i.reads ++ i.writes, r ∉ pendingRegs s at_.gid g) → loomHeld s at_.gid g.core = false →
    g.stallchk = true → (∃ e ∈ g.dues, g.cycle < e.due ∧ e.reg ∈ i.reads) → g.handler = false → g.trapvec ≠ 0#64 → Traps i s at_ g 0x02 0 at_.lanes 0#64)
  ∧ (∀ (n : Nat) (s : State) (r : Req) (ls : List FillLane) (x : FillLane) (rest : List FillLane) (g : Group), Tab.get? s.reqs n = some r → r.kind = .stfs ls →
    (∀ y ∈ ls, peerAnswers s y.pa = true) → storesAhead s (clusterOf r.core) n (ls.map (fun y => (y.pa, 8))) = false →
    ls.filter (fun y => s.isFull y.pa || ls.any (fun z => decide (z.lane < y.lane ∧ z.pa / 8 = y.pa / 8))) = x :: rest → (∀ y ∈ ls, y.lane < 64) →
    Tab.get? s.groups r.group = some g → g.frozen = false → g.handler = false → g.trapvec ≠ 0#64 →
      ∃ t g', exec (.sliceFeAccess n) s = .next t ∧ Tab.get? t.groups r.group = some g' ∧ g'.handler = true ∧ g'.trapcause = causeBits 0x08 0 r.pfx.isSome
        ∧ (∀ l, g'.traplanes.has l = true ↔ ∃ y ∈ x :: rest, y.lane = l) ∧ g'.trapaddr = x.va ∧ g'.trappc = r.pc ∧ g'.hset = r.lanes
        ∧ (∀ l, l < g.threads.length → r.lanes.has l = true → (g'.thread l).wait = .run ∧ (g'.thread l).pc = g.trapvec)
        ∧ (∀ l q, g'.reg l q = g.reg l q) ∧ Tab.get? t.reqs n = none ∧ t.mem = s.mem ∧ t.full = s.full)
  ∧ (∀ (i : Instr) (s : State) (at_ : Site) (g : Group) (core slot k : Nat) (c : Comparator), (encode i).length = 1 → siteOf s (wordOf i) none = some (at_, g) →
    haltDue s g = none → suspended s at_.gid g = false → (s.launch g.launch).debug = true → passesComparators s g = false → g.place = .resident core slot →
    slot < (s.core core).debugSlots.length → (s.core core).pcs[k]? = some c → pcTakes c slot at_ →
    (∀ j x, j < k → (s.core core).pcs[j]? = some x → ¬ pcTakes x slot at_) →
      ComparatorHalts i s at_ core slot 1 k (c.lanes &&& at_.lanes))
  ∧ (∀ (i : Instr) (s : State) (at_ : Site) (g : Group) (core slot k : Nat) (c : Comparator) (acc : Acc) (n : Nat) (ea : Nat → DWord),
    accessesOf i g = some (acc, n, ea) → Issues i none s at_ g → owedPops s at_ g = [] → g.handler = false → (s.launch g.launch).debug = true →
    passesComparators s g = false → g.place = .resident core slot → slot < (s.core core).debugSlots.length → (s.core core).datas[k]? = some c →
    let takes := fun (x : Comparator) (l : Nat) => at_.lanes.has l = true ∧ dataTakes x slot l (decide (acc ≠ .store)) (decide (acc ≠ .load)) (ea l) n
    (∃ l, takes c l) → (∀ j x l, j < k → (s.core core).datas[j]? = some x → ¬ takes x l) →
      ∃ m, (∀ l, LaneSet.has m l = true ↔ takes c l) ∧ ComparatorHalts i s at_ core slot 2 k m)

/-- R151, R204, R232: NOP and GNOP have no effect, nor have BKPTL and BKPT where no debugger holds the context; a breakpoint of a debugged group halts it
after the instruction, with REASON 4. -/
def Obligations.NopsAndBreakpoints : Prop :=
  (∀ (i : Instr) (s : State) (at_ : Site) (g : Group),
    ((∃ st, i = .nop st) ∨ (∃ st, i = .gnop st)
      ∨ ((s.launch g.launch).debug = false ∧ ((∃ st n, i = .bkptl st n) ∨ (∃ st n, i = .bkpt st n)))) → Issues i none s at_ g →
      ∃ t, exec i s = .next t ∧ Writes at_.gid (fun _ => []) s t ∧ IssueFrame at_ s t)
  ∧ (∀ (i : Instr) (s : State) (at_ : Site) (g : Group) (core slot : Nat), ((∃ st n, i = .bkptl st n) ∨ (∃ st n, i = .bkpt st n)) →
    Issues i none s at_ g → (s.launch g.launch).debug = true → g.place = .resident core slot → slot < (s.core core).debugSlots.length →
      ∃ t g' d, exec i s = .next t ∧ Tab.get? t.groups at_.gid = some g' ∧ g'.halted = true ∧ (t.core core).debugSlots[slot]? = some d
        ∧ d.reason = 4 ∧ d.lanes = at_.lanes ∧ d.pc = at_.next ∧ t.mem = s.mem ∧ (∀ l r, g'.reg l r = g.reg l r))
/-! ### Loads and stores as they issue -/

/-- R129 to R131, R133, R63, R25: LD, LDS, LDK, LDGA and LDX send one request with a part for each issuing lane; its registers are pending and
nothing else changes. Served from afar, it blocks the issue set; R154, R213: in a handler it freezes the group with handler_block, for the whole issue set. That a
lane whose own checks pass is enough for this is a reading of the model: log 113. -/
def Obligations.LaneLoadsSend : Prop :=
  (∀ (i : Instr) (s : State) (at_ : Site) (g : Group) (p : Path) (n : Nat) (sg : Bool) (d : BitVec 7) (ea : Nat → DWord) (pa : Nat → Nat),
    laneLoadOf i g = some (p, n, sg, d, ea) → Issues i none s at_ g → Unwatched s g →
    (∀ l, at_.lanes.has l = true → accessVa s g .load n n (ea l) = .ok (pa l)) →
    clash s (ctxOf i s at_ g) ((loadParts at_ n sg d ea pa).map (fun x => (x.pa, x.size))) = false →
      ((∀ l, at_.lanes.has l = true → servedAfar s g.core p (pa l) = false) →
        ∃ t, exec i s = .next t ∧ Passes at_ (sent i s at_ g (destRegs .v d.toNat n) (.load p (loadParts at_ n sg d ea pa))) t)
      ∧ ((∃ l, at_.lanes.has l = true ∧ servedAfar s g.core p (pa l) = true) → g.handler = false → Tab.get? g.blocks (s.uid + 1) = none →
        ∃ t, exec i s = .next t ∧ BlockedAt at_ (s.uid + 1) (fun k => k = .load s.uid) t
          ∧ Follows at_ { sent i s at_ g (destRegs .v d.toNat n) (.load p (loadParts at_ n sg d ea pa)) with uid := s.uid + 2 } t))
  ∧ (∀ (i : Instr) (s : State) (at_ : Site) (g : Group) (p : Path) (n : Nat) (sg : Bool) (d : BitVec 7) (ea : Nat → DWord) (k pa : Nat),
    laneLoadOf i g = some (p, n, sg, d, ea) → Issues i none s at_ g → g.handler = true → at_.lanes.has k = true →
    accessVa s g .load n n (ea k) = .ok pa → servedAfar s g.core p pa = true →
      ∃ t, exec i s = .next t ∧ Froze at_ g 0x24 0 at_.lanes 0#64 t)

/-- R178, R25: GLD and GLDK send one request for the group, with or without a prefix; served from afar, it blocks the issue set; R154: in a handler it freezes
the group with handler_block. -/
def Obligations.UniformLoadsSend : Prop :=
  (∀ (i : Instr) (q : Prefix) (s : State) (at_ : Site) (g : Group) (p : Path) (n : Nat) (d : BitVec 7) (ea : DWord) (pa : Nat),
    uniformLoadOf i q g = some (p, n, d, ea) → (q.isSome → decodeDefined (wordOf i) = some i) → Issues i q s at_ g → Unwatched s g →
    accessVa s g .load n n ea = .ok pa → clash s (ctxOf i s at_ g) [(pa, n)] = false →
    (servedAfar s g.core p pa = true → g.handler = false ∧ Tab.get? g.blocks (s.uid + 1) = none) →
    let r := sent i s at_ g (destRegs .g d.toNat n) (.load p [{ lane := none, reg := d.toNat, va := ea, pa := pa, size := n, signed := false }])
      ∃ t, exec (runs q i) s = .next t
        ∧ (servedAfar s g.core p pa = false → Passes at_ r t)
        ∧ (servedAfar s g.core p pa = true → Follows at_ { r with uid := s.uid + 2 } t ∧ BlockedAt at_ (s.uid + 1) (fun k => k = .load s.uid) t))
  ∧ (∀ (i : Instr) (q : Prefix) (s : State) (at_ : Site) (g : Group) (p : Path) (n : Nat) (d : BitVec 7) (ea : DWord) (pa : Nat),
    uniformLoadOf i q g = some (p, n, d, ea) → (q.isSome → decodeDefined (wordOf i) = some i) → Issues i q s at_ g → g.handler = true →
    accessVa s g .load n n ea = .ok pa → servedAfar s g.core p pa = true →
      ∃ t, exec (runs q i) s = .next t ∧ Froze at_ g 0x24 0 at_.lanes 0#64 t)

/-- R126, R130, R133, R178, R270: ST, STX and GST send the bytes of their source registers, in parts of at most one 8-byte word, to the
addresses of the lanes; the copies of their own core and cluster see them at once, no byte of memory changes yet. Where it rests on choices of the model: log 24. -/
def Obligations.StoresSend : Prop :=
  (∀ (i : Instr) (s : State) (at_ : Site) (g : Group) (n : Nat) (d : BitVec 7) (ea : Nat → DWord) (pa : Nat → Nat),
    laneStoreOf i g = some (n, d, ea) → Issues i none s at_ g → Unwatched s g → (s.team g.team).tx = none →
    (∀ l, at_.lanes.has l = true → accessVa s g .store n n (ea l) = .ok (pa l)) →
    let parts := (LaneSet.toList at_.lanes).flatMap (fun l => storeParts (some l) (ea l) (pa l) (bytesOf (fun k => g.reg l (lreg (d.toNat + k))) n))
    clash s (ctxOf i s at_ g) (parts.map (fun x => (x.pa, x.bytes.length))) = false →
      ∃ t, exec i s = .next t ∧ t.mem = s.mem
        ∧ Passes at_ ((updateCopies g.core parts s).addReq ((ctxOf i s at_ g).req s [] (.store parts))) t)
  ∧ (∀ (q : Prefix) (st : BitVec 2) (d : BitVec 7) (a : BitVec 4) (z : BitVec 3) (n : BitVec 7) (s : State) (at_ : Site) (g : Group) (pa : Nat),
    let i := Instr.gst st d a z n
    let ea := g.areg a + immS q n
    (q.isSome → decodeDefined (wordOf i) = some i) → Issues i q s at_ g → Unwatched s g → (s.team g.team).tx = none →
    accessVa s g .store (2 ^ z.toNat) (2 ^ z.toNat) ea = .ok pa → clash s (ctxOf i s at_ g) [(pa, 2 ^ z.toNat)] = false →
    let parts := storeParts none ea pa (bytesOf (fun k => g.greg (d.toNat + k)) (2 ^ z.toNat))
      ∃ t, exec (runs q i) s = .next t ∧ t.mem = s.mem
        ∧ Passes at_ ((updateCopies g.core parts s).addReq ((ctxOf i s at_ g).req s [] (.store parts))) t)

/-- R128, R155, R322, R323: inside a transaction a store of a lane form or of the G-set to local HBM is an entry of the store log for each part, an STFS and a
reduction one for each lane, and reach no memory. STL and the local atomics make a shadow of each segment that has none, and then have their effect, as they issue and
in issue order, also at a partner's or a lent place: that they act at issue is the model's choice (log 16). -/
def Obligations.StoresAreLogged : Prop :=
  (∀ (i : Instr) (s : State) (at_ : Site) (g : Group) (n : Nat) (d : BitVec 7) (ea : Nat → DWord) (pa : Nat → Nat) (x : Tx) (u : Team),
    laneStoreOf i g = some (n, d, ea) → Issues i none s at_ g → Unwatched s g → Tab.get? s.teams g.team = some u → u.tx = some x →
    (∀ l, at_.lanes.has l = true → accessVa s g .store n n (ea l) = .ok (pa l) ∧ aperture (pa l) = 0) →
    overflowFits (issuedState s at_ g) g.core (16 * (if n = 16 then 2 else 1) * (LaneSet.toList at_.lanes).length) = true →
    let parts := (LaneSet.toList at_.lanes).flatMap (fun l => storeParts (some l) (ea l) (pa l) (bytesOf (fun k => g.reg l (lreg (d.toNat + k))) n))
    clash s (ctxOf i s at_ g) (parts.map (fun y => (y.pa, y.bytes.length))) = false →
      ∃ t, exec i s = .next t ∧ Logged at_ g x (parts.map (fun y => logged at_ g y.lane y.pa y.va (.write y.bytes))) s t)
  ∧ (∀ (q : Prefix) (st : BitVec 2) (d : BitVec 7) (a : BitVec 4) (z : BitVec 3) (m : BitVec 7) (s : State) (at_ : Site) (g : Group) (pa : Nat) (x : Tx)
    (u : Team),
    let i := Instr.gst st d a z m
    let n := 2 ^ z.toNat
    let ea := g.areg a + immS q m
    (q.isSome → decodeDefined (wordOf i) = some i) → Issues i q s at_ g → Unwatched s g → Tab.get? s.teams g.team = some u → u.tx = some x →
    accessVa s g .store n n ea = .ok pa → aperture pa = 0 → clash s (ctxOf i s at_ g) [(pa, n)] = false →
    overflowFits (issuedState s at_ g) g.core (16 * (if n = 16 then 2 else 1)) = true →
      ∃ t, exec (runs q i) s = .next t ∧ Logged at_ g x
        ((storeParts none ea pa (bytesOf (fun k => g.greg (d.toNat + k)) n)).map (fun y => logged at_ g none y.pa y.va (.write y.bytes))) s t)
  ∧ (∀ (st : BitVec 2) (d o : BitVec 7) (a : BitVec 4) (s : State) (at_ : Site) (g : Group) (pa : Nat → Nat) (x : Tx) (u : Team),
    Issues (.stfs st d o a) none s at_ g → Unwatched s g → Tab.get? s.teams g.team = some u → u.tx = some x →
    (∀ l, at_.lanes.has l = true → accessVa s g .slice 8 8 (g.ea l a o) = .ok (pa l) ∧ aperture (pa l) = 0) →
    clash s (ctxOf (.stfs st d o a) s at_ g) ((LaneSet.toList at_.lanes).map (fun l => (pa l, 8))) = false →
    overflowFits (issuedState s at_ g) g.core (16 * (LaneSet.toList at_.lanes).length) = true →
      ∃ t, exec (.stfs st d o a) s = .next t ∧ Logged at_ g x
        ((LaneSet.toList at_.lanes).map (fun l => logged at_ g (some l) (pa l) (g.ea l a o) (.fill (g.val64 l d)))) s t)
  ∧ (∀ (i : Instr) (s : State) (at_ : Site) (g : Group) (op : AtomOp) (d : BitVec 7) (ty : BitVec 3) (ea : Nat → DWord) (pa : Nat → Nat) (x : Tx) (u : Team),
    reductionOf i g = some (op, d, ty, ea) → Issues i none s at_ g → Unwatched s g → Tab.get? s.teams g.team = some u → u.tx = some x →
    (∀ l, at_.lanes.has l = true → accessVa s g .slice (typeSize ty) (typeSize ty) (ea l) = .ok (pa l) ∧ aperture (pa l) = 0) →
    overflowFits (issuedState s at_ g) g.core (16 * (LaneSet.toList at_.lanes).length) = true →
      ∃ t, exec i s = .next t ∧ Logged at_ g x ((LaneSet.toList at_.lanes).map (fun l => logged at_ g (some l) (pa l) (ea l)
        (.reduce op ty (atomOperands (fun k => g.reg l (lreg (d.toNat + k))) op ty).1))) s t)
  ∧ (∀ (i : Instr) (s : State) (at_ : Site) (g : Group) (n : Nat) (d : BitVec 7) (la : Nat → Nat) (p : Nat → LocalAt) (x : Tx) (u : Team),
    localOf i g = some (n, true, d, la) → Issues i none s at_ g → Unwatched s g → Tab.get? s.teams g.team = some u → u.tx = some x →
    (∀ l, at_.lanes.has l = true → accessLocal s g true n n (la l) = .ok (p l) ∧ (localAtomOf i ≠ none → s.poisoned (p l).pa n = false)) →
    let ps := (LaneSet.toList at_.lanes).map (fun l => (l, p l))
    (∀ k, k < (freshSegments x ps).length → overflowFits (issuedState s at_ g) g.core (4096 * (k + 1)) = true) →
      ∃ t u' x', exec i s = .next t ∧ Tab.get? t.teams g.team = some u' ∧ u'.tx = some x' ∧ x'.log = x.log
        ∧ x'.shadows = x.shadows ++ newShadows s g x ps ∧ t.mem = s.mem ∧ GoesOn at_ s t
        ∧ (localAtomOf i = none → t.reqs = s.reqs ∧ SameLocal ((LaneSet.toList at_.lanes).foldl (fun s' l =>
          localPoke (p l) (bytesOf (fun k => g.reg l (lreg (d.toNat + k))) n) s') s) t)
        ∧ (∀ op ty, localAtomOf i = some (op, ty) →
          let v := fun (l : Nat) => atomOperands (fun k => g.reg l (lreg (d.toNat + k))) op ty
          let old := fun (s' : State) (l : Nat) => BitVec.ofNat 64 (leNat (localBytes s' (p l) n))
          let out := (LaneSet.toList at_.lanes).foldl (fun (acc : State × List RegWrite) l =>
            (localPoke (p l) (leBytes n (atomicF op ty (old acc.1 l) (v l).1 (v l).2).toNat) acc.1,
              acc.2 ++ atomWrites (some l) d.toNat ty (old acc.1 l))) (s, [])
          SameLocal out.1 t ∧ ∃ r, Tab.get? t.reqs s.uid = some r ∧ r.group = at_.gid ∧ r.kind = .value out.2))

/-- R132, R245, R268: PREF writes no register and no memory. It brings the line of each issuing lane's address, where the path may read it, into the holder that Z
names, with what the copies behind that holder or its home give; a lane whose path check fails is dropped and counted. Where it rests on choices of the
model: log 17, 145. -/
def Obligations.PrefBringsCopies : Prop :=
  ∀ (st : BitVec 2) (o : BitVec 7) (a : BitVec 4) (z : BitVec 3) (s : State) (at_ : Site) (g : Group), Issues (.pref st o a z) none s at_ g →
    let check := fun (l : Nat) => checkVa s (s.launch g.launch) g.keyperm .load 0 (g.ea l a o) 1
    ∃ t, exec (.pref st o a z) s = .next t ∧ t.mem = s.mem ∧ t.reqs = s.reqs ∧ GoesOn at_ s t
      ∧ (t.core g.core).droppf = (s.core g.core).droppf + BitVec.ofNat 64 ((LaneSet.toList at_.lanes).filter (fun l =>
          match check l with
          | .ok _ => false
          | .error _ => true)).length
      ∧ (∀ l pa h, at_.lanes.has l = true → check l = .ok pa → (holdersFor g.core pa)[z.toNat]? = some h → aperture pa ≤ 1 → peerAnswers s pa = true →
        s.poisoned (pa - pa % 128) 128 = false → copyAt s h .gen (pa / 128) = none →
        (∀ m, h.room s = some m → (copiesOf s h).length + (LaneSet.toList at_.lanes).length ≤ m) →
          ∃ e ∈ t.copies, e.2.holder = h ∧ e.2.path = .gen ∧ e.2.line = pa / 128 ∧ e.2.expiry ≤ s.time + h.longest
            ∧ ((∀ d, h ≠ .peer d) → s.time < e.2.expiry)
            ∧ e.2.data = (List.range 128).map (fun k => byteFrom s g.core ((holdersFor g.core pa).drop (z.toNat + 1))
                (if z.toNat < 2 then some (clusterOf g.core) else none) .gen (pa - pa % 128 + k)))
      ∧ (∀ e ∈ t.copies, e ∈ s.copies ∨ ∃ l pa, at_.lanes.has l = true ∧ check l = .ok pa ∧ e.2.path = .gen ∧ e.2.line = pa / 128
        ∧ (holdersFor g.core pa)[z.toNat]? = some e.2.holder)

/-- R134: LDL sends the bytes of each lane's local address; STL writes each lane's bytes there at once, the highest lane last, and no byte of
memory. R144: a local atomic performs its lanes in ascending order, each on what the ones before it left, and sends the old values. That they act as they issue is the model's choice: log 16. -/
def Obligations.LocalStoreAccesses : Prop :=
  (∀ (i : Instr) (s : State) (at_ : Site) (g : Group) (n : Nat) (wr : Bool) (d : BitVec 7) (la : Nat → Nat) (x : Nat → LocalAt),
    localOf i g = some (n, wr, d, la) → localAtomOf i = none → Issues i none s at_ g → Unwatched s g → (s.team g.team).tx = none →
    (∀ l, at_.lanes.has l = true → accessLocal s g wr n n (la l) = .ok (x l)) →
      (wr = false → ∃ t, exec i s = .next t ∧ InFlight at_ ((LaneSet.toList at_.lanes).flatMap (fun l =>
        loadWrites { lane := some l, reg := d.toNat, va := 0, pa := 0, size := n, signed := false } (localBytes s (x l) n))) s t)
      ∧ (wr = true → ∃ t, exec i s = .next t ∧ t.mem = s.mem ∧ Passes at_ ((LaneSet.toList at_.lanes).foldl (fun s' l =>
        localPoke (x l) (bytesOf (fun k => g.reg l (lreg (d.toNat + k))) n) s') s) t))
  ∧ (∀ (i : Instr) (s : State) (at_ : Site) (g : Group) (n : Nat) (wr : Bool) (d : BitVec 7) (la : Nat → Nat) (x : Nat → LocalAt) (op : AtomOp) (ty : BitVec 3),
    localOf i g = some (n, wr, d, la) → localAtomOf i = some (op, ty) → Issues i none s at_ g → Unwatched s g → (s.team g.team).tx = none →
    (∀ l, at_.lanes.has l = true → accessLocal s g true n n (la l) = .ok (x l) ∧ s.poisoned (x l).pa n = false) →
    let v := fun (l : Nat) => atomOperands (fun k => g.reg l (lreg (d.toNat + k))) op ty
    let old := fun (s' : State) (l : Nat) => BitVec.ofNat 64 (leNat (localBytes s' (x l) n))
    let out := (LaneSet.toList at_.lanes).foldl (fun (acc : State × List RegWrite) l =>
      (localPoke (x l) (leBytes n (atomicF op ty (old acc.1 l) (v l).1 (v l).2).toNat) acc.1, acc.2 ++ atomWrites (some l) d.toNat ty (old acc.1 l))) (s, [])
      ∃ t, exec i s = .next t ∧ t.mem = s.mem ∧ Passes at_ (sent i out.1 at_ g (dedupRegs (out.2.map RegWrite.target)) (.value out.2)) t)

/-! ### Accesses that a home slice performs, as they issue -/

/-- R138 to R141: the atomics and, outside a transaction, the reductions send one request for each distinct word, with the lanes of that word;
the atomics' register is pending. -/
def Obligations.AtomicsSendPerWord : Prop :=
  ∀ (i : Instr) (s : State) (at_ : Site) (g : Group) (op : AtomOp) (d : BitVec 7) (ty : BitVec 3) (ea : Nat → DWord) (pa : Nat → Nat) (ret : Bool),
    (if ret then atomicOf i g else reductionOf i g) = some (op, d, ty, ea) → Issues i none s at_ g → Unwatched s g → (s.team g.team).tx = none →
    (∀ l, at_.lanes.has l = true → accessVa s g (if ret then .atomic else .slice) (typeSize ty) (typeSize ty) (ea l) = .ok (pa l)) →
    clash s (ctxOf i s at_ g) ((LaneSet.toList at_.lanes).map (fun l => (pa l, typeSize ty))) = false →
    let dest := if ret then destRegs .v d.toNat (typeSize ty) else []
    let reg := if ret then some d.toNat else none
      ∃ t, exec i s = .next t ∧ t.mem = s.mem ∧ GoesOn at_ s t
        ∧ t.uid = s.uid + (((LaneSet.toList at_.lanes).map pa).dedup).length
        ∧ (∀ n, n < s.uid ∨ t.uid ≤ n → Tab.get? t.reqs n = Tab.get? s.reqs n)
        ∧ (∀ n, s.uid ≤ n → n < t.uid → ∃ r, Tab.get? t.reqs n = some r ∧ WordRequest at_ g op ty dest reg d pa r)
        ∧ (∀ l, at_.lanes.has l = true → ∃ n r va ops, s.uid ≤ n ∧ n < t.uid ∧ Tab.get? t.reqs n = some r ∧ r.kind = .atomic op ty va (pa l) ops reg)

/-- R142, R210, R128, R214: APPEND and APPENDT send one request for each page, with the lanes of that page in ascending order, and hold their threads; inside a
transaction they raise tx_forbidden on every lane, with no effect; but an APPEND of which some lanes' page is sealed raises write_after_seal on those lanes,
whose rank comes first (log 146). -/
def Obligations.AppendsSendPerPage : Prop :=
  ∀ (i : Instr) (s : State) (at_ : Site) (g : Group) (trial : Bool) (d : BitVec 7) (n : Nat) (ea : Nat → DWord) (pa : Nat → Nat),
    appendOf i g = some (trial, d, n, ea) → Issues i none s at_ g → Unwatched s g →
    (∀ l, at_.lanes.has l = true → accessVa s g .append n n (ea l) = .ok (pa l)) →
    let page := fun (l : Nat) => appendPage (s.launch g.launch) (ea l) (pa l)
    ((s.team g.team).tx = none →
      clash s (ctxOf i s at_ g) ((LaneSet.toList at_.lanes).map (fun l => ((page l).1, (page l).2.2))) = false →
      ∃ t g' job, exec i s = .next t ∧ t.mem = s.mem ∧ Tab.get? t.groups at_.gid = some g' ∧ g'.append = some job ∧ job.lanes = at_.lanes
        ∧ job.pc = at_.pc ∧ job.next = at_.next ∧ job.sealed = [] ∧ job.left = (((LaneSet.toList at_.lanes).map (fun l => (page l).1)).dedup).length
        ∧ t.uid = s.uid + job.left ∧ (∀ l r, g'.reg l r = g.reg l r) ∧ OthersKept at_.lanes g g'
        ∧ (∀ l, at_.lanes.has l = true → (g'.thread l).wait = .slice ∧ (g'.thread l).pc = at_.pc)
        ∧ (∀ m, m < s.uid ∨ t.uid ≤ m → Tab.get? t.reqs m = Tab.get? s.reqs m)
        ∧ (∀ m, s.uid ≤ m → m < t.uid → ∃ r, Tab.get? t.reqs m = some r ∧ PageRequest at_ g trial d n ea page r)
        ∧ (∀ l, at_.lanes.has l = true → ∃ m r, s.uid ≤ m ∧ m < t.uid ∧ Tab.get? t.reqs m = some r ∧ r.lanes.has l = true))
    ∧ (∀ x k, (s.team g.team).tx = some x → g.handler = false → g.trapvec ≠ 0#64 → at_.lanes.has k = true → (∀ l, l < k → at_.lanes.has l = false) →
      (trial = true ∨ ∀ l, at_.lanes.has l = true → s.sealed (page l).1 = false) → Traps i s at_ g 0x06 0 at_.lanes (ea k))
    ∧ (∀ x k, (s.team g.team).tx = some x → g.handler = false → g.trapvec ≠ 0#64 → trial = false →
      let refused := fun (l : Nat) => at_.lanes.has l = true ∧ s.sealed (page l).1 = true
      refused k → (∀ l, l < k → ¬ refused l) → ∃ m, (∀ l, LaneSet.has m l = true ↔ refused l) ∧ Traps i s at_ g 0x04 0 m (ea k))

/-- R179, R191: GATOM sends one request for its word, SEAL a request to the page's home slice after a release at .dev. -/
def Obligations.GatomAndSealSend : Prop :=
  (∀ (st : BitVec 2) (d : BitVec 7) (a : BitVec 4) (z : BitVec 3) (p : BitVec 4) (s : State) (at_ : Site) (g : Group) (pa : Nat),
    let i := Instr.gatom st d a z p
    Issues i none s at_ g → Unwatched s g → (s.team g.team).tx = none → accessVa s g .atomic (typeSize z) (typeSize z) (g.areg a) = .ok pa →
    clash s (ctxOf i s at_ g) [(pa, typeSize z)] = false →
    let v := atomOperands (fun k => g.greg (d.toNat + k)) (gatomOp p) z
      ∃ t, exec i s = .next t ∧ Passes at_ (sent i s at_ g (destRegs .g d.toNat (typeSize z))
        (.atomic (gatomOp p) z (g.areg a) pa [{ lane := none, x := v.1, new := v.2 }] (some d.toNat))) t)
  ∧ (∀ (st : BitVec 2) (d a : BitVec 7) (s : State) (at_ : Site) (g : Group) (pa : Nat), Issues (.sealPage st d a) none s at_ g → Unwatched s g →
    (s.team g.team).tx = none → accessVa s g .append 1 1 (g.gval64 a) = .ok pa → (ctxOf (.sealPage st d a) s at_ g).mayRelease (issuedState s at_ g) 4 = true →
      ∃ t, exec (.sealPage st d a) s = .next t ∧ Passes at_ (sent (.sealPage st d a) s at_ g [.g d.toNat]
        (.seal (appendPage (s.launch g.launch) (g.gval64 a) pa).1 d.toNat)) t)

/-- R135, R136, R210, R275: LDW, LDC, STF, FESET and FEGET send one request for each issuing lane, STFS one with every lane; STFS and the forms that may wait
hold their threads at the instruction. Where it rests on choices of the model: log 14, 37, 54. -/
def Obligations.FullEmptySend : Prop :=
  (∀ (i : Instr) (s : State) (at_ : Site) (g : Group) (k : FeKind) (acc : Acc) (dest : List Reg) (data : Nat → DWord) (d : BitVec 7) (ea : Nat → DWord)
    (pa : Nat → Nat), feOf i g = some (k, acc, dest, data, d, ea) → Issues i none s at_ g → Unwatched s g →
    (∀ l, at_.lanes.has l = true → accessVa s g acc 8 8 (ea l) = .ok (pa l)) → (k = .feget ∨ (s.team g.team).tx = none) →
    clash s (ctxOf i s at_ g) ((LaneSet.toList at_.lanes).map (fun l => (pa l, 8))) = false →
    (ctxOf i s at_ g).mayAcquire (issuedState s at_ g) = true → (∀ scope, (ctxOf i s at_ g).mayRelease (issuedState s at_ g) scope = true) →
      ∃ t g', exec i s = .next t ∧ Tab.get? t.groups at_.gid = some g' ∧ t.mem = s.mem
        ∧ Follows at_ ((LaneSet.toList at_.lanes).foldl (fun s' l => s'.addReq ((ctxOf i s at_ g).req s' dest (.fe k l (ea l) (pa l) (data l) d.toNat .flying))) s) t
        ∧ (feWaits k = true → ∀ l, at_.lanes.has l = true → (g'.thread l).wait = .slice ∧ (g'.thread l).pc = at_.pc)
        ∧ (feWaits k = false → IssuersAt at_ (fun _ => at_.next) s t))
  ∧ (∀ (st : BitVec 2) (d o : BitVec 7) (a : BitVec 4) (s : State) (at_ : Site) (g : Group) (pa : Nat → Nat), Issues (.stfs st d o a) none s at_ g →
    Unwatched s g → (s.team g.team).tx = none → (∀ l, at_.lanes.has l = true → accessVa s g .slice 8 8 (g.ea l a o) = .ok (pa l)) →
    clash s (ctxOf (.stfs st d o a) s at_ g) ((LaneSet.toList at_.lanes).map (fun l => (pa l, 8))) = false →
    (∀ scope, (ctxOf (.stfs st d o a) s at_ g).mayRelease (issuedState s at_ g) scope = true) →
      ∃ t g', exec (.stfs st d o a) s = .next t ∧ Tab.get? t.groups at_.gid = some g' ∧ t.mem = s.mem
        ∧ Follows at_ (sent (.stfs st d o a) s at_ g [] (.stfs ((LaneSet.toList at_.lanes).map (fun l =>
          { lane := l, va := g.ea l a o, pa := pa l, data := g.val64 l d })))) t
        ∧ (∀ l, at_.lanes.has l = true → (g'.thread l).wait = .slice ∧ (g'.thread l).pc = at_.pc))

/-! ### Fences, barriers, waits -/

/-- R167, R168, R271, R273: a FENCE that may complete does so: its acquire discards the copies below the scope on the paths named, more than one path
also those of the core and the cluster; nothing else changes. Where it rests on choices of the model: log 37, 128. -/
def Obligations.FenceCompletes : Prop :=
  ∀ (st k : BitVec 2) (p : BitVec 3) (h : BitVec 4) (s : State) (at_ : Site) (g : Group), Issues (.fence st k p h) none s at_ g →
    fenceReady k p.toNat h (ctxOf (.fence st k p h) s at_ g) (issuedState s at_ g) = true →
      ∃ t, exec (.fence st k p h) s = .next t ∧ t.mem = s.mem ∧ t.reqs = s.reqs ∧ GoesOn at_ s t
        ∧ ∀ e, e ∈ t.copies ↔ e ∈ s.copies
          ∧ ¬ (k ≠ 1#2 ∧ pathsOf h e.2.path = true ∧ e.2.holder.below g.core p.toNat (s.team g.team).spans = true)
          ∧ ¬ (manyPaths h = true ∧ pathsOf h e.2.path = true ∧ (e.2.holder = .l1 g.core ∨ e.2.holder = .cluster (clusterOf g.core)))

/-- R172 to R175, R154: a WAIT whose conditions hold as it issues, or whose timeout is 0, ends at once with its result; else it blocks its issue set, or, in
a handler, freezes the group with handler_block. Words that it has tested make its end an acquire, and leave its core no copy of them (R267). Where it rests on choices of the model: log 20, 37. -/
def Obligations.WaitTestsOrBlocks : Prop :=
  ∀ (st : BitVec 2) (d a b : BitVec 7) (s : State) (at_ : Site) (g : Group) (x : LocalAt) (pa : Nat → Nat),
    let i := Instr.wait st d a b
    Issues i none s at_ g → Unwatched s g → localBlock s (ctxOf i s at_ g) (g.gval a).toNat 64 = .ok x →
    let block := leNat (localBytes s x 64)
    let es := waitEntries block pa
    WaitAccepted s g block pa → (es.any WaitEntry.ofMemory = true → (ctxOf i s at_ g).mayAcquire (issuedState s at_ g) = true
      ∧ spillWaits s at_.gid g ((es.filter WaitEntry.ofMemory).flatMap (fun e => (LaneSet.toList at_.lanes).map (fun l => (l, e.pa - e.pa % 8)))) = false) →
      (∀ r, waitResult s g es (block.testBit 63) = some r ∨ (waitResult s g es (block.testBit 63) = none ∧ g.gval b = 0#32 ∧ r = 0xFFFFFFFF#32) →
        ∃ t, exec i s = .next t
          ∧ Passes at_ (replied i (if es.any WaitEntry.ofMemory then
            (es.filter WaitEntry.ofMemory).foldl (fun s' e => dropAll g.core e.pa s') (acquireDev g.core s) else s) at_ g [(.g d.toNat, r)]) t)
      ∧ (waitResult s g es (block.testBit 63) = none → g.gval b ≠ 0#32 → g.handler = false → (∀ k, s.uid ≤ k → Tab.get? g.blocks k = none) →
        ∃ t id, exec i s = .next t ∧ s.uid ≤ id ∧ Writes at_.gid (fun _ => []) s t ∧ SameSpecials at_.gid s t ∧ SameOthers at_ s t ∧ t.reqs = s.reqs
          ∧ BlockedAt at_ id (fun k => ∃ ws, k = .wait ws (block.testBit 63)
              (if g.gval b = 0xFFFFFFFF#32 then none else some (s.time + (g.gval b).toNat * refTick)) d.toNat
            ∧ ws.map (fun e => { e with watch := .flying }) = es) t)
      ∧ (waitResult s g es (block.testBit 63) = none → g.gval b ≠ 0#32 → g.handler = true → ∃ t, exec i s = .next t ∧ Froze at_ g 0x24 0 at_.lanes 0#64 t)

/-- R25, R176, R154: YIELD blocks its issue set while another thread of the group may run, and has no effect but the passing of the instruction where
none may and no pre-emption waits; in a handler it freezes the group with handler_block. -/
def Obligations.YieldLetsOthersRun : Prop :=
  (∀ (st : BitVec 2) (s : State) (at_ : Site) (g : Group), Issues (.yield st) none s at_ g → g.handler = true →
    ∃ t, exec (.yield st) s = .next t ∧ Froze at_ g 0x24 0 at_.lanes 0#64 t)
  ∧ ∀ (st : BitVec 2) (s : State) (at_ : Site) (g : Group), Issues (.yield st) none s at_ g → g.handler = false → Tab.get? g.blocks s.uid = none →
    ((∃ l, l < g.threads.length ∧ at_.lanes.has l = false ∧ (g.thread l).live = true ∧ (g.thread l).meet = noMeeting ∧ (g.thread l).wait = .run) →
      ∃ t, exec (.yield st) s = .next t ∧ BlockedAt at_ s.uid (fun k => k = .yield) t ∧ Follows at_ { s with uid := s.uid + 1 } t)
    ∧ ((∀ l, l < g.threads.length → at_.lanes.has l = false → (g.thread l).wait ≠ .run ∧ (g.thread l).wait ≠ .block s.uid) → g.preempt = none →
      ∃ t, exec (.yield st) s = .next t ∧ Follows at_ { s with uid := s.uid + 1 } t
        ∧ ∃ g', Tab.get? t.groups at_.gid = some g' ∧ ∀ l, at_.lanes.has l = true → (g'.thread l).wait = .run ∧ (g'.thread l).pc = at_.next)

/-! ### Engines -/

/-- R180 to R185: a CPY or CPYQ whose block and ranges pass its checks posts a command with the team's next ticket, which it reads. R189, R190, R336, R337,
R386: a JPOST whose card may be read offers it to the target that G[B] names and reads the status; for an entry of a device queue, where nothing waits. Where it rests on choices of the model: log 41, 76. -/
def Obligations.CopiesAndCardsPost : Prop :=
  (∀ (st : BitVec 2) (d a : BitVec 7) (s : State) (at_ : Site) (g : Group) (x : LocalAt) (src dst : List Seg) (comp : Nat),
    let i := Instr.cpy st d a
    Issues i none s at_ g → Unwatched s g → localBlock s (ctxOf i s at_ g) (g.gval a).toNat 64 = .ok x →
    let b := BitVec.ofNat 512 (leNat (localBytes s x 64))
    cpyBad b = false → cpySrc b % 8 = 0 → cpyDst b % 8 = 0 →
    (if srcWin b then checkWindow s g (cpySrc b) (cpyLen b) else checkRange s (s.launch g.launch) g.keyperm .load (cpySrc b) (cpyLen b)) = .ok src →
    (if dstWin b then checkWindow s g (cpyDst b) (cpyLen b) else checkRange s (s.launch g.launch) g.keyperm .store (cpyDst b) (cpyLen b)) = .ok dst →
    checkCompw s (ctxOf i s at_ g) b = .ok comp → s.cmds.countP (fun e => e.2.team == g.team) < 64 →
      ∃ t, exec i s = .next t ∧ Passes at_ (posted i s at_ g d ((ctxOf i s at_ g).command s false b src dst comp)) t)
  ∧ (∀ (st : BitVec 2) (d a : BitVec 7) (s : State) (at_ : Site) (g : Group) (x : LocalAt) (k : Cmd),
    let i := Instr.cpyq st d a
    Issues i none s at_ g → Unwatched s g → localBlock s (ctxOf i s at_ g) (g.gval a).toNat 64 = .ok x →
    let b := BitVec.ofNat 512 (leNat (localBytes s x 64))
    cpyqBad (ctxOf i s at_ g) s b = false → cpyqCommand (ctxOf i s at_ g) s b = .ok k → s.cmds.countP (fun e => e.2.team == g.team) < 64 →
      k.quant = true ∧ k.block = b ∧ k.ticket = (s.team g.team).ticket
        ∧ ∃ t, exec i s = .next t ∧ Passes at_ (posted i s at_ g d k) t)
  ∧ (∀ (st : BitVec 2) (d a b : BitVec 7) (s : State) (at_ : Site) (g : Group) (ps : List Seg),
    let i := Instr.jpost st d a b
    Issues i none s at_ g → Unwatched s g → (g.gval64 a).toNat % 8 = 0 →
    checkRange s (s.launch g.launch) g.keyperm .load (g.gval64 a).toNat 128 = .ok ps → (s.team g.team).tx = none →
    (ctxOf i s at_ g).mayRelease (issuedState s at_ g) 4 = true →
    (bitsAt (g.gval b) 0 2 = 2 → ∀ sector, waitersOf s sector = []) →
    let out := offer (g.gval b) (g.gval64 a) g.core g.launch s
    (∃ t, exec i s = .next t ∧ Passes at_ (replied i out.2 at_ g [(.g d.toNat, BitVec.ofNat 32 out.1)]) t)
      ∧ (bitsAt (g.gval b) 2 6 ≠ 0 → out = (2, s))
      ∧ (g.gval b = 0#32 → (∀ e : ClusterEntry, e ∈ (s.cluster (clusterOf g.core)).queue → e.valid = true) → out = (1, s))
      ∧ (g.gval b = 0#32 → ∀ (k : Nat) (e : ClusterEntry), (s.cluster (clusterOf g.core)).queue[k]? = some e → e.valid = false →
        out.1 = 0 ∧ ∃ (j : Nat) (e' : ClusterEntry), j ≤ k ∧ (out.2.cluster (clusterOf g.core)).queue[j]? = some e' ∧ e'.valid = true ∧ e'.card = g.gval64 a
          ∧ e'.parent = g.launch))

/-! ### Transactions -/

/-- R192, R319: TXBEGIN of a group 0 opens a transaction of its team at its first rung, with nothing logged, and reads the rung. Where it rests on
choices of the model: log 46. -/
def Obligations.TxbeginOpens : Prop :=
  ∀ (st : BitVec 2) (d a : BitVec 7) (n : BitVec 3) (s : State) (at_ : Site) (g : Group) (u : Team),
    let i := Instr.txbegin st d a n
    let l := s.launch g.launch
    let lad := l.ladders.getD n.toNat 0
    Issues i none s at_ g → ladderValid lad = true → (g.gval a).toNat < 2 ^ 24 → g.gid = 0 → Tab.get? s.teams g.team = some u → u.tx = none →
    let rung := firstRung s l u n.toNat (g.gval a).toNat (ladderTop lad)
      ∃ t u' x r, exec i s = .next t ∧ Tab.get? t.teams g.team = some u' ∧ u'.tx = some x ∧ u'.replay = none ∧ x.ladder = n.toNat
        ∧ x.tile = (g.gval a).toNat ∧ x.rung = rung ∧ x.log = [] ∧ x.shadows = [] ∧ x.rtrip = false ∧ x.ctrip = false
        ∧ Tab.get? t.reqs (s.uid + 1) = some r ∧ r.kind = .value (asWrites none [(.g d.toNat, BitVec.ofNat 32 rung)])
        ∧ t.mem = s.mem ∧ GoesOn at_ s t

/-- R187, R193, R323, R325, R329: a tripped TXCOMMIT below the top rung ends the team's groups and queues its task again one rung up, with the assay table's
entry at that rung at least; its log reaches no memory, its deferred commands become STATE 5, its ticket numbers go on, and the scratchpad segments that it
shadowed hold what they held before. At the top it raises ladder_exhausted with the rung. That the assay table's entry is named by the context's CTXID is the
model's choice: log 46. -/
def Obligations.TxcommitTrips : Prop :=
  ∀ (st : BitVec 2) (d : BitVec 7) (s : State) (at_ : Site) (g : Group) (u : Team) (x : Tx), Issues (.txcommit st d) none s at_ g →
    Tab.get? s.teams g.team = some u → u.tx = some x → g.gid = 0 → (x.rtrip || x.ctrip) = true → txBusy s g.team x = false →
      (x.rung < x.top → ∀ l, Tab.get? s.launches u.launch = some l → l.fail = none →
        ∃ t l' u', exec (.txcommit st d) s = .next t ∧ (∀ n g', Tab.get? t.groups n = some g' → g'.team ≠ g.team)
          ∧ Tab.get? t.launches u.launch = some l' ∧ (⟨u.teamid, g.team, ⟨x.ladder, x.tile, x.rung + 1, x.top⟩⟩ : ReplayTask) ∈ l'.replays
          ∧ Tab.get? t.teams g.team = some u' ∧ u'.tx = none ∧ u'.ticket = u.ticket ∧ DeferredDropped g.team u u' s t
          ∧ AssaySet s t (s.launch g.launch) x
            (max (((assayWay s (s.launch g.launch) x.ladder x.tile).map (fun w => w.rung)).getD 0) (x.rung + 1)) 0
          ∧ (NoParks s → t.mem = s.mem)
          ∧ (ShadowsDistinct x → ∀ h ∈ x.shadows, h.lrf = false → (s.core h.core).dark = none →
            ∀ k, k < 4096 → Sparse.get 0#8 (t.core h.core).lstore (h.base + k) = h.bytes.getD k 0#8))
      ∧ (x.top ≤ x.rung → g.handler = false → g.trapvec ≠ 0#64 →
        ∃ t, exec (.txcommit st d) s = .next t ∧ Entered at_ g 0x0B x.rung at_.lanes 0#64 at_.next t ∧ t.mem = s.mem ∧ t.assay = s.assay)

/-- R196, R197, R297: TTLOAD puts its entries of memory into the team's tensor table, TTSET changes one field of an entry. Where it rests on choices of the model: log 43, 44. -/
def Obligations.TensorTableEntries : Prop :=
  (∀ (st : BitVec 2) (d a b : BitVec 7) (s : State) (at_ : Site) (g : Group) (ps : List Seg),
    let i := Instr.ttload st d a b
    let first := (g.gval d).toNat
    let count := (g.gval b).toNat
    Issues i none s at_ g → Unwatched s g → 0 < count → first + count ≤ 256 → (g.gval64 a).toNat % 64 = 0 →
    checkRange s (s.launch g.launch) g.keyperm .load (g.gval64 a).toNat (64 * count) = .ok ps → piecesLocked s g.core ps = none →
    (∀ p ∈ ps, s.unreadable p.pa p.len = false) → (s.team g.team).tx = none → clash s (ctxOf i s at_ g) (ps.map (fun p => (p.pa, p.len))) = false →
    let es := (List.range count).map (fun k => (BitVec.ofNat 512 (leNat (((piecesBytes s g.core ps).drop (64 * k)).take 64)) : Tensor))
    (∀ e ∈ es, tValid e = true → tensorBad e = false) →
      ∃ t, exec i s = .next t ∧ Passes at_ (s.modTeam g.team (putTensors first es)) t
        ∧ ∀ u, Tab.get? s.teams g.team = some u → ∃ u', Tab.get? t.teams g.team = some u'
          ∧ ∀ k, k < count → Tab.get? u'.tensors (first + k) = (es[k]?).filter tValid)
  ∧ (∀ (st : BitVec 2) (f a b : BitVec 7) (s : State) (at_ : Site) (g : Group) (u : Team) (e : Tensor),
    let i := Instr.ttset st f a b
    Issues i none s at_ g → (g.gval a).toNat ≤ 255 → Tab.get? s.teams g.team = some u → Tab.get? u.tensors (g.gval a).toNat = some e → u.tx = none →
    let e' := setTensorField e f.toNat (g.gval64 b)
    tensorBad e' = false → f.toNat < 8 →
      (∀ k, k < 512 → e'.getLsbD k = if k / 64 = f.toNat then (g.gval64 b).getLsbD (k % 64) else e.getLsbD k)
      ∧ ∃ t u', exec i s = .next t ∧ Passes at_ (s.modTeam g.team (putTensors (g.gval a).toNat [e'])) t ∧ Tab.get? t.teams g.team = some u'
        ∧ Tab.get? u'.tensors (g.gval a).toNat = if tValid e' then some e' else none)
  ∧ (∀ (st : BitVec 2) (f a b : BitVec 7) (s : State) (at_ : Site) (g : Group), Issues (.ttset st f a b) none s at_ g → (g.gval a).toNat ≤ 255 →
    Tab.get? (s.team g.team).tensors (g.gval a).toNat = none → (s.team g.team).tx = none →
      ∃ t, exec (.ttset st f a b) s = .next t ∧ Passes at_ s t)

/-! ### The Loom's commands as they issue -/

/-- R310, R311, R60: MZERO, MREAD and MWRITE post their commands; MWRITE reads its values as it issues. Where it rests on choices of the model: log 47. -/
def Obligations.AccumulatorCommandsPost : Prop :=
  (∀ (st : BitVec 2) (acc : BitVec 3) (s : State) (at_ : Site) (g : Group), Issues (.mzero st acc) none s at_ g → LoomOpen s g →
    ∃ t, exec (.mzero st acc) s = .next t ∧ LoomPosted at_ g (.zero acc.toNat) s t ∧ t.mem = s.mem ∧ t.reqs = s.reqs
      ∧ GoesOn at_ s t)
  ∧ (∀ (st : BitVec 2) (d : BitVec 7) (acc : BitVec 3) (a : BitVec 7) (s : State) (at_ : Site) (g : Group),
    Issues (.mread st d acc a) none s at_ g → LoomOpen s g → (g.gval a).toNat < 2 ^ 12 →
    ∃ t, exec (.mread st d acc a) s = .next t
      ∧ LoomPosted at_ g (.read acc.toNat ((g.gval a).toNat % 64) ((g.gval a).toNat / 64) (d.toNat - 64)) s t ∧ t.mem = s.mem ∧ t.reqs = s.reqs
      ∧ GoesOn at_ s t)
  ∧ (∀ (st : BitVec 2) (d : BitVec 7) (acc : BitVec 3) (a : BitVec 7) (s : State) (at_ : Site) (g : Group),
    IssuesForm (mwriteForm st d acc a) none s at_ g → LoomOpen s g → (g.gval a).toNat < 2 ^ 12 →
    let row := (g.gval a).toNat % 64
    let col := (g.gval a).toNat / 64
    ∃ t vals, exec (.mwrite st d acc a) s = .next t ∧ LoomPosted at_ g (.write acc.toNat row col vals) s t
      ∧ (∀ n w, (n, w) ∈ vals ↔ ∃ l, at_.lanes.has l = true ∧ col + l < 64 ∧ n = 64 * row + col + l ∧ w = g.reg l (.v (d.toNat - 64)))
      ∧ t.mem = s.mem ∧ t.reqs = s.reqs ∧ GoesOn at_ s t)

/-- R313, R314: MFENCE puts a fence over the core's earlier commands that it names, and with HOLD holds its group; MSTAT reads which accumulators are
named, whether a slot is being loaded, and how many commands there are. That MFENCE is none of the commands that it or MSTAT counts is the model's choice
(log 139). Where it rests on other choices of the model: log 47. -/
def Obligations.LoomFenceAndStatus : Prop :=
  (∀ (st : BitVec 2) (m : BitVec 8) (b h : BitVec 1) (s : State) (at_ : Site) (g : Group), Issues (.mfence st m b h) none s at_ g → LoomOpen s g →
    let named := fun (e : Nat × Loom) => e ∈ s.looms ∧ e.2.core = g.core
      ∧ ((b = 1#1 ∧ e.2.op.namesSlots = true) ∨ ∃ k, e.2.op.accumulator = some k ∧ m.getLsbD k = true)
    ((∀ e, ¬ named e) → ∃ t, exec (.mfence st m b h) s = .next t ∧ Passes at_ s t)
      ∧ ((∃ e, named e) → ∃ t f, exec (.mfence st m b h) s = .next t ∧ (t.core g.core).fences = (s.core g.core).fences ++ [f] ∧ f.mask = m
        ∧ f.slots = (b == 1#1) ∧ (∀ e, named e → NatSet.mem f.earlier e.1 = true)
        ∧ Tab.get? (t.core g.core).holds at_.gid = (if h = 1#1 then some f.earlier else Tab.get? (s.core g.core).holds at_.gid)
        ∧ t.mem = s.mem ∧ t.looms = s.looms ∧ t.reqs = s.reqs ∧ GoesOn at_ s t))
  ∧ (∀ (st : BitVec 2) (d : BitVec 7) (s : State) (at_ : Site) (g : Group), IssuesForm (mstatForm st d) none s at_ g → (s.launch g.launch).ttab ≠ 0 →
    let mine := s.looms.filter (fun e => e.2.core == g.core)
      ∃ t w, exec (.mstat st d) s = .next t ∧ (∃ r, Tab.get? t.reqs s.uid = some r ∧ r.group = at_.gid ∧ r.kind = .value (asWrites none [(.g d.toNat, w)]))
        ∧ (mine.length < 2 ^ 16 → w.toNat / 2 ^ 16 = mine.length ∧ (∀ k, k < 8 → w.getLsbD k = mine.any (fun e => e.2.op.accumulator == some k))
          ∧ w.getLsbD 8 = mine.any (fun e => match e.2.op with
            | .loadb _ _ _ _ => true
            | _ => false))
        ∧ t.mem = s.mem ∧ t.looms = s.looms ∧ GoesOn at_ s t)

/-- R154, R170, R171, R218, R230: an arrival at a barrier counts. One that does not complete the phase: BAR.arrive goes on and reads the phase, BAR.wait blocks its issue
set. The one that completes it starts the next phase with no arrivals and reads the phase that it completed with LAST as R170 and R171 say; the issue sets
that waited for it read theirs and go on, those of a halted group when it resumes, and those of a group whose handler is open once that is closed. A BAR.wait that would
wait in a handler freezes the group with handler_block. Where it rests on choices of the model: log 37. -/
def Obligations.BarriersCountArrivals : Prop :=
  (∀ (i : Instr) (waits : Bool) (d a : BitVec 7) (n : Nat) (s : State) (at_ : Site) (g : Group) (u : Team), barrierOf i = some (waits, d, a, n) →
    Issues i none s at_ g → Tab.get? s.teams g.team = some u → n < u.bars.length → (barOf s g n).arrived + 1 ≠ expected s g a n →
    (ctxOf i s at_ g).mayArrive (issuedState s at_ g) = true →
      (waits = false → ∃ t u', exec i s = .next t ∧ Tab.get? t.teams g.team = some u'
        ∧ u'.bars.getD n Barrier.start = {
            phase := (barOf s g n).phase, arrived := (barOf s g n).arrived + 1, expect := expected s g a n, highWait := highAfter s g n false }
        ∧ Passes at_ (replied i (s.modTeam g.team (fun x => { x with bars := u'.bars })) at_ g [(.g d.toNat, 0#1 ++ (barOf s g n).phase)]) t)
      ∧ (waits = true → g.handler = false → Tab.get? g.blocks s.uid = none →
        ∃ t u', exec i s = .next t ∧ Tab.get? t.teams g.team = some u'
        ∧ u'.bars.getD n Barrier.start = {
            phase := (barOf s g n).phase, arrived := (barOf s g n).arrived + 1, expect := expected s g a n, highWait := highAfter s g n true }
        ∧ BlockedAt at_ s.uid (fun k => k = .bar n (barOf s g n).phase d.toNat) t
        ∧ Follows at_ { s.modTeam g.team (fun x => { x with bars := u'.bars }) with uid := s.uid + 1 } t))
  ∧ (∀ (i : Instr) (d a : BitVec 7) (n : Nat) (s : State) (at_ : Site) (g : Group), barrierOf i = some (true, d, a, n) → Issues i none s at_ g →
    (barOf s g n).arrived + 1 ≠ expected s g a n → g.handler = true → ∃ t, exec i s = .next t ∧ Froze at_ g 0x24 0 at_.lanes 0#64 t)
  ∧ (∀ (i : Instr) (waits : Bool) (d a : BitVec 7) (n : Nat) (s : State) (at_ : Site) (g : Group) (u : Team), barrierOf i = some (waits, d, a, n) →
    Issues i none s at_ g → Tab.get? s.teams g.team = some u → n < u.bars.length → (barOf s g n).arrived + 1 = expected s g a n →
    (ctxOf i s at_ g).mayArrive (issuedState s at_ g) = true →
      ∃ t u', exec i s = .next t ∧ IssuersAt at_ (fun _ => at_.next) s t ∧ Tab.get? t.teams g.team = some u'
        ∧ (u'.bars.getD n Barrier.start).arrived = 0
        ∧ (u'.bars.getD n Barrier.start).highWait = none ∧ (u'.bars.getD n Barrier.start).phase = (barOf s g n).phase + 1#31
        ∧ (∃ m r, Tab.get? t.reqs m = some r ∧ r.group = at_.gid ∧ r.dest = [.g d.toNat]
          ∧ r.kind = .value (asWrites none [(.g d.toNat, phaseResult s g n waits true (if waits then some g.gid else none))]))
        ∧ (∀ n' g1 k b dest, Tab.get? s.groups n' = some g1 → (∀ e ∈ s.groups, e.1 = n' → e.2 = g1) → g1.team = g.team →
          Tab.get? g1.blocks k = some b → b.kind = .bar n (barOf s g n).phase dest →
          let r := phaseResult s g n waits false (some g1.gid)
          (g1.halted = false → (∀ e ∈ g1.blocks, ∀ es any t0, e.2.kind ≠ .wait es any t0 dest) →
              ∃ g2, Tab.get? t.groups n' = some g2 ∧ g2.greg dest = r
                ∧ (g1.handler = false → Tab.get? g2.blocks k = none
                  ∧ ∀ l, (g1.thread l).wait = .block k → (g2.thread l).wait = .run ∧ (g2.thread l).pc = b.next)
                ∧ (g1.handler = true → Tab.get? g2.blocks k = some { b with kind := .over }
                  ∧ ∀ l, (g1.thread l).wait = .block k → (g2.thread l).wait = .block k ∧ (g2.thread l).pc = (g1.thread l).pc))
            ∧ (g1.halted = true → b.woken = none →
              ∃ g2, Tab.get? t.groups n' = some g2 ∧ Tab.get? g2.blocks k = some { b with woken := some r }
                ∧ ∀ l, (g2.thread l).wait = (g1.thread l).wait ∧ (g2.thread l).pc = (g1.thread l).pc)))

/-- R193, R194, R187, R324, R326, R327, R329: TXCOMMIT with no trip, and TXCOMMIT.force in the handler of ladder_exhausted, close the transaction: its log
goes to the home slices as one new request, its deferred commands are queued in their order, the result says so, and the assay table's entry follows.
TXABORT closes it too: its log reaches no memory, its deferred commands are gone with STATE 5, the segments that it shadowed hold what they held before,
and the assay table stays. Its frame is stated where no WAIT is blocked on an event inside the device. That the assay table's entry is named by
the context's CTXID is the model's choice (log 46), that the deferred commands take new numbers from s.uid on, as if they were posted now, is too (log 55), and so is
what log 45 and 52 name: which reads a close waits for, and the handler that TXCOMMIT.force needs. -/
def Obligations.TransactionsClose : Prop :=
  (∀ (i : Instr) (force : Bool) (d : BitVec 7) (s : State) (at_ : Site) (g : Group) (u : Team) (x : Tx),
    ((∃ st, i = .txcommit st d) ∧ force = false ∨ (∃ st, i = .txcommitForce st d) ∧ force = true) → Issues i none s at_ g →
    Tab.get? s.teams g.team = some u → u.tx = some x → g.gid = 0 →
    (force = false → (x.rtrip || x.ctrip) = false) → (force = true → g.handler = true ∧ g.entered = 0x0B) →
    txBusy s g.team x = false → teamReleased s g.team = true → (ctxOf i s at_ g).mayRelease (issuedState s at_ g) 4 = true →
    Tab.sorted s.cmds = true → (∀ e ∈ s.cmds, e.1 < s.uid) →
    let result := BitVec.ofNat 32 (1 + (if x.rtrip || x.ctrip then 2 else 0) + x.rung * 256)
      ∃ t u' n r, exec i s = .next t ∧ s.uid ≤ n ∧ (∀ m, m < s.uid → Tab.get? t.reqs m = Tab.get? s.reqs m)
        ∧ ((x.rtrip || x.ctrip) = true → AssaySet s t (s.launch g.launch) x x.top 0)
        ∧ ((x.rtrip || x.ctrip) = false → AssayCalm s t (s.launch g.launch) x)
        ∧ Tab.get? t.teams g.team = some u' ∧ u'.tx = none ∧ u'.finished = u.finished ∧ t.mem = s.mem ∧ SameLocal s t
        ∧ (∀ e ∈ t.cmds, e.2.team = g.team → e.2.state ≠ 4)
        ∧ (∃ f : Nat → Nat, (∀ e ∈ s.cmds, deferredBy g.team e = true → s.uid ≤ f e.1 ∧ Tab.get? t.cmds e.1 = none
            ∧ Tab.get? t.cmds (f e.1) = some { e.2 with state := 0, deferred := true })
          ∧ (∀ e ∈ s.cmds, ∀ e' ∈ s.cmds, deferredBy g.team e = true → deferredBy g.team e' = true → e.1 < e'.1 → f e.1 < f e'.1))
        ∧ (∀ e ∈ s.cmds, deferredBy g.team e = false →
          Tab.get? t.cmds e.1 = some (if e.2.team = g.team then { e.2 with deferred := false } else e.2))
        ∧ Tab.get? t.reqs n = some r ∧ r.group = at_.gid ∧ r.dest = [.g d.toNat]
        ∧ r.kind = (if x.log = [] then .value (asWrites none [(.g d.toNat, result)]) else .commit x.log d.toNat result)
        ∧ GoesOn at_ s t)
  ∧ (∀ (st : BitVec 2) (s : State) (at_ : Site) (g : Group) (u : Team) (x : Tx), Issues (.txabort st) none s at_ g →
    Tab.get? s.teams g.team = some u → u.tx = some x → g.gid = 0 → ShadowsDistinct x → NoInnerWaits s →
    (∀ e ∈ s.reqs, e.2.team = g.team → ∀ p ps, e.2.kind ≠ .load p ps) →
      ∃ t u', exec (.txabort st) s = .next t ∧ Tab.get? t.teams g.team = some u' ∧ u'.tx = none ∧ t.mem = s.mem ∧ t.reqs = s.reqs
        ∧ t.assay = s.assay ∧ DeferredDropped g.team u u' s t
        ∧ ShadowsBack x s t ∧ GoesOn at_ s t)

/-- R303, R305 to R307, R309, R312: MLOADB, MLOOP and, outside a transaction, MSTORE post their commands on the tensor that their quad names, and the quad's row
and column grow; MLOOPG posts a loop with its own tag, after the commands that hold its predecessor tags, and its quad keeps its values. Where it rests on choices of the model: log 40, 47, 49. -/
def Obligations.PanelCommandsPost : Prop :=
  (∀ (st : BitVec 2) (b : BitVec 5) (q : BitVec 4) (l : BitVec 1) (s : State) (at_ : Site) (g : Group) (y : Tensor),
    let i := Instr.mloadb st b q l
    let x := quadOf g q
    Issues i none s at_ g → Unwatched s g → LoomOpen s g → resolveTensor s (ctxOf i s at_ g) x (l == 1#1) false loomOperand = .ok y →
    panelFail s (ctxOf i s at_ g) .load (panelRanges y x.row x.col 64).flatten = none →
      ∃ t, exec i s = .next t ∧ LoomPosted at_ g (.loadb b.toNat y x.row x.col) s t ∧ t.mem = s.mem
        ∧ (∃ r, Tab.get? t.reqs (s.uid + 1) = some r ∧ r.group = at_.gid ∧ r.kind = .value (asWrites none (quadAfter q x)))
        ∧ GoesOn at_ s t)
  ∧ (∀ (st : BitVec 2) (acc : BitVec 3) (q : BitVec 4) (l : BitVec 1) (b n : BitVec 5) (z : BitVec 1) (s : State) (at_ : Site) (g : Group) (y : Tensor),
    let i := Instr.mloop st acc q l b n z
    let x := quadOf g q
    Issues i none s at_ g → Unwatched s g → LoomOpen s g → (s.cluster (clusterOf g.core)).railup = true →
    resolveTensor s (ctxOf i s at_ g) x (l == 1#1) true loomOperand = .ok y →
    panelFail s (ctxOf i s at_ g) .load (panelRanges y x.row x.col (64 * (n.toNat + 1))).flatten = none →
      ∃ t, exec i s = .next t ∧ LoomPosted at_ g (.loop acc.toNat b.toNat (n.toNat + 1) (z == 1#1) y x.row x.col) s t ∧ t.mem = s.mem
        ∧ (∃ r, Tab.get? t.reqs (s.uid + 1) = some r ∧ r.group = at_.gid ∧ r.kind = .value (asWrites none (quadAfter q x)))
        ∧ GoesOn at_ s t)
  ∧ (∀ (st : BitVec 2) (acc : BitVec 3) (q : BitVec 4) (r : BitVec 3) (ty : BitVec 1) (s : State) (at_ : Site) (g : Group) (y : Tensor),
    let i := Instr.mstore st acc q r ty
    let x := quadOf g q
    Issues i none s at_ g → Unwatched s g → LoomOpen s g → (s.team g.team).tx = none →
    resolveTensor s (ctxOf i s at_ g) x false false (mstoreTarget (ty == 1#1)) = .ok y →
    panelFail s (ctxOf i s at_ g) .store (panelRanges y x.row x.col 64).flatten = none →
      ∃ t, exec i s = .next t ∧ LoomPosted at_ g (.store acc.toNat y x.row x.col r.toNat (ty == 1#1)) s t ∧ t.mem = s.mem
        ∧ (∃ r, Tab.get? t.reqs (s.uid + 1) = some r ∧ r.group = at_.gid ∧ r.kind = .value (asWrites none (quadAfter q x)))
        ∧ GoesOn at_ s t)
  ∧ (∀ (st : BitVec 2) (acc : BitVec 3) (q : BitVec 4) (l : BitVec 1) (b n : BitVec 5) (z : BitVec 1) (s : State) (at_ : Site) (g : Group) (y : Tensor),
    let i := Instr.mloopg st acc q l b n z
    let x := quadOf g q
    Issues i none s at_ g → Unwatched s g → LoomOpen s g → (s.cluster (clusterOf g.core)).railup = true →
    Tab.get? (s.core g.core).tags (bitsAt x.last 0 8) = none → bitsAt x.last 26 6 = 0 →
    resolveTensor s (ctxOf i s at_ g) x (l == 1#1) true loomOperand = .ok y →
    panelFail s (ctxOf i s at_ g) .load (panelRanges y x.row x.col (64 * (n.toNat + 1))).flatten = none →
      ∃ t c, exec i s = .next t ∧ LoomPosted at_ g (.loop acc.toNat b.toNat (n.toNat + 1) (z == 1#1) y x.row x.col) s t
        ∧ Tab.get? t.looms s.uid = some c ∧ c.tag = some (bitsAt x.last 0 8) ∧ Tab.get? (t.core g.core).tags (bitsAt x.last 0 8) = some s.uid
        ∧ (x.last.getLsbD 24 = true → ∀ k, Tab.get? (s.core g.core).tags (bitsAt x.last 8 8) = some k → NatSet.mem c.after k = true)
        ∧ (x.last.getLsbD 25 = true → ∀ k, Tab.get? (s.core g.core).tags (bitsAt x.last 16 8) = some k → NatSet.mem c.after k = true)
        ∧ t.mem = s.mem ∧ t.reqs = s.reqs ∧ GoesOn at_ s t)

/-! ### Results and writes that reach their slices -/

/-- R63, R127, R128, R130, R150, R210, R262: PENDING_WRITE_LANDS. A result whose time has come, or a load whose bytes may be read and hold no poison, lands in its
registers. Memory stays, but that a load of a sealed page of another die may copy the page into the reader's replica pool. Where no copy, store in flight,
replica or log changes a byte of a load it is the byte at its home. Where it rests on choices of the model: log 65, 74. -/
def Obligations.ResultsLand : Prop :=
  (∀ (n lease : Nat) (s : State) (r : Req) (ws : List RegWrite) (g : Group), Tab.get? s.reqs n = some r → r.kind = .value ws → r.notBefore ≤ s.time →
    Tab.get? s.groups r.group = some g → heldByHalt s n r.group = false →
      ∃ t g', exec (.pendingWriteLands n lease) s = .next t ∧ Tab.get? t.reqs n = none ∧ Tab.get? t.groups r.group = some g'
        ∧ (∀ l q, g'.reg l q = landed g ws l q) ∧ t.mem = s.mem ∧ (∀ k, k ≠ r.group → Tab.get? t.groups k = Tab.get? s.groups k))
  ∧ (∀ (n lease : Nat) (s : State) (r : Req) (p : Path) (parts : List LoadPart) (g : Group), Tab.get? s.reqs n = some r → r.kind = .load p parts →
    loadReady s n r parts = true → (∀ x ∈ parts, partPoisoned s r p x = false) → Tab.get? s.groups r.group = some g → heldByHalt s n r.group = false →
    (s.mode.getLsbD 3 = true ∨ NoWaiters s) →
    let pool := (s.die (dieOf r.core)).replbase.toNat * 0x200000
      ∃ t g', exec (.pendingWriteLands n lease) s = .next t ∧ Tab.get? t.reqs n = none ∧ Tab.get? t.groups r.group = some g'
        ∧ (∀ l q, g'.reg l q = landed g (parts.flatMap (fun x => loadWrites x (partBytes s r.team r.core p x))) l q)
        ∧ (s.mode.getLsbD 3 = true → t.mem = s.mem)
        ∧ (∀ a, a < pool ∨ pool + (s.die (dieOf r.core)).replsize.toNat * 0x200000 ≤ a → t.byte a = s.byte a))
  ∧ (∀ (s : State) (r : Req) (p : Path) (x : LoadPart), (∀ k, k < x.size →
      let a := x.pa + k
      aperture a = 0 ∧ supplier s r.core p a = none ∧ replicaOf s r.core a = a
        ∧ (p = .gen → withStores s (clusterOf r.core) a (s.byte a) = s.byte a)
        ∧ (∀ y, (s.team r.team).tx = some y → logByte y.log a (s.byte a) = s.byte a)) →
    partBytes s r.team r.core p x = s.bytes x.pa x.size)

/-- R100, R126, R138 to R141, R175, R258, R269, R324: SLICE_STORE_PERFORM and SLICE_ATOMIC_PERFORM. A part of a store, or a write of a committed log, changes the
bytes it stores and no other byte; a fill of the log fills its word, or is dropped and counted in FEDROP where the word is full; a reduction of the log is
performed on its word, or, where that is poisoned, leaves it and is recorded. An atomic leaves what its lanes make of the word in turn, and gives each lane
the value before it; none of the words of an atomic is performed before all of them can be, and then each of them will be. A store wakes the WAIT that a monitor of
its sector holds, if its condition holds now. Where it rests on choices of the model: log 23, 112. -/
def Obligations.SlicesPerformWrites : Prop :=
  (∀ (n part : Nat) (s : State) (r : Req) (ps : List StorePart) (x : StorePart), Tab.get? s.reqs n = some r → r.kind = .store ps → ps[part]? = some x →
    partReady s n r ps part x = true → aperture x.pa ≠ 2 → NoWaiters s →
      ∃ t, exec (.sliceStorePerform n part) s = .next t ∧ Stored s t x.pa x.bytes ∧ t.full = s.full
        ∧ t.reqs = (Tab.put s.reqs n { r with
            kind := .store (ps.eraseIdx part), notBefore := max r.notBefore (writeCompletion s x.pa), hostAck := r.hostAck || aperture x.pa == 3,
            peerAck := r.peerAck || aperture x.pa == 1 }).filter (fun e => !e.2.finished s.time)
        ∧ (∀ gid l q, t.reg gid l q = s.reg gid l q))
  ∧ (∀ (n : Nat) (s : State) (r : Req) (e : LogEntry) (rest : List LogEntry) (reg : Nat) (result : Word) (b : List Byte), Tab.get? s.reqs n = some r →
    r.kind = .commit (e :: rest) reg result → e.op = .write b → storesAhead s (clusterOf r.core) n [(e.pa - e.pa % 8, 8)] = false →
    peerAnswers s e.pa = true → aperture e.pa ≠ 2 → NoWaiters s →
      ∃ t r', exec (.sliceStorePerform n 0) s = .next t ∧ Stored s t e.pa b ∧ Tab.get? t.reqs n = some r'
        ∧ r'.kind = if rest = [] then .value [{ lane := none, reg := reg, val := result }] else .commit rest reg result)
  ∧ (∀ (n : Nat) (s : State) (r : Req) (e : LogEntry) (rest : List LogEntry) (reg : Nat) (result : Word), Tab.get? s.reqs n = some r →
    r.kind = .commit (e :: rest) reg result → storesAhead s (clusterOf r.core) n [(e.pa - e.pa % 8, 8)] = false → peerAnswers s e.pa = true → NoWaiters s →
    ∃ t r', exec (.sliceStorePerform n 0) s = .next t ∧ Tab.get? t.reqs n = some r'
      ∧ r'.kind = (if rest = [] then .value [{ lane := none, reg := reg, val := result }] else .commit rest reg result)
      ∧ (∀ d, e.op = .fill d →
        (s.isFull e.pa = true → t.mem = s.mem ∧ t.full = s.full ∧ (t.core e.core).fedrop = (s.core e.core).fedrop + 1#64)
        ∧ (s.isFull e.pa = false → e.pa % 8 = 0 → Stored s t e.pa (leBytes 8 d.toNat) ∧ t.isFull e.pa = true
          ∧ (∀ q, q / 8 ≠ e.pa / 8 → t.isFull q = s.isFull q) ∧ (t.core e.core).fedrop = (s.core e.core).fedrop))
      ∧ (∀ op ty x, e.op = .reduce op ty x →
        (s.poisoned e.pa (typeSize ty) = false → t.full = s.full
          ∧ Stored s t e.pa (leBytes (typeSize ty) (atomicF op ty (BitVec.ofNat 64 (s.read e.pa (typeSize ty))) x 0#64).toNat))
        ∧ (s.poisoned e.pa (typeSize ty) = true → t.mem = (poisonRecord r.launch e.pa s).mem ∧ t.full = s.full)))
  ∧ (∀ (n : Nat) (s : State) (r : Req) (op : AtomOp) (ty : BitVec 3) (va : DWord) (pa : Nat) (ops : List AtomLane) (reg : Option Nat),
    Tab.get? s.reqs n = some r → r.kind = .atomic op ty va pa ops reg → storesAhead s (clusterOf r.core) n [(pa, typeSize ty)] = false →
    (reg = none → peerAnswers s pa = true ∧ s.poisoned pa (typeSize ty) = false) →
    (reg.isSome = true → r.sure = true ∨ (atomicPoisoned s r = [] ∧ ∀ e ∈ siblings s r, e.2.kind.joint = true → wordReady s e = true)) → NoWaiters s →
    let m := BitVec.ofNat 64 (s.read pa (typeSize ty))
    ∃ t, exec (.sliceAtomicPerform n) s = .next t ∧ Stored s t pa (leBytes (typeSize ty) (atomFold op ty m ops).toNat) ∧ t.full = s.full
      ∧ (reg = none → Tab.get? t.reqs n = none)
      ∧ (reg.isSome = true → r.sure = false → ∀ e ∈ siblings s r, e.1 ≠ n → e.2.kind.joint = true → e.1 < s.uid →
        ∃ q, Tab.get? t.reqs e.1 = some q ∧ q.sure = true)
      ∧ (∀ d, reg = some d → ∃ r', Tab.get? t.reqs n = some r' ∧ r'.kind = .value ((List.range ops.length).flatMap (fun k =>
          match ops[k]? with
          | some o => atomWrites o.lane d ty (atomFold op ty m (ops.take k))
          | none => []))))
  ∧ (∀ (n : Nat) (s : State) (r : Req) (op : AtomOp) (ty : BitVec 3) (va : DWord) (pa : Nat) (ops : List AtomLane) (d : Nat),
    Tab.get? s.reqs n = some r → r.kind = .atomic op ty va pa ops (some d) → r.sure = false → atomicPoisoned s r = [] →
    (∃ e ∈ siblings s r, e.2.kind.joint = true ∧ wordReady s e = false) → exec (.sliceAtomicPerform n) s = .next s)
  ∧ (∀ (n part gid id k dest : Nat) (s : State) (r : Req) (ps : List StorePart) (x : StorePart) (g : Group) (b : Block) (e : WaitEntry) (any : Bool),
    Tab.get? s.reqs n = some r → r.kind = .store ps → ps[part]? = some x → partReady s n r ps part x = true → aperture x.pa ≤ 1 →
    AwaitsOne s gid id k g b e any dest → (e.kind = 1 ∨ e.kind = 2) → e.pa / 64 = x.pa / 64 →
      ∃ t, exec (.sliceStorePerform n part) s = .next t ∧ Stored s t x.pa x.bytes ∧ t.full = s.full
        ∧ (holdsOn t e = true → WaitEnded gid id k g b any dest t) ∧ (holdsOn t e = false → Tab.get? t.groups gid = some g))

/-- R142, R191, R260, R261: SLICE_APPEND_PERFORM and SLICE_SEAL_PERFORM. On an open page the records go to the tail one after the other while they fit, each lane
gets its offset or 0xFFFF_FFFF, and TAIL follows. On a sealed page a trial gets 0xFFFF_FFFE; an APPEND raises write_after_seal for the lanes of the page, once
every page has answered, and the other lanes go on. A seal sets SEALED and reads TAIL, or 0xFFFF_FFFE. -/
def Obligations.SlicesAppendAndSeal : Prop :=
  (∀ (n : Nat) (s : State) (r : Req) (trial : Bool) (base size bytes : Nat) (recs : List AppendRec) (reg : Nat) (g : Group) (j : AppendJob),
    Tab.get? s.reqs n = some r → r.kind = .append trial base size bytes recs reg → s.sealed base = false → 0 < bytes →
    (∀ x ∈ recs, x.bytes.length = bytes) → NoWaiters s → s.tailPa base + 8 ≤ base ∨ base + size ≤ s.tailPa base →
    Tab.get? s.groups r.group = some g → g.append = some j → j.sealed = [] →
    let t0 := roundUpTo (s.tail base) bytes
    let count := min recs.length ((size - t0) / bytes)
    ∃ t r', exec (.sliceAppendPerform n) s = .next t ∧ Tab.get? t.reqs n = some r'
      ∧ r'.kind = .value (recs.zipIdx.map (fun x =>
          { lane := some x.1.lane, reg := reg, val := if x.2 < count then BitVec.ofNat 32 (t0 + bytes * x.2) else 0xFFFFFFFF#32 }))
      ∧ (∀ k x i, recs[k]? = some x → k < count → i < bytes → t.byte (base + t0 + bytes * k + i) = x.bytes.getD i 0#8)
      ∧ (∀ a, (a < base + t0 ∨ base + t0 + bytes * count ≤ a) → (a < s.tailPa base ∨ s.tailPa base + 8 ≤ a) → t.byte a = s.byte a)
      ∧ t.tail base = (if count = 0 then s.tail base else (t0 + bytes * count) % 2 ^ 22) ∧ t.sealed base = false)
  ∧ (∀ (n : Nat) (s : State) (r : Req) (base size bytes : Nat) (recs : List AppendRec) (reg : Nat) (g : Group) (j : AppendJob),
    Tab.get? s.reqs n = some r → r.kind = .append true base size bytes recs reg → s.sealed base = true →
    Tab.get? s.groups r.group = some g → g.append = some j → j.sealed = [] →
      ∃ t r', exec (.sliceAppendPerform n) s = .next t ∧ Tab.get? t.reqs n = some r' ∧ t.mem = s.mem
        ∧ r'.kind = .value (recs.map (fun x => { lane := some x.lane, reg := reg, val := 0xFFFFFFFE#32 })))
  ∧ (∀ (n : Nat) (s : State) (r : Req) (base size bytes : Nat) (x : AppendRec) (recs : List AppendRec) (reg : Nat) (g : Group) (j : AppendJob),
    Tab.get? s.reqs n = some r → r.kind = .append false base size bytes (x :: recs) reg → s.sealed base = true →
    Tab.get? s.groups r.group = some g → g.append = some j → j.sealed = [] → j.left ≤ 1 →
    (x :: recs).Pairwise (fun a b => a.lane < b.lane) → (∀ y ∈ x :: recs, y.lane < 64) → g.frozen = false → g.handler = false → g.trapvec ≠ 0#64 →
    let sealedLane := fun (l : Nat) => ∃ y ∈ x :: recs, y.lane = l
      ∃ t g', exec (.sliceAppendPerform n) s = .next t ∧ t.mem = s.mem ∧ Tab.get? t.reqs n = none ∧ Tab.get? t.groups r.group = some g'
        ∧ g'.append = none ∧ g'.handler = true ∧ g'.trapcause = causeBits 0x04 0 j.pfx.isSome ∧ (∀ l, g'.traplanes.has l = true ↔ sealedLane l)
        ∧ g'.trapaddr = x.va ∧ g'.trappc = j.pc ∧ g'.trapword = j.word
        ∧ (∀ l, l < g.threads.length → sealedLane l → (g'.thread l).wait = .run ∧ (g'.thread l).pc = g.trapvec)
        ∧ (∀ l, l < g.threads.length → ¬ sealedLane l → j.lanes.has l = true → (g'.thread l).wait = .run ∧ (g'.thread l).pc = j.next)
        ∧ (∀ l q, g'.reg l q = g.reg l q))
  ∧ (∀ (n : Nat) (s : State) (r : Req) (base reg : Nat), Tab.get? s.reqs n = some r → r.kind = .seal base reg → NoWaiters s →
      ∃ t r', exec (.sliceSealPerform n) s = .next t ∧ Tab.get? t.reqs n = some r' ∧ t.sealed base = true ∧ t.tail base = s.tail base
        ∧ r'.kind = .value [{ lane := none, reg := reg, val := if s.sealed base then 0xFFFFFFFE#32 else BitVec.ofNat 32 (s.tail base) }]
        ∧ (s.sealed base = true → t.mem = s.mem) ∧ (∀ a, a < s.tailPa base ∨ s.tailPa base + 8 ≤ a → t.byte a = s.byte a))

/-- R100, R135 to R137, R154, R218, R254, R256 to R258: SLICE_FE_ACCESS and FE_POLL_TRY. A lane whose word is in the state that its form awaits is performed: the word and its bit change as
R135 says, D lands, and a waiting thread goes on, but, where its group's handler is open and not its own, only after TRAPRET. One whose word is not is held by a monitor, or, where it finds none, by a park record, or tried again 256 ref ticks
later, and raises park_exhausted where every record is used; a lane issued in a handler that would be parked or polled freezes the group. A fill wakes the load that a monitor or a record holds. An STFS fills its
words. Where it rests on choices of the model: log 19, 54, 112, 117. -/
def Obligations.SlicesPerformFullEmpty : Prop :=
  (∀ (i : Instr) (n : Nat) (s : State) (r : Req) (k : FeKind) (lane : Nat) (va : DWord) (pa : Nat) (data : DWord) (reg : Nat) (w : Watch) (g : Group),
    Tab.get? s.reqs n = some r → r.kind = .fe k lane va pa data reg w → n < s.uid → r.core ≠ peerCore → feBehind s n r lane pa = false →
    ((i = .sliceFeAccess n ∧ w = .flying ∧ feQueued s n r lane pa = false
        ∧ (if feWaits k then peerAnswers s pa = true else r.sure = true ∨ ∀ e ∈ siblings s r, e.2.kind.joint = true → wordReady s e = true))
      ∨ (∃ at_, i = .fePollTry n ∧ w = .polled at_ ∧ at_ ≤ s.time)) →
    feReady s k pa = true → fePoisoned s r k lane va pa = [] → NoWaiters s → Tab.get? s.groups r.group = some g → (feWaits k = true → g.halted = false) →
      ∃ t g', exec i s = .next t ∧ FeDone s t k pa data ∧ Tab.get? t.reqs n = none ∧ Tab.get? t.groups r.group = some g'
        ∧ (∀ l q, g'.reg l q = landed g (feWrites k lane reg (feWord s k pa)) l q)
        ∧ (feWaits k = true → lane < g.threads.length → lane < 64 → g.handler = false ∨ g.hset.has lane = true →
          (g'.thread lane).wait = .run ∧ (g'.thread lane).pc = r.site.next)
        ∧ (feWaits k = true → lane < g.threads.length → lane < 64 → g.handler = true → g.hset.has lane = false → (g'.thread lane).pc = (g.thread lane).pc
          ∧ ∃ id b, (g'.thread lane).wait = .block id ∧ Tab.get? g'.blocks id = some b ∧ b.kind = .over ∧ b.next = r.site.next))
  ∧ (∀ (n : Nat) (s : State) (r : Req) (k : FeKind) (lane : Nat) (va : DWord) (pa : Nat) (data : DWord) (reg : Nat) (g : Group),
    Tab.get? s.reqs n = some r → r.kind = .fe k lane va pa data reg .flying → feQueued s n r lane pa = false → feReady s k pa = false →
    aperture pa = 0 → monitorsAt s (homeSlice pa) < 192 → NatSet.mem s.watched (pa / 64) = false → Tab.get? s.groups r.group = some g → g.frozen = false →
      ∃ t r', exec (.sliceFeAccess n) s = .next t ∧ Tab.get? t.reqs n = some r' ∧ r'.kind = .fe k lane va pa data reg (.monitor s.uid)
        ∧ t.mem = s.mem ∧ t.full = s.full ∧ t.groups = s.groups)
  ∧ (∀ (n at_ : Nat) (s : State) (r : Req) (k : FeKind) (lane : Nat) (va : DWord) (pa : Nat) (data : DWord) (reg : Nat),
    Tab.get? s.reqs n = some r → r.kind = .fe k lane va pa data reg (.polled at_) → at_ ≤ s.time →
    (feReady s k pa = false ∨ feBehind s n r lane pa = true) →
      ∃ t r', exec (.fePollTry n) s = .next t ∧ Tab.get? t.reqs n = some r' ∧ t.mem = s.mem ∧ t.full = s.full
        ∧ r'.kind = .fe k lane va pa data reg (.polled (s.time + 256 * refTick)))
  ∧ (∀ (n : Nat) (s : State) (r : Req) (ls : List FillLane), Tab.get? s.reqs n = some r → r.kind = .stfs ls → (∀ x ∈ ls, peerAnswers s x.pa = true) →
    storesAhead s (clusterOf r.core) n (ls.map (fun x => (x.pa, 8))) = false → doubleFills s ls = [] → (ls.map (fun x => x.lane)).Nodup →
    (∀ x ∈ ls, x.pa % 8 = 0) → NoWaiters s →
      ∃ t, exec (.sliceFeAccess n) s = .next t ∧ (∀ x ∈ ls, t.read x.pa 8 = x.data.toNat ∧ t.isFull x.pa = true)
        ∧ (∀ a, (∀ x ∈ ls, a < x.pa ∨ x.pa + 8 ≤ a) → t.byte a = s.byte a ∧ t.isFull a = s.isFull a))
  ∧ (∀ (n m lane lane2 pa reg reg2 : Nat) (s : State) (r q : Req) (va va2 data data2 : DWord) (w : Watch) (g g2 : Group), Tab.get? s.reqs n = some r →
    r.kind = .fe .stf lane va pa data reg .flying → Tab.get? s.reqs m = some q → q.kind = .fe .ldw lane2 va2 pa data2 reg2 w →
    n < s.uid → m < s.uid → r.core ≠ peerCore → q.core ≠ peerCore → feQueued s n r lane pa = false → feBehind s n r lane pa = false →
    feBehind s m q lane2 pa = false → s.isFull pa = false → aperture pa = 0 → pa % 8 = 0 → waitersOf s (pa / 64) = [.fe m] →
    Tab.get? s.groups r.group = some g → g.halted = false → Tab.get? s.groups q.group = some g2 → g2.halted = false → g.handler = false → g2.handler = false →
    let rec_ := (s.launch q.launch).parkRecord
    ((∃ c, w = .monitor c) ∨ ∃ i, w = .parked i ∧ recordState s q.launch i pa = .holds ∧ (rec_ i + 32 ≤ pa ∨ pa + 8 ≤ rec_ i)) →
      ∃ t g', exec (.sliceFeAccess n) s = .next t ∧ t.read pa 8 = data.toNat ∧ t.isFull pa = true ∧ Tab.get? t.reqs n = none ∧ Tab.get? t.reqs m = none
        ∧ Tab.get? t.groups q.group = some g' ∧ (∀ l x, g'.reg l x = landed g2 (feWrites .ldw lane2 reg2 data) l x)
        ∧ (lane2 < g2.threads.length → (g'.thread lane2).wait = .run ∧ (g'.thread lane2).pc = q.site.next)
        ∧ (∀ a, (a < pa ∨ pa + 8 ≤ a) → (∀ i, w = .parked i → a < rec_ i ∨ rec_ i + 32 ≤ a) → t.byte a = s.byte a)
        ∧ (∀ i, w = .parked i → t.read (rec_ i) 32 = 0))
  ∧ (∀ (n : Nat) (s : State) (r : Req) (k : FeKind) (lane : Nat) (va : DWord) (pa : Nat) (data : DWord) (reg : Nat) (g : Group),
    Tab.get? s.reqs n = some r → r.kind = .fe k lane va pa data reg .flying → feQueued s n r lane pa = false → feReady s k pa = false →
    aperture pa = 0 → (192 ≤ monitorsAt s (homeSlice pa) ∨ NatSet.mem s.watched (pa / 64) = true) → Tab.get? s.groups r.group = some g → g.frozen = false →
    let l := s.launch r.launch
    let used := fun i => s.read (l.parkRecord i + 6) 1 % 8 ≠ 0
    (g.inHandler lane = false → l.parksz = 0 → ∃ t r', exec (.sliceFeAccess n) s = .next t ∧ Tab.get? t.reqs n = some r' ∧ t.mem = s.mem ∧ t.full = s.full
      ∧ r'.kind = .fe k lane va pa data reg (.polled (s.time + 256 * refTick)) ∧ ∀ p x, t.reg r.group p x = s.reg r.group p x)
    ∧ (∀ i, g.inHandler lane = false → l.parksz ≠ 0 → i < l.parksz / 32 → ¬ used i → (∀ j, j < i → used j) →
      ∃ t r', exec (.sliceFeAccess n) s = .next t ∧ Tab.get? t.reqs n = some r' ∧ r'.kind = .fe k lane va pa data reg (.parked i)
        ∧ NatSet.mem t.watched (pa / 64) = true ∧ t.full = s.full ∧ t.read (l.parkRecord i) 32 = parkRecordOf g k lane pa data
        ∧ (∀ a, (a < l.parkRecord i ∨ l.parkRecord i + 32 ≤ a) → t.byte a = s.byte a) ∧ ∀ p x, t.reg r.group p x = s.reg r.group p x)
    ∧ (l.parksz ≠ 0 → (∀ i, i < l.parksz / 32 → used i) → mayTake s g = true → g.handler = false → g.trapvec ≠ 0#64 → lane < 64 → lane < g.threads.length →
      ∃ t g', exec (.sliceFeAccess n) s = .next t ∧ Tab.get? t.groups r.group = some g' ∧ g'.handler = true
        ∧ g'.trapcause = causeBits 0x09 0 r.pfx.isSome ∧ g'.traplanes.has lane = true ∧ g'.trappc = r.pc ∧ (g'.thread lane).pc = g.trapvec
        ∧ Tab.get? t.reqs n = none)
    ∧ (g.inHandler lane = true → mayTake s g = true → (l.parksz = 0 ∨ ∃ i, i < l.parksz / 32 ∧ ¬ used i) →
      ∃ t g', exec (.sliceFeAccess n) s = .next t ∧ Tab.get? t.groups r.group = some g' ∧ g'.frozen = true
        ∧ g'.trapcause = causeBits 0x24 0 r.pfx.isSome ∧ (∀ p x, g'.reg p x = g.reg p x)))

/-! ### Waits and gates -/

/-- R137, R175, R218, R259, R341: WAIT_TIMEOUT, WAIT_POLL, GATE_POLL and FE_TIMEOUT. A blocked WAIT whose timeout has passed, or whose polled condition holds, ends
with its result, and its threads go on, but, where a handler of their group is open, only after TRAPRET; one whose does not is tried again; a polled gate
resolves on a full word, which one at a peer that gives no answer is not (log 142); a waiting full/empty form whose budget has run out raises fe_timeout. -/
def Obligations.WaitsEnd : Prop :=
  (∀ (n w : Nat) (s : State) (g : Group) (lanes : LaneSet) (next : DWord) (es : List WaitEntry) (any : Bool) (t0 dest : Nat),
    Tab.get? s.groups n = some g → Tab.get? g.blocks w = some { lanes := lanes, next := next, kind := .wait es any (some t0) dest } →
    mayTake s g = true → t0 ≤ s.time →
      ∃ t g', exec (.waitTimeout n w) s = .next t ∧ Tab.get? t.groups n = some g'
        ∧ g'.greg dest = (waitResult s g es any).getD 0xFFFFFFFF#32 ∧ (∀ m, m ≠ dest → g'.greg m = g.greg m) ∧ WentOn g w next g')
  ∧ (∀ (n w : Nat) (s : State) (g : Group) (lanes : LaneSet) (next : DWord) (es : List WaitEntry) (any : Bool) (deadline : Option Nat) (dest : Nat),
    Tab.get? s.groups n = some g → Tab.get? g.blocks w = some { lanes := lanes, next := next, kind := .wait es any deadline dest } →
    g.halted = false → es.any (fun e => e.due s.time) = true →
      (∀ v, waitResult s g es any = some v → ∃ t g', exec (.waitPoll n w) s = .next t ∧ Tab.get? t.groups n = some g' ∧ g'.greg dest = v ∧ WentOn g w next g')
      ∧ (waitResult s g es any = none → ∃ t g' es', exec (.waitPoll n w) s = .next t ∧ Tab.get? t.groups n = some g'
        ∧ Tab.get? g'.blocks w = some { lanes := lanes, next := next, kind := .wait es' any deadline dest }
        ∧ es' = es.map (fun e => if e.due s.time then { e with watch := .polled (s.time + 256 * refTick) } else e) ∧ t.mem = s.mem))
  ∧ (∀ (n k pa at_ : Nat) (s : State) (l : Launch), Tab.get? s.launches n = some l →
    l.gates[k]? = some { pa := pa, resolved := false, watch := .polled at_ } → at_ ≤ s.time →
      ∃ t l', exec (.gatePoll n k) s = .next t ∧ Tab.get? t.launches n = some l'
        ∧ l'.gates[k]? = some (if peerAnswers s pa && s.isFull pa then { pa := pa, resolved := true, watch := .polled at_ }
            else { pa := pa, resolved := false, watch := .polled (s.time + 256 * refTick) })
        ∧ (∀ j, j ≠ k → l'.gates[j]? = l.gates[j]?)
        ∧ (peerAnswers s pa = true → s.isFull pa = true → (∀ j x, j ≠ k → l.gates[j]? = some x → x.resolved = true) → l.phase = .gated → l'.phase = .running))
  ∧ (∀ (n : Nat) (s : State) (r : Req) (k : FeKind) (lane : Nat) (va : DWord) (pa : Nat) (data : DWord) (reg : Nat) (w : Watch) (g : Group),
    Tab.get? s.reqs n = some r → r.kind = .fe k lane va pa data reg w → (∀ x, w ≠ .done x) → feWaits k = true → Tab.get? s.groups r.group = some g →
    mayTake s g = true → budgetOver s g r lane = true → g.handler = false → g.trapvec ≠ 0#64 → lane < 64 → lane < g.threads.length →
      ∃ t g', exec (.feTimeout n) s = .next t ∧ Tab.get? t.groups r.group = some g' ∧ g'.handler = true
        ∧ g'.trapcause = causeBits 0x0A 0 r.pfx.isSome ∧ g'.traplanes.has lane = true ∧ g'.trappc = r.pc ∧ (g'.thread lane).pc = g.trapvec
        ∧ Tab.get? t.reqs n = none)

/-! ### The dispatcher -/

/-- R335, R336, R338 to R340, R11, R241, R343, R334, R345, R353 to R355, R12: DEVICE_QUEUE_TAKE and CLUSTER_QUEUE_TAKE take the entry that is due and free its place; the
card is read, checked, given its extents and accepted or refused; TEAM_PLACE starts the launch's
next team on the core, its groups at ENTRY with their context's keys; PLACEMENT_WAIT_EXPIRY asks groups of lower PRIO to go once a team has waited 10,000 ref
ticks, no core qualifies and none will when those asked before have gone; LAUNCH_QUIET ends a quiet launch: its ring entry says so, and then its completion word
is written and set full. Where it rests on choices of the model: log 32, 33, 38, 59, 62, 64, 80, 81, 82, 96, 114, 142, 144. -/
def Obligations.DispatcherTakesAndPlaces : Prop :=
  (∀ (s : State), QueueOrder s)
  ∧ (∀ (s : State) (n p : Nat), n < 64 → queuePrio s n = some p →
      (s.queue n).en = true ∧ (s.queue n).head ≠ (s.queue n).tail ∧ gateRoom s (queueCard s (s.queue n)) = true ∧ p = (s.queue n).prio)
  ∧ (∀ (s : State) (c p : Nat), queuePrio s (64 + c) = some p →
      ∃ k e, clusterFirst s c = some (k, e) ∧ gateRoom s (clusterCard s e) = true ∧ p = clusterPrio s e
        ∧ (s.cluster c).queue[k]? = some e ∧ e.valid = true ∧ ∀ x ∈ (s.cluster c).queue, x.valid = true → e.order ≤ x.order)
  ∧ (∀ (s : State) (n : Nat), nextQueue s = some n → n < 64 → s.boot.stage = 3 →
    let q := s.queue n
    exec .deviceQueueTake s = .next (acceptEntry writeCompletionUnit
      { ctx := q.ctx.toNat, ring := some q.entry, hflush := q.hflush, qprio := q.prio, parent := Tab.get? q.parents q.head.toNat, cluster := none,
        card := s.read q.entry 8, bucket := s.byte (q.entry + 8) &&& 1#8 == 1#8 }
      { s with lastQueue := Tab.put s.lastQueue q.prio n, queues := Tab.put s.queues n { q with head := q.head + 1#16, parents := Tab.del q.parents q.head.toNat } }))
  ∧ (∀ (s : State) (c k : Nat) (e : ClusterEntry), clusterFirst s c = some (k, e) → s.boot.stage = 3 → nextQueue s = some (64 + c) →
    exec (.clusterQueueTake c) s = .next (acceptEntry writeCompletionUnit
      { ctx := e.ctx, ring := none, hflush := false, qprio := 3, parent := some e.parent, cluster := some c, card := e.card.toNat, bucket := false }
      (({ s with lastQueue := Tab.put s.lastQueue (clusterPrio s e) (64 + c) } : State).modCluster c
        (fun x => { x with queue := listModify x.queue k (fun _ => ClusterEntry.empty) }))))
  ∧ (∀ (t : Take) (s : State), EntryRead writeCompletionUnit t s)
  ∧ (∀ (t : Take) (n : Nat) (card : BitVec 1024) (shapes : List Word) (s : State), CardChecked t n card shapes s ∧ CardLeased t n card shapes s)
  ∧ (∀ (s : State) (ctx priv pte : Nat) (rs : List DeclRange), WalkCovers ctx priv rs s ∧ MadeResident ctx pte s)
  ∧ (∀ (s : State) (t : Take) (l : Launch), Inherits s t l ∧ LeaseSound l)
  ∧ (∀ (s : State) (n core : Nat), placeable s n core = true → nearEnough s n core = true → evictedFirst s n = false →
    (∀ e ∈ s.launches, e.1 ≠ n → mayPlace s e.1 = true → goesBefore s e.1 n = true → placeableAnywhere s e.1 = false) →
      ∃ t u m, exec (.teamPlace n core) s = .next t ∧ Tab.get? t.teams u = some m ∧ m.launch = n ∧ m.core = core ∧ t.mem = s.mem
        ∧ ((s.launch n).replays = [] → (s.launch n).det = false → m.teamid = (s.launch n).nextTeam ∧ u = s.uid)
        ∧ ∀ k g, Tab.get? t.groups k = some g → Tab.get? s.groups k = none → g.launch = n ∧ g.team = u ∧ g.resident = true
          ∧ g.keyperm = (s.launch n).keymax ∧ (∀ x ∈ g.threads, x.pc = (s.launch n).entry))
  ∧ (∀ (s : State) (n core : Nat), ∃ t, exec (.placementWaitExpiry n core) s = .next t ∧ { t with groups := s.groups, launches := s.launches } = s
      ∧ (∀ k, (Tab.get? t.launches k).map (fun l => { l with asked := false }) = (Tab.get? s.launches k).map (fun l => { l with asked := false }))
      ∧ ∀ k, (Tab.get? t.groups k).map (fun g => { g with preempt := none }) = (Tab.get? s.groups k).map (fun g => { g with preempt := none }))
  ∧ (∀ (s : State) (n core : Nat), Tab.sorted s.groups = true → Tab.sorted s.launches = true →
    let base := withoutAsked s
    let l := s.launch n
    let due := mayPlace s n = true ∧ l.waitSince + 10000 * refTick ≤ s.time ∧ placeableAnywhere s n = false ∧ placeableAnywhere base n = false
      ∧ ∃ k c, c < 768 ∧ placeable (without (victimGroups base ((victims base l.prio).take k) (l.coresAt c)) base) n c = true
    (¬ due → exec (.placementWaitExpiry n core) s = .next s)
    ∧ (due → ∃ vs, VictimsTaken base n vs ∧
      (placeable (without (victimGroups base vs (l.coresAt core)) base) n core = false → exec (.placementWaitExpiry n core) s = .next s)
      ∧ (placeable (without (victimGroups base vs (l.coresAt core)) base) n core = true →
        ∃ t need, exec (.placementWaitExpiry n core) s = .next t ∧ AsksToGo s t n core vs need)))
  ∧ (∀ (s : State) (n t0 : Nat) (l : Launch), Tab.get? s.launches n = some l → l.quietSince = some t0 → quiet s n = true → t0 + 64 * refTick ≤ s.time →
    launchReleased s n = true → l.det = false → (∀ pa, l.compPa s = some pa → aperture pa ≠ 2) → NoWaiters s → NoParks s → l.fail.getD 0 < 2 ^ 8 →
    let value : Nat := (match l.fail with
      | none => l.compv.toNat
      | some f => 2 ^ 63 + f * 2 ^ 8)
      ∃ t l', exec (.launchQuiet n) s = .next t ∧ Tab.get? t.launches n = some l' ∧ l'.phase = .ended
        ∧ (∀ pa, l.compPa s = some pa → peerAnswers s pa = true → t.read pa 8 = value % 2 ^ 64 ∧ (aperture pa ≤ 1 → t.isFull pa = true))
        ∧ (∀ r, l.ring = some r → (∀ pa, l.compPa s = some pa → peerAnswers s pa = true ∧ (pa + 8 ≤ r + 0xC ∨ r + 0x20 ≤ pa)) →
          t.read (r + 0x10) 1 = (if l.fail = none then 2 else 3) ∧ t.read (r + 0x11) 1 = l.fail.getD 0 ∧ t.read (r + 0x12) 1 = 0
          ∧ t.read (r + 0x13) 1 = (if l.reexec then 1 else 0) + (if l.froze then 4 else 0) ∧ t.read (r + 0x14) 4 = n % 2 ^ 32
          ∧ t.read (r + 0xC) 4 = l.multiw % 2 ^ 32 ∧ t.read (r + 0x18) 8 = 0)
        ∧ ∀ a, (∀ pa, l.compPa s = some pa → peerAnswers s pa = true ∧ (a < pa ∨ pa + 8 ≤ a)) → (∀ r, l.ring = some r → a < r + 0xC ∨ r + 0x20 ≤ a) →
          t.byte a = s.byte a)

/-- R26, R27, R29, R30, R223, R224, R228, R230, R328: PREEMPTION_REQUEST, GROUP_EVICT, GROUP_RESTORE, TX_PREEMPT_EXPIRY, GROUP_STARVED, HALT_AT_BOUNDARY, HALTREQ,
GROUP_RESUME and FROZEN_RELEASE: what becomes of the group that each names; a group that leaves or returns keeps its registers. That LANES and PC of a halt are the current issue set and the address of its
next instruction is the model's choice (log 73), as is that REASON, LANES and PC stay after a resume (log 99). Where it rests on other choices of the model: log 60, 79. -/
def Obligations.GroupsLeaveAndReturn : Prop :=
  (∀ (n : Nat) (s : State) (g : Group), Tab.get? s.groups n = some g → g.frozen = false → g.resident = true → g.preempt = none →
      ∃ t, exec (.preemptionRequest n) s = .next t ∧ Tab.get? t.groups n = some { g with preempt := some { since := s.time } }
        ∧ { t with groups := s.groups } = s)
  ∧ (∀ (n : Nat) (s : State) (g : Group), Tab.get? s.groups n = some g → g.resident = true → g.preempt.isSome = true → g.handler = false →
    g.halted = false → g.frozen = false → s.blocked n g = true →
      ((s.team g.team).tx = none → fencedForEviction s n g = true → ∃ t g', exec (.groupEvict n) s = .next t ∧ Tab.get? t.groups n = some g'
        ∧ g'.place = .evicted g.core ∧ g'.preempt = none ∧ (∀ l r, g'.reg l r = g.reg l r) ∧ t.mem = s.mem)
      ∧ ((s.team g.team).tx.isSome = true → ∃ t g', exec (.groupEvict n) s = .next t ∧ Tab.get? t.groups n = some g' ∧ g'.place = g.place
        ∧ g'.preempt = g.preempt ∧ (∀ l r, g'.reg l r = g.reg l r) ∧ t.mem = s.mem))
  ∧ (∀ (n core : Nat) (s : State) (g : Group), Tab.get? s.groups n = some g → mayRestore s n core = true → NoWaiters s →
      ∃ t g', exec (.groupRestore n core) s = .next t ∧ Tab.get? t.groups n = some g' ∧ g'.resident = true ∧ g'.core = core
        ∧ (∀ l r, g'.reg l r = g.reg l r) ∧ t.mem = s.mem)
  ∧ (∀ (n : Nat) (s : State) (g : Group) (p : Preempt) (u : Team) (x : Tx) (l : Launch), Tab.get? s.groups n = some g → g.preempt = some p →
    Tab.get? s.teams g.team = some u → u.tx = some x → (s.launch g.launch).det = false → p.since + 10000 * refTick ≤ s.time →
    Tab.get? s.launches u.launch = some l → l.fail = none →
      ∃ t, exec (.txPreemptExpiry n) s = .next t ∧ Requeued t g.team u.launch ⟨u.teamid, g.team, ⟨x.ladder, x.tile, x.rung, x.top⟩⟩ ∧ t.assay = s.assay)
  ∧ (∀ (n : Nat) (s : State) (g : Group), Tab.get? s.groups n = some g → (ready s n g true || ready s n g false) = true →
    512 * 20 ≤ g.readyClocks + (s.time - g.readySince) * (s.cluster (clusterOf g.core)).feeff →
      ∃ t, exec (.groupStarved n) s = .next t ∧ Tab.get? t.groups n = some { g with starved := true })
  ∧ (∀ (core slot n reason : Nat) (s : State) (g : Group), s.slotGroup core slot = some (n, g) → Tab.get? s.groups n = some g →
    g.place = .resident core slot → g.halted = false → g.frozen = false → suspended s n g = false → haltDue s g = some reason → slot < (s.core core).debugSlots.length →
      ∃ t d, exec (.haltAtBoundary core slot) s = .next t ∧ Tab.get? t.groups n = some { g with halted := true, teamhalt := false }
        ∧ (t.core core).debugSlots[slot]? = some d ∧ d.reason = reason ∧ d.lanes = g.cur ∧ d.pc = g.nextPc ∧ d.haltreq = false ∧ t.mem = s.mem)
  ∧ (∀ (core slot : Nat) (v : Word) (s : State) (d : DebugSlot), debugAnswers s core slot = true → (s.core core).debugSlots[slot]? = some d →
      ∃ t, exec (.haltreq core slot v) s = .next t
        ∧ (t.core core).debugSlots[slot]? = some { d with sstep := v.getLsbD 0, frzteam := v.getLsbD 1, haltreq := v.getLsbD 2 } ∧ t.groups = s.groups)
  ∧ (∀ (core slot n : Nat) (s : State) (g : Group), debugAnswers s core slot = true → s.slotGroup core slot = some (n, g) →
      (g.halted = true → (∀ e ∈ s.reqs, e.2.group = n → ∀ k l va pa d r w, e.2.kind ≠ .fe k l va pa d r (.done w)) →
        ((∀ e ∈ g.blocks, e.2.woken = none) → ∃ t, exec (.groupResume core slot) s = .next t
          ∧ Tab.get? t.groups n = some { g with halted := false, resumed := true } ∧ { t with groups := s.groups } = s)
        ∧ (∀ k b m phase dest v, Tab.get? g.blocks k = some b → b.kind = .bar m phase dest → b.woken = some v →
          (∀ e ∈ g.blocks, e.2.woken ≠ none → e = (k, b)) → ∃ t g', exec (.groupResume core slot) s = .next t ∧ Tab.get? t.groups n = some g'
            ∧ g'.halted = false ∧ g'.resumed = true ∧ g'.greg dest = v ∧ WentOn g k b.next g'))
      ∧ (g.frozen = true → ∃ t, exec (.frozenRelease core slot) s = .next t ∧ Tab.get? t.groups n = none))

/-! ### Carters and the Loom at work -/

/-- R183, R185, R188: CARTER_START, a payload word, CARTER_PAYLOAD_COMPLETE, CARTER_COMPLETION_WORD and CARTER_POISON. R307, R310, R311, R306, R93: LOOM_STEP_GRANT,
LOOM_STEP_RETIRE and LOOM_COMMAND_RETIRE. That LOOM_STEP_GRANT counts the panel as fetched, and then lets the arbiter grant, is the model's choice (log 48), as
is that carter k serves die k / 8 (log 116). Where it rests on other choices of the model: log 26, 27, 50. -/
def Obligations.CartersAndLoomsWork : Prop :=
  (∀ (n k : Nat) (s : State) (c : Cmd), Tab.get? s.cmds n = some c → (s.carter k).cmd = none → (s.carter k).frozen = false → k / 8 = c.die →
    cmdStartable s n c = true → (∀ e ∈ s.cmds, e.1 < n → e.2.die = c.die → cmdStartable s e.1 e.2 = false) →
      ∃ t c', exec (.carterStart n k) s = .next t ∧ Tab.get? t.cmds n = some c' ∧ c'.state = 1 ∧ c'.carter = some k ∧ c'.block = c.block
        ∧ t.carter k = { cmd := some n, frozen := false } ∧ t.mem = s.mem)
  ∧ (∀ (n i : Nat) (s : State) (c : Cmd) (a b : Nat × Nat), Tab.get? s.reqs n = none → Tab.get? s.cmds n = some c → c.state = 1 → c.poison = false →
    c.quant = false → i < c.count → NatSet.mem c.performed i = false → pieceAt c.src (8 * i) = some a → pieceAt c.dst (8 * i) = some b →
    readsPoison s a.2 8 = false → peerAnswers s a.2 = true → peerAnswers s b.2 = true → aperture b.2 ≠ 2 → NoWaiters s →
      ∃ t c', exec (.sliceStorePerform n i) s = .next t ∧ Stored s t b.2 ((List.range 8).map (fun k => homeByte s (a.2 + k)))
        ∧ Tab.get? t.cmds n = some c' ∧ c'.performed = NatSet.ins c.performed i
        ∧ (aperture b.2 ≤ 1 → t.isFull b.2 = (match feMode c.block with
          | 0 => s.isFull b.2
          | 1 => if aperture a.2 ≤ 1 then s.isFull a.2 else t.isFull b.2
          | 2 => true
          | _ => false)))
  ∧ (∀ (n k : Nat) (s : State) (c : Cmd) (u : Team), (s.carter k).cmd = some n → Tab.get? s.cmds n = some c → c.state = 1 → c.poison = false →
    c.performed.length = c.count → Tab.get? s.teams c.team = some u →
      (compF c.block = true → ∃ t, exec (.carterPayloadComplete k) s = .next t ∧ Tab.get? t.cmds n = some { c with state := 2, compDue := true })
      ∧ (compF c.block = false → ∃ t u', exec (.carterPayloadComplete k) s = .next t ∧ Tab.get? t.cmds n = none ∧ Tab.get? t.teams c.team = some u'
        ∧ u'.finished.head? = some { ticket := c.ticket, state := 2, poison := false, clamp := c.clamp }))
  ∧ (∀ (n k : Nat) (s : State) (c : Cmd), (s.carter k).cmd = some n → Tab.get? s.cmds n = some c → c.compDue = true → c.complete ≤ s.time →
    (cmdScope c.block ≠ 5 ∨ (c.hostAck = false ∧ c.peerAck = false)) → peerAnswers s c.compw = true → aperture c.compw ≤ 1 → NoWaiters s →
      ∃ t, exec (.carterCompletionWord k) s = .next t ∧ Stored s t c.compw (leBytes 8 (c.block.extractLsb' 256 64).toNat) ∧ t.isFull c.compw = true
        ∧ Tab.get? t.cmds n = none)
  ∧ (∀ (n k gid id j dest : Nat) (s : State) (c : Cmd) (g : Group) (b : Block) (e : WaitEntry) (any : Bool), (s.carter k).cmd = some n →
    Tab.get? s.cmds n = some c → c.compDue = true → c.complete ≤ s.time → (cmdScope c.block ≠ 5 ∨ (c.hostAck = false ∧ c.peerAck = false)) →
    peerAnswers s c.compw = true → aperture c.compw ≤ 1 → AwaitsOne s gid id j g b e any dest → (e.kind = 1 ∨ e.kind = 2) → e.pa / 64 = c.compw / 64 →
      ∃ t, exec (.carterCompletionWord k) s = .next t ∧ Stored s t c.compw (leBytes 8 (c.block.extractLsb' 256 64).toNat) ∧ t.isFull c.compw = true
        ∧ (holdsOn t e = true → WaitEnded gid id j g b any dest t) ∧ (holdsOn t e = false → Tab.get? t.groups gid = some g))
  ∧ (∀ (n k va : Nat) (s : State) (c : Cmd), (s.carter k).cmd = some n → Tab.get? s.cmds n = some c → c.state = 1 → cmdPoison s c = some va →
      ∃ t, exec (.carterPoison k) s = .next t ∧ Tab.get? t.cmds n = some { c with state := 3, poison := true }
        ∧ t.carter k = { cmd := some n, frozen := true })
  ∧ (∀ (n k acc slot nk : Nat) (zero : Bool) (y : Tensor) (row col : Nat) (s : State) (x : Loom), Tab.get? s.looms n = some x →
    x.op = .loop acc slot nk zero y row col → k < nk → x.nextStep ≤ k → Tab.get? x.granted k = none → loomStarts s n x = true →
    loomRuns s x.core = true →
    let s1 := if (Tab.get? x.fetched k).isSome then s else s.modLoom n (fun l => { l with fetched := Tab.put l.fetched k 0 })
    let ready := readySteps s1 (slotPlace x.core (slot + k))
    (slotTaken s x.core (slot + k) = true → exec (.loomStepGrant n k) s = .next s1)
    ∧ (slotTaken s x.core (slot + k) = false → Tab.sorted s.looms = true → (∀ e ∈ s.looms, Tab.sorted e.2.fetched = true) →
      ∀ a acc' slot' nk' zero' y' row' col', a ∈ ready → (∀ o ∈ ready, (o.cmd ≠ a.cmd ∨ o.k ≠ a.k) → grantedFirst a o) →
        a.of.op = .loop acc' slot' nk' zero' y' row' col' →
        ∃ t z, exec (.loomStepGrant n k) s = .next t ∧ Tab.get? t.looms a.cmd = some z
          ∧ Tab.get? z.granted a.k = some (formStep s1 a.of slot' y' row' col' a.k).1 ∧ Tab.get? z.fetched a.k = none
          ∧ ∀ o ∈ ready, (o.cmd ≠ a.cmd ∨ o.k ≠ a.k) → ∃ z', Tab.get? t.looms o.cmd = some z' ∧ Tab.get? z'.fetched o.k = some (o.passed + 1)))
  ∧ (∀ (n acc slot nk : Nat) (zero : Bool) (y : Tensor) (row col : Nat) (s : State) (x : Loom) (st : LoomStep), Tab.get? s.looms n = some x →
    x.op = .loop acc slot nk zero y row col → Tab.get? x.granted x.nextStep = some st → shapeTurn s n x = true →
    (s.cluster (clusterOf x.core)).thermal < 2 → ((zero = true ∧ x.nextStep = 0) ∨ accPoison s x.core acc = []) →
      ∃ t, exec (.loomStepRetire n x.nextStep) s = .next t
        ∧ Tab.get? t.looms n = some { x with granted := Tab.del x.granted x.nextStep, nextStep := x.nextStep + 1 }
        ∧ (∀ (i : Nat) (v : Val) (w : Word), st.sums[i]? = some v → (accWords s x.core acc)[i]? = some w →
          Sparse.get 0#32 (t.core x.core).acc (4096 * acc + i) = addStep st v (if zero = true ∧ x.nextStep = 0 then 0#32 else w)) ∧ t.mem = s.mem)
  ∧ (∀ (n : Nat) (s : State) (x : Loom), Tab.get? s.looms n = some x → loomStarts s n x = true → (s.cluster (clusterOf x.core)).thermal < 2 →
      (x.added = true → ∃ t, exec (.loomCommandRetire n) s = .next t ∧ Tab.get? t.looms n = none)
      ∧ ((∀ acc, x.op = .zero acc → ∃ t, exec (.loomCommandRetire n) s = .next t ∧ Tab.get? t.looms n = none
          ∧ ∀ i, i < 4096 → Sparse.get 0#32 (t.core x.core).acc (4096 * acc + i) = 0#32)
        ∧ (∀ acc row col vals, x.op = .write acc row col vals → ∃ t, exec (.loomCommandRetire n) s = .next t ∧ Tab.get? t.looms n = none
          ∧ ((vals.map (·.1)).Nodup → ∀ i v, (i, v) ∈ vals → Sparse.get 0#32 (t.core x.core).acc (4096 * acc + i) = v)
          ∧ ∀ i, (∀ v, (i, v) ∉ vals) → Sparse.get 0#32 (t.core x.core).acc (4096 * acc + i) = Sparse.get 0#32 (s.core x.core).acc (4096 * acc + i))
        ∧ (∀ b y row col, x.op = .loadb b y row col → ∃ t, exec (.loomCommandRetire n) s = .next t ∧ Tab.get? t.looms n = none
          ∧ Tab.get? (t.core (slotPlace x.core b).1).slots (slotPlace x.core b).2
            = some (loadSlot y row col (readPanel s (s.launch x.launch) x.core y row col 64) s.free))
        ∧ (∀ acc row col reg g, x.op = .read acc row col reg → pendingAdds s n x.core acc = [] → accPoison s x.core acc = [] → Tab.get? s.groups x.group = some g →
          ∃ t g', exec (.loomCommandRetire n) s = .next t ∧ Tab.get? t.looms n = none ∧ Tab.get? t.groups x.group = some g'
            ∧ ∀ l, x.lanes.has l = true → (g.thread l).live = true → l < g.threads.length → (g'.thread l).vreg reg
              = if col + l < 64 then (accWords s x.core acc).getD (64 * row + col + l) 0#32 else 0#32)))

/-! ### The outside world -/

/-- R264, R286, R288, R383, R384: MYENT_READ, MYENT_POSTED_WRITE, MYENT_FETCH_ADD and MYENT_COMPARE_AND_SWAP on populated memory, PEER_REQUEST_ARRIVE,
PEER_ACKNOWLEDGEMENT, HOST_ACKNOWLEDGEMENT, PEER_TIMEOUT and LINK_LEVEL_RETRY. That a load or a store which no peer answers stays, with its destination, as an empty store is the
model's choice (log 74). Where it rests on other choices of the model: log 57, 67, 72. -/
def Obligations.HostAndPeersReach : Prop :=
  (∀ (pa n : Nat) (s : State), 0 < n → n ≤ 64 → ∃ t, exec (.myentRead pa n) s = .next t ∧ { t with host := s.host } = s
      ∧ ((∀ k, k < n → hostReaches s (pa + k) = true) → t.host.reply = (List.range n).map (fun k => homeByte s (pa + k)))
      ∧ ((∃ k, k < n ∧ hostReaches s (pa + k) = false) → t.host.reply = List.replicate n 0xFF#8))
  ∧ (∀ (pa : Nat) (data : List Byte) (s : State), 0 < data.length → (∀ k, k < data.length → s.populated (pa + k) = true) → NoWaiters s →
      ∃ t, exec (.myentPostedWrite pa data) s = .next t ∧ Stored s t pa data ∧ t.full = s.full)
  ∧ (∀ (i : Instr) (pa : Nat) (f : DWord → Option DWord) (s : State), hostOp i = some (pa, f) → pa % 8 = 0 → s.populated pa = true → NoWaiters s →
    let m := BitVec.ofNat 64 (s.read pa 8)
    ∃ t, exec i s = .next t ∧ t.host.old = m ∧ t.full = s.full ∧ (∀ v, f m = some v → Stored s t pa (leBytes 8 v.toNat))
      ∧ (f m = none → t.mem = s.mem ∧ t.poison = s.poison))
  ∧ (∀ (pa size : Nat) (s : State), aperture pa = 0 → s.populated pa = true →
      ∃ t, exec (.peerRequestArrive (.load pa size)) s = .next t ∧ t.host.peerReply = s.bytes pa size ∧ { t with host := s.host } = s)
  ∧ (∀ (pa : Nat) (data : List Byte) (s : State), aperture pa = 0 → s.populated pa = true → NoWaiters s →
      ∃ t, exec (.peerRequestArrive (.store pa data)) s = .next t ∧ Stored s t pa data ∧ t.full = s.full)
  ∧ (∀ (op : AtomOp) (ty : BitVec 3) (pa : Nat) (x new : DWord) (s : State), aperture pa = 0 → s.populated pa = true → pa % typeSize ty = 0 →
    s.poisoned pa (typeSize ty) = false → NoWaiters s →
    let m := BitVec.ofNat 64 (s.read pa (typeSize ty))
    ∃ t, exec (.peerRequestArrive (.atomic op ty pa x new)) s = .next t ∧ t.host.peerReply = leBytes 8 m.toNat
      ∧ Stored s t pa (leBytes (typeSize ty) (atomicF op ty m x new).toNat))
  ∧ (∀ (k : FeKind) (pa : Nat) (data : DWord) (s : State), aperture pa = 0 → s.populated pa = true → pa % 8 = 0 → NoWaiters s →
      ((k = .stfs → s.isFull pa = false) → feReady s k pa = true → ∃ t, exec (.peerRequestArrive (.fe k pa data)) s = .next t ∧ FeDone s t k pa data
        ∧ t.host.peerReply = leBytes 8 (feWord s k pa).toNat)
      ∧ (feReady s k pa = false → ∃ t r, exec (.peerRequestArrive (.fe k pa data)) s = .next t ∧ t.mem = s.mem ∧ t.full = s.full
        ∧ Tab.get? t.reqs s.uid = some r ∧ r.kind = .fe k 0 0#64 pa data 0
          (if monitorsAt s (homeSlice pa) < 192 ∧ NatSet.mem s.watched (pa / 64) = false then .monitor s.uid else .polled (s.time + 256 * refTick))))
  ∧ (∀ (i : Instr) (n : Nat) (peer : Bool) (s : State) (c : Cmd), (i = .peerAcknowledgement n ∧ peer = true ∨ i = .hostAcknowledgement n ∧ peer = false) →
    Tab.get? s.cmds n = some c → Tab.sorted s.reqs = true →
      ∃ t c', exec i s = .next t ∧ t.mem = s.mem ∧ Tab.get? t.cmds n = some c' ∧ (if peer then c'.peerAck else c'.hostAck) = false
        ∧ ∀ r, Tab.get? t.reqs n = some r → (if peer then r.peerAck else r.hostAck) = false)
  ∧ (∀ (i : Instr) (n : Nat) (peer : Bool) (s : State) (r : Req), (i = .peerAcknowledgement n ∧ peer = true ∨ i = .hostAcknowledgement n ∧ peer = false) →
    Tab.get? s.reqs n = some r → Tab.sorted s.reqs = true →
    let r' := if peer then { r with peerAck := false } else { r with hostAck := false }
    let finished := r'.kind = .store [] ∧ r'.dest = [] ∧ r'.notBefore ≤ s.time ∧ r'.peerAck = false ∧ r'.hostAck = false
    ∃ t, exec i s = .next t ∧ t.mem = s.mem ∧ t.groups = s.groups ∧ (finished → Tab.get? t.reqs n = none) ∧ (¬ finished → Tab.get? t.reqs n = some r'))
  ∧ (∀ (n : Nat) (s : State) (r : Req) (parts : List StorePart), Tab.get? s.reqs n = some r → r.kind = .store parts → Tab.sorted s.reqs = true →
    (∃ x ∈ parts, unanswered s r.time x.pa = true) → NoWaiters s →
    let left := parts.filter (fun x => !unanswered s r.time x.pa)
    ∃ t, exec (.peerTimeout n) s = .next t ∧ t.groups = s.groups
      ∧ (left ≠ [] ∨ r.dest ≠ [] ∨ r.hostAck = true ∨ r.peerAck = true ∨ s.time < r.notBefore → Tab.get? t.reqs n = some { r with kind := .store left })
      ∧ (left = [] → r.dest = [] → r.hostAck = false → r.peerAck = false → r.notBefore ≤ s.time → Tab.get? t.reqs n = none))
  ∧ (∀ (n : Nat) (s : State) (r : Req) (p : Path) (parts : List LoadPart) (x : LoadPart) (g : Group), Tab.get? s.reqs n = some r → r.kind = .load p parts →
    x ∈ parts → unanswered s r.time x.pa = true → Tab.get? s.groups r.group = some g → g.frozen = false → g.resident = true →
      ∃ t g', exec (.peerTimeout n) s = .next t ∧ Tab.get? t.reqs n = (if r.dest = [] then none else some { r with kind := .store [] })
        ∧ Tab.get? t.groups r.group = some g' ∧ g'.frozen = true
        ∧ g'.trapcause = causeBits 0x23 0 r.pfx.isSome ∧ (∀ l q, g'.reg l q = g.reg l q))
  ∧ (∀ (n : Nat) (s : State) (r : Req) (op : AtomOp) (ty : BitVec 3) (va : DWord) (pa : Nat) (ops : List AtomLane), Tab.get? s.reqs n = some r →
    r.kind = .atomic op ty va pa ops none → r.sure = false → unanswered s r.time pa = true → NoWaiters s →
      ∃ t, exec (.peerTimeout n) s = .next t ∧ Tab.get? t.reqs n = none ∧ t.groups = s.groups)
  ∧ (∀ s : State, exec .linkLevelRetry s = .next s)

/-- R227, R228, R250, R260, R263, R247, R330, R333, R357, R366, R377, R378, R382, R390: REGISTER_WRITE (the registers of a die's page that a write only sets, the
counters, the comparators and GCTL; the Smithy writes none of them), QUEUE_TAIL_WRITE, QUEUE_ENABLE, KILL, CARTREL, RESDONE, FREEPG, FREE_PAGE_DONE, L2QUOTA, ASSAYCLR and
ASSAY_TABLE_EMPTY: what each leaves in the registers that it names, and where it is ignored. Where it rests on choices of the model: log 42, 84. -/
def Obligations.DeviceRegisters : Prop :=
  (∀ (who : Agent) (d off : Nat) (v : DWord) (s u : State), who ≠ .smithy → d < 4 → s.boot.stage = 3 → dieRegister off d v s = some u →
      exec (.registerWrite who (2 ^ 47 + 0x40000000 + 0x10000 * d + off) (leBytes 8 v.toNat)) s
        = .next (clearPoison (2 ^ 47 + 0x40000000 + 0x10000 * d + off) 8 u))
  ∧ (∀ (who : Agent) (core off : Nat) (v : DWord) (f : Core → Core) (s : State), who ≠ .smithy → core < 768 → s.boot.stage = 3 →
    windowRegister off v = some f →
      exec (.registerWrite who (2 ^ 47 + 0x100000 * core + off) (leBytes 8 v.toNat)) s = .next (clearPoison (2 ^ 47 + 0x100000 * core + off) 8 (s.modCore core f)))
  ∧ (∀ (who : Agent) (core slot : Nat) (v : Word) (s : State), who ≠ .smithy → core < 768 → slot < 16 → s.boot.stage = 3 →
      exec (.registerWrite who (2 ^ 47 + 0x100000 * core + 0x43400 + 0x20 * slot) (leBytes 4 v.toNat)) s = .next
        (clearPoison (2 ^ 47 + 0x100000 * core + 0x43400 + 0x20 * slot) 4 (s.modCore core (fun k =>
          { k with debugSlots := listModify k.debugSlots slot (fun b =>
            { b with sstep := v.getLsbD 0, frzteam := v.getLsbD 1, haltreq := v.getLsbD 2 }) }))))
  ∧ (∀ (pa : Nat) (v : DWord) (s : State), pa % 8 = 0 → 2 ^ 47 ≤ pa →
    (pa < 2 ^ 47 + 768 * 0x100000 ∨ ∃ d off, d < 4 ∧ off < 0x10000 ∧ pa = 2 ^ 47 + 0x40000000 + 0x10000 * d + off ∧ (off < 0x4000 ∨ 0x4600 ≤ off)
      ∧ (off < 0x0C0 ∨ 0x0E0 ≤ off)) →
      exec (.registerWrite .smithy pa (leBytes 8 v.toNat)) s = .next s)
  ∧ (∀ (q : Nat) (tail : Half) (s : State), q < 64 → exec (.queueTailWrite q tail) s = .next
      (if (s.queue q).devpost = true ∨ 2 ^ (s.queue q).log2n < (tail - (s.queue q).head).toNat then s
       else s.modQueue q (fun d => { d with tail := tail })))
  ∧ (∀ (q : Nat) (v : DWord) (s : State), q < 64 →
      ((s.queue q).en = true → exec (.queueEnable q v) s = .next s)
      ∧ ((s.queue q).en = false → ∃ t d, exec (.queueEnable q v) s = .next t ∧ t.queue q = d ∧ d.log2n = bitsAt v 0 4 ∧ d.prio = bitsAt v 4 2
        ∧ d.devpost = v.getLsbD 7 ∧ d.hflush = v.getLsbD 8 ∧ d.base = (s.queue q).base ∧ d.ctx = (s.queue q).ctx
        ∧ (d.en = true ↔ v.getLsbD 6 = true ∧ 4 ≤ bitsAt v 0 4 ∧ bitsAt v 0 4 ≤ 12 ∧ (s.queue q).base.toNat % (32 * 2 ^ bitsAt v 0 4) = 0
          ∧ (s.queue q).base.toNat < 2 ^ 39 ∧ ctxSound s (s.queue q).ctx.toNat = true)))
  ∧ (∀ (v : Word) (s : State),
      (s.killBusy = true → exec (.kill v) s = .next s)
      ∧ (s.killBusy = false → (∀ l, Tab.get? s.launches v.toNat = some l → l.phase = .ended) → ∃ t, exec (.kill v) s = .next t ∧ t.killBad = true ∧ t.killBusy = false)
      ∧ (∀ l, s.killBusy = false → Tab.get? s.launches v.toNat = some l → l.phase ≠ .ended →
        ∃ t l', exec (.kill v) s = .next t ∧ t.killBusy = true ∧ t.killLaunch = v ∧ Tab.get? t.launches v.toNat = some l' ∧ l'.fail = some 2
          ∧ l'.gates = [] ∧ l'.replays = [] ∧ ∀ n g, Tab.get? t.groups n = some g → g.launch ≠ v.toNat))
  ∧ (∀ (v : Word) (n : Nat) (s : State) (c : Cmd) (u : Team), v.toNat < 32 → (s.carter v.toNat).frozen = true → (s.carter v.toNat).cmd = some n →
    Tab.get? s.cmds n = some c → Tab.get? s.teams c.team = some u →
      ∃ t u', exec (.cartrel v) s = .next t ∧ Tab.get? t.cmds n = none ∧ Tab.get? t.teams c.team = some u'
        ∧ u'.finished.head? = some { ticket := c.ticket, state := 3, poison := c.poison, clamp := c.clamp } ∧ t.mem = s.mem)
  ∧ (∀ (v : Word) (s : State), (∀ l, Tab.get? s.launches v.toNat = some l → l.phase ≠ .residency) → exec (.resdone v) s = .next s)
  ∧ (∀ (v : Word) (s : State) (l : Launch), Tab.get? s.launches v.toNat = some l → l.phase = .residency →
      exec (.resdone v) s = .next (lease writeCompletionUnit { ctx := l.ctx, ring := l.ring, hflush := l.hflush, qprio := 3, parent := none, cluster := l.cluster, card := l.cardVa, bucket := false } v.toNat l s))
  ∧ (∀ (die : Nat) (v : DWord) (s : State), pageAnswers s die = true → (s.die die).freeBusy = false →
    let pa := bitsAt v 0 48
    let sound := pa % (if v.getLsbD 63 then 0x200000 else 0x10000) = 0 ∧ aperture pa = 0 ∧ s.populated pa = true ∧ homeDie pa = die
    ∃ t, exec (.freepg die v) s = .next t ∧ t.mem = s.mem ∧ (sound → (t.die die).freeBusy = true ∧ (t.die die).freeBad = (s.die die).freeBad)
      ∧ (¬ sound → (t.die die).freeBusy = false ∧ (t.die die).freeBad = true))
  ∧ (∀ (die : Nat) (s : State), (s.die die).freeBusy = true →
    let pa := bitsAt (s.die die).freepg 0 48
    pageLeased s pa (if (s.die die).freepg.getLsbD 63 then 0x200000 else 0x10000) = false → NoWaiters s →
      ∃ t, exec (.freePageDone die) s = .next t ∧ t.tail pa = 0 ∧ t.sealed pa = false ∧ (t.die die).freeBusy = false ∧ (t.die die).freeDone = true
        ∧ (t.die die).freeGen = BitVec.ofNat 32 (s.read (s.tailPa pa) 8 / 2 ^ 32) + 1#32
        ∧ t.read (s.tailPa pa) 8 / 2 ^ 32 = (t.die die).freeGen.toNat
        ∧ (∀ k, k < 4 → Tab.get? (t.die k).replicas pa = none)
        ∧ (∀ a, a < s.tailPa pa ∨ s.tailPa pa + 8 ≤ a → t.byte a = s.byte a))
  ∧ (∀ (die : Nat) (v : Word) (s : State), pageAnswers s die = true → exec (.l2quota die v) s = .next
      (if bitsAt v 0 5 + bitsAt v 8 5 + bitsAt v 16 5 + bitsAt v 24 5 ≤ 16 then s.modDie die (fun x => { x with l2quota := v &&& 0x1F1F1F1F#32 }) else s))
  ∧ (∀ (v : Word) (s : State), exec (.assayclr v) s = .next (if v.getLsbD 0 then { s with assayclr := true } else s))
  ∧ (∀ (s : State), exec .assayTableEmpty s = .next (if s.assayclr then { s with assay := [], assayclr := false } else s))

/-- R366 to R376: CLKCTL, CLOCK_CHANGE_APPLY, DROOP_DETECT, DROOP_FLOOR_RELEASE, CURRENT_INTERVAL, THERMAL_LEVEL_CHANGE, SMHB, SMCTL, WATCHDOG_EXPIRY, RAIL_STEP_UP,
GUARD_BAND_DOWN and MIGREQ: the floors, clocks and registers that each leaves. That a raised rail counts as stepped (log 123), that DEST 3FFH takes the
lowest-numbered core that can (log 140) and that the intervals below the limit are ten in a row (log 141) are the model's choices. Where it rests on other
choices of the model: log 77, 78. -/
def Obligations.PowerAndHeat : Prop :=
  (∀ (who : Agent) (c : Nat) (v : Word) (s : State), c < 192 →
      (powerWriter s who = false → exec (.clkctl who c v) s = .next s)
      ∧ (powerWriter s who = true → ∃ t, exec (.clkctl who c v) s = .next t
        ∧ (clkctlOk v = true → (t.cluster c).clkctl = v ∧ (t.cluster c).badw = (s.cluster c).badw)
        ∧ (clkctlOk v = false → (t.cluster c).clkctl = (s.cluster c).clkctl ∧ (t.cluster c).badw = true)))
  ∧ (∀ (c : Nat) (s : State), c < 192 → ∃ t, exec (.clockChangeApply c) s = .next t
      ∧ ((t.cluster c).feeff, (t.cluster c).rateff, (t.cluster c).peff) = clocksOf s c ∧ (t.cluster c).clkctl = (s.cluster c).clkctl)
  ∧ (∀ (c : Nat) (s : State), c < 192 → exec (.droopDetect c) s = .next (s.modCluster c (fun x => { x with droop := some s.time, drpev := true })))
  ∧ (∀ (c t0 : Nat) (s : State), (s.cluster c).droop = some t0 →
      exec (.droopFloorRelease c) s = .next (if t0 + 10000 ≤ s.time then s.modCluster c (fun x => { x with droop := none }) else s))
  ∧ (∀ (c average : Nat) (s : State), s.time / 1000 ≤ (s.cluster c).curInterval → ∃ t, exec (.currentInterval c average) s = .next t ∧ t.cluster c = s.cluster c)
  ∧ (∀ (c average : Nat) (s : State), c < 192 → (s.cluster c).curInterval < s.time / 1000 → ∃ t, exec (.currentInterval c average) s = .next t ∧
      (let limit := bitsAt (s.cluster c).clkctl 16 8
       (limit = 0 → (t.cluster c).cfloor = (s.cluster c).cfloor)
       ∧ (0 < limit → limit < average → (t.cluster c).cfloor = min 2 ((s.cluster c).cfloor + 1))
       ∧ (0 < limit → 10 * average < 9 * limit → (s.cluster c).below = 9 → (s.cluster c).curInterval + 1 = s.time / 1000 → (t.cluster c).cfloor = (s.cluster c).cfloor - 1)
       ∧ (0 < limit → average ≤ limit → 9 * limit ≤ 10 * average → (t.cluster c).cfloor = (s.cluster c).cfloor ∧ (t.cluster c).below = 0)))
  ∧ (∀ (c celsius : Nat) (s : State), c < 192 → ∃ t, exec (.thermalLevelChange c celsius) s = .next t
      ∧ (115 ≤ celsius → (t.cluster c).thermal = 2) ∧ (celsius < 100 → (t.cluster c).thermal = 0)
      ∧ (105 ≤ celsius → celsius < 115 → (t.cluster c).thermal = max (s.cluster c).thermal 1)
      ∧ (100 ≤ celsius → celsius < 105 → (t.cluster c).thermal = (s.cluster c).thermal))
  ∧ (∀ (who : Agent) (d : Nat) (v : Word) (s : State), d < 4 → powerWriter s who = true →
      exec (.smhb who d v) s = .next (s.modDie d (fun x => { x with smhb := v, smhbTime := s.time, expired := false }))
      ∧ ∃ t, exec (.smctl who d v) s = .next t ∧ t.die d = { s.die d with upd := v.getLsbD 0 } ∧ (v.getLsbD 0 = true → SafeBegun s t d))
  ∧ (∀ (d : Nat) (s : State), d < 4 → s.boot.stage = 3 → (s.die d).smhbTime + 10000000 ≤ s.time →
      ∃ t, exec (.watchdogExpiry d) s = .next t ∧ t.die d = { s.die d with expired := true } ∧ SafeBegun s t d)
  ∧ (∀ (c : Nat) (s : State), (s.cluster c).railreq = true →
      exec (.railStepUp c) s = .next (s.modCluster c (fun x => { x with railup := true, railreq := false, lastStep := s.time })))
  ∧ (∀ (c : Nat) (s : State), (s.cluster c).railup = true → stepsRunning s c = false → (s.cluster c).lastStep + 50000 ≤ s.time →
      exec (.guardBandDown c) s = .next (s.modCluster c (fun x => { x with railup := false })))
  ∧ (∀ (who : Agent) (d : Nat) (v : Word) (s : State), d < 4 → powerWriter s who = true → (s.die d).migBusy = false →
      (migrant (s.modDie d (fun x => { x with migreq := v &&& 0x000FFFFF#32 })) d (bitsAt v 0 10) = none →
        ∃ t, exec (.migreq who d v) s = .next t ∧ (t.die d).migDrop = true ∧ (t.die d).migreq = v &&& 0x000FFFFF#32 ∧ t.groups = s.groups)
      ∧ (∀ u k, let s0 := s.modDie d (fun x => { x with migreq := v &&& 0x000FFFFF#32 })
        migrant s0 d (bitsAt v 0 10) = some u → mayMigrate s0 u = true →
        (List.range 192).find? (fun k => (bitsAt v 10 10 == 0x3FF || bitsAt v 10 10 == 192 * d + k) && migrateTo s0 u d (192 * d + k)) = some k →
          (fencedToMove s0 u = true →
            ∃ t, exec (.migreq who d v) s = .next t ∧ (t.die d).migDone = true ∧ (t.team u).core = 192 * d + k ∧ t.mem = s.mem)
          ∧ (fencedToMove s0 u = false →
            exec (.migreq who d v) s = .next (s.modDie d (fun x => { x with migreq := v &&& 0x000FFFFF#32, migBusy := true })))))

/-- R385 to R387: UE_SEND, UE_TAGGED_SEND, UE_PUT, UE_GET, UE_POST_TAGGED_RECEIVE and UE_POST_RECEIVE take the card at the head of a queue, in the order of the posts where
one is kept, and send what it asks for, and a card that fails completes with status 1, 2 or 3; UE_PACKET_ARRIVE fills the buffer of the receive posted first that matches, or a get's, writes what a put carries, or answers a
get; UE_CARD_COMPLETE writes the completion word. That a get of bytes that cannot be read is answered with free values is the model's choice (log 130). Where
it rests on other choices of the model: log 9, 70, 71, 94, 115, 126, 150. -/
def Obligations.EngineCards : Prop :=
  (∀ (s : State) (o : Nat) (l : Launch) (c : Card), ueWaits s o l c = true ↔ ∃ es ∈ s.engine.queues, ∃ e ∈ es, e.order < o ∧
    let m := s.launch e.launch
    let d := ueCard s m e.card.toNat
    if ueReceives c then ueOp d = ueOp c
    else ueReceives d = false ∧ ueDeliv c = 1 ∧ ueDeliv d = 1 ∧ s.read (s.read (l.ctx + 0x38) 8 + 32 * ueEp c) 20 = s.read (s.read (m.ctx + 0x38) 8 + 32 * ueEp d) 20)
  ∧ (∀ (i : Instr) (q op o launch : Nat) (va : DWord) (rest : List Posted) (s : State), ueTake i = some (q, op) →
    s.engine.queues[q]? = some ({ order := o, launch := launch, card := va } :: rest) →
    ueWaits s o (s.launch launch) (ueCard s (s.launch launch) va.toNat) = true → exec i s = .next s)
  ∧ (∀ (i : Instr) (q op o launch : Nat) (va : DWord) (rest : List Posted) (s : State) (buf : List Seg) (pa : Nat), ueTake i = some (q, op) →
    s.engine.queues[q]? = some ({ order := o, launch := launch, card := va } :: rest) →
    let l := s.launch launch
    let c := ueCard s l va.toNat
    ueWaits s o l c = false → ueOp c = op → ueBad c = false → ueBuffer s l c = some buf → ueCompletion s l c = some pa →
    (ueReceives c = true ∨ endpointValid s l (ueEp c) = true) →
      ∃ t k, exec i s = .next t ∧ Tab.get? t.engine.cards s.uid = some k ∧ k.card = c ∧ k.buf = buf ∧ k.compw = pa ∧ k.launch = launch
        ∧ k.received = 0 ∧ k.filled = false ∧ t.engine.queues[q]? = some rest ∧ t.mem = s.mem
        ∧ t.engine.sent = if 4 ≤ op then s.engine.sent
          else sentPacket s s.uid c (s.read (l.ctx + 0x38) 8 + 32 * ueEp c) (if op = 3 then [] else segBytes s buf) :: s.engine.sent)
  ∧ (∀ (i : Instr) (q op o launch n : Nat) (va : DWord) (rest : List Posted) (s : State) (pa : Nat), ueTake i = some (q, op) →
    s.engine.queues[q]? = some ({ order := o, launch := launch, card := va } :: rest) →
    let l := s.launch launch
    let c := ueCard s l va.toNat
    ueWaits s o l c = false → (ueOp c = op ∨ op = 0 ∧ 5 < ueOp c) →
    (n = 1 ∧ ueBad c = true ∨ n = 2 ∧ ueBad c = false ∧ ueBuffer s l c = none
      ∨ n = 3 ∧ ueBad c = false ∧ (ueBuffer s l c).isSome = true ∧ op ≤ 3 ∧ endpointValid s l (ueEp c) = false) →
    ueCompletion s l c = some pa → aperture pa = 0 → NoWaiters s →
      ∃ t, exec i s = .next t ∧ Stored s t pa (leBytes 8 (2 ^ 63 + n)) ∧ t.isFull pa = true ∧ t.engine.queues[q]? = some rest
        ∧ t.engine.cards = s.engine.cards ∧ t.engine.sent = s.engine.sent)
  ∧ (∀ (tag : Option DWord) (data : List Byte) (n : Nat) (k : UeCard) (s : State),
    s.engine.cards.find? (fun e => !e.2.filled && (match tag with
      | some t => ueOp e.2.card == 4 && ueTag e.2.card == t
      | none => ueOp e.2.card == 5)) = some (n, k) → Tab.get? s.engine.cards n = some k →
    (∀ p ∈ k.buf, ∀ a, p.pa ≤ a → a < p.pa + p.len → aperture a = 0) → NoWaiters s →
      ∃ t k', exec (.uePacketArrive (.message tag data)) s = .next t ∧ Tab.get? t.engine.cards n = some k'
        ∧ k'.received = min data.length (ueLen k.card) ∧ k'.truncated = decide (ueLen k.card < data.length) ∧ k'.filled = true
        ∧ ∀ a, t.byte a = filledByte k.buf 0 (data.take (ueLen k.card)) s.byte a)
  ∧ (∀ (data : List Byte) (n : Nat) (k : UeCard) (s : State), Tab.get? s.engine.cards n = some k → ueOp k.card = 3 → k.filled = false →
    (∀ p ∈ k.buf, ∀ a, p.pa ≤ a → a < p.pa + p.len → aperture a = 0) → NoWaiters s →
      let more := min data.length (ueLen k.card - k.received)
      ∃ t k', exec (.uePacketArrive (.getData n data)) s = .next t ∧ Tab.get? t.engine.cards n = some k' ∧ k'.received = k.received + more
        ∧ k'.filled = decide (k.received + more = ueLen k.card) ∧ ∀ a, t.byte a = filledByte k.buf k.received (data.take more) s.byte a)
  ∧ (∀ (rkey : Word) (roff : DWord) (data : List Byte) (s : State), NoWaiters s →
      ∃ t, exec (.uePacketArrive (.rmaPut rkey roff data)) s = .next t ∧ t.full = s.full ∧ ∀ a, t.byte a = (match Config.remoteWindow rkey roff with
        | some pa => if pa ≤ a ∧ a < pa + data.length ∧ s.populated a = true then data.getD (a - pa) 0#8 else s.byte a
        | none => s.byte a))
  ∧ (∀ (rkey : Word) (roff : DWord) (n : Nat) (s : State),
      exec (.uePacketArrive (.rmaGet rkey roff n)) s = .next (match Config.remoteWindow rkey roff with
        | none => s
        | some pa => { s with free := s.free + n, engine := { s.engine with sent :=
            { card := 0, op := 3, ports := 0xFF, address := 0#128, job := 0, deliv := 0, tag := 0#64, rkey := rkey, roff := roff, len := n,
              data := (List.range n).map (fun i => if s.unreadable (pa + i) 1 then Config.engineByte (s.free + i) else homeByte s (pa + i)) }
            :: s.engine.sent } }))
  ∧ (∀ (n : Nat) (outcome : UeOutcome) (k : UeCard) (v : DWord) (s : State), Tab.get? s.engine.cards n = some k → ueValue k outcome = some v →
    k.complete ≤ s.time → aperture k.compw = 0 → NoWaiters s →
      ∃ t, exec (.ueCardComplete n outcome) s = .next t ∧ Stored s t k.compw (leBytes 8 v.toNat) ∧ t.isFull k.compw = true
        ∧ Tab.get? t.engine.cards n = none)

/-! ### Start-up, errors, copies -/

/-- R391, R392: RESET, STAGE_A_READY, BOOTCTL, STAGE_B_COMPLETE, ATTCTL and ATTESTATION_REPORT_READY. That memory and its F/E bits go on through a reset is the model's
choice (log 34), as is that every byte of HBM reads 0 after stage B (log 1). Where it rests on choices of the model: log 68, 69, 109. -/
def Obligations.BootStages : Prop :=
  (∀ s : State, ∃ t, exec .reset s = .next t ∧ t.boot = State.reset.boot ∧ t.groups = [] ∧ t.launches = [] ∧ t.reqs = [] ∧ t.cores = [] ∧ t.clusters = []
      ∧ t.dies = [] ∧ t.queues = [] ∧ t.mode = 0#5 ∧ t.mem = s.mem ∧ t.full = s.full)
  ∧ (∀ (fcode : Nat) (v : Word) (s : State), s.boot.stage = 0 →
      let f := if fcode = 1 then 1 else if v < Config.rollbackCounter then 2 else 0
      ∃ t, exec (.stageAReady fcode v) s = .next t ∧ t.boot.stage = 1 ∧ t.boot.fail = decide (f ≠ 0) ∧ t.boot.fcode = f
        ∧ t.boot.fwver = (if f = 0 then v else s.boot.fwver) ∧ t.host.messages.head? = some (1, 1) ∧ t.mem = s.mem)
  ∧ (∀ (v : DWord) (s : State), ∃ t, exec (.bootctl v) s = .next t ∧ t.boot.len = v.extractLsb' 32 32 ∧ t.mem = s.mem
      ∧ t.boot.stage = if v.getLsbD 0 = true ∧ s.boot.stage = 1 then 2 else s.boot.stage)
  ∧ (∀ (fcode : Nat) (v : Word) (s : State), s.boot.stage = 2 →
      let f := if 0x1000000 < s.boot.len.toNat ∨ fcode = 1 then 1 else if v < Config.rollbackCounter then 2 else if fcode = 3 ∨ fcode = 4 then fcode else 0
      (f = 0 → ∃ t, exec (.stageBComplete fcode v) s = .next t ∧ t.boot.stage = 3 ∧ t.boot.fwver = v ∧ t.boot.fail = false
        ∧ t.boot.stageBHash = some (packBytes (sha512 (s.bytes 0 (4096 * s.boot.len.toNat)))) ∧ t.host.messages.head? = some (1, 3)
        ∧ (∀ pa, aperture pa = 0 → t.byte pa = 0#8 ∧ t.isFull pa = false)
        ∧ (∀ d, d < 4 → (t.die d).smhbTime = s.time ∧ (t.die d).expired = false)
        ∧ (∀ e ∈ t.clusters, e.2.railup = false))
      ∧ (f ≠ 0 → ∃ t, exec (.stageBComplete fcode v) s = .next t ∧ t.boot.stage = 1 ∧ t.boot.fail = true ∧ t.boot.fcode = f ∧ t.mem = s.mem
          ∧ t.boot.fwver = s.boot.fwver ∧ t.host.messages.head? = some (1, 1)))
  ∧ (∀ (v : Word) (s : State),
      (s.boot.attBusy = true ∨ v ≠ 1#32 → exec (.attctl v) s = .next s)
      ∧ (s.boot.attBusy = false → v = 1#32 → ∃ t, exec (.attctl v) s = .next t ∧ t.boot.attBusy = true ∧ t.boot.attNonce = s.boot.nonce
        ∧ t.boot.attctl = 1))
  ∧ (∀ s : State, s.boot.attBusy = true → s.boot.attNonce.length = 64 → ∃ t, exec .attestationReportReady s = .next t ∧ t.boot.attBusy = false
      ∧ t.boot.attctl = 2 ∧ t.boot.report.length = 512 ∧ (t.boot.report.drop 0xC0).take 64 = s.boot.attNonce ∧ t.host.messages.head? = some (2, 0))

/-- R245, R253, R262, R268, R287, R388 to R390: CORRECTED_ERROR counts, UNCORRECTABLE_ERROR poisons its words and counts, PATROL_SCRUB leaves everything; LEASE_EXPIRY and
REPLICA_DROP drop a copy; HARDWARE_PREFETCH changes no memory and counts what it drops; OVERFLOW_INTERVAL moves the overflow store by at most one step. Where it rests on choices of the model: log 56, 66, 83. -/
def Obligations.ErrorsAndCopies : Prop :=
  (∀ (pa more : Nat) (s : State), s.populated pa = true → ∃ t, exec (.correctedError (.hbm pa more)) s = .next t
      ∧ (t.die (homeDie pa)).cehbm = (s.die (homeDie pa)).cehbm + 1#64 ∧ (s.mode.getLsbD 4 = false → t.mem = s.mem ∧ t.poison = s.poison))
  ∧ (∀ (place : ErrorPlace) (core : Nat) (s : State), core < 768 → inCore place = some core → ∃ t, exec (.correctedError place) s = .next t
      ∧ (t.core core).cesram = (s.core core).cesram + 1#64 ∧ t.copies = s.copies
      ∧ (s.mode.getLsbD 4 = false → t.mem = s.mem ∧ t.poison = s.poison))
  ∧ (∀ (pa more : Nat) (s : State), s.populated pa = true → (∀ e ∈ s.reqs, e.2.sure = false) → ∃ t, exec (.uncorrectableError (.hbm pa more)) s = .next t
      ∧ (t.die (homeDie pa)).uehbm = (s.die (homeDie pa)).uehbm + 1#64 ∧ t.mem = s.mem
      ∧ ∀ a, t.poisoned a 1 = (s.poisoned a 1 || (decide (pa / 8 ≤ a / 8 ∧ a / 8 ≤ pa / 8 + more) && s.populated (8 * (a / 8)))))
  ∧ (∀ (core off more : Nat) (s : State), core < 768 → off < 0x60000 → ∃ t, exec (.uncorrectableError (.sram core off more)) s = .next t
      ∧ (t.core core).uesram = (s.core core).uesram + 1#64 ∧ t.mem = s.mem
      ∧ ∀ b, b < 0x60000 → t.poisoned (localStorePa core b) 1 = (s.poisoned (localStorePa core b) 1 || decide (off / 8 ≤ b / 8 ∧ b / 8 ≤ off / 8 + more)))
  ∧ (∀ (core off more : Nat) (s : State), core < 768 → errorWindow off = true → ∃ t, exec (.uncorrectableError (.window core off more)) s = .next t
      ∧ (t.core core).uesram = (s.core core).uesram + 1#64 ∧ t.mem = s.mem
      ∧ ∀ b, errorWindow b = true → off / 8 ≤ b / 8 → b / 8 ≤ off / 8 + more → windowPoisoned t core b = true)
  ∧ (∀ (h : Holder) (path : Path) (pa more n : Nat) (k : Copy) (s : State), Tab.get? s.copies n = some k → k.holder = h → k.path = path → k.line = pa / 128 →
    (∀ c, h = .l1 c → c < 768) →
      ∃ t k', exec (.uncorrectableError (.cache h path pa more)) s = .next t ∧ t.mem = s.mem ∧ t.poison = s.poison ∧ Tab.get? t.copies n = some k'
        ∧ k'.data = k.data ∧ k'.expiry = k.expiry
        ∧ (∀ w, w < 16 → NatSet.mem k'.bad w = (NatSet.mem k.bad w || decide (pa % 128 / 8 ≤ w ∧ w ≤ pa % 128 / 8 + more)))
        ∧ (∀ c, h = .l1 c → (t.core c).uesram = (s.core c).uesram + 1#64))
  ∧ (∀ s : State, exec .patrolScrub s = .next s)
  ∧ (∀ (n : Nat) (s : State) (k : Copy), Tab.get? s.copies n = some k →
      ((k.expiry ≤ s.time ∨ ∃ d, k.holder = .peer d) → exec (.leaseExpiry n) s = .next { s with copies := Tab.del s.copies n })
      ∧ (s.time < k.expiry → (∀ d, k.holder ≠ .peer d) → exec (.leaseExpiry n) s = .next s))
  ∧ (∀ (die page : Nat) (s : State), ∃ t, exec (.replicaDrop die page) s = .next t ∧ Tab.get? (t.die die).replicas page = none ∧ t.mem = s.mem
      ∧ ∀ pa, pa ≠ page → Tab.get? (t.die die).replicas pa = Tab.get? (s.die die).replicas pa)
  ∧ (∀ (n lease : Nat) (access : OwnAccess) (va : DWord) (s : State) (g : Group), Tab.get? s.groups n = some g → g.resident = true →
      ∃ t, exec (.hardwarePrefetch n access va lease) s = .next t ∧ t.mem = s.mem ∧ t.reqs = s.reqs ∧ t.groups = s.groups
        ∧ (∀ f path, access = .data path → checkVa s (s.launch g.launch) g.keyperm .load 0 va 1 = .error f →
          (t.core g.core).droppf = (s.core g.core).droppf + 1#64 ∧ t.copies = s.copies)
        ∧ (∀ a, access = .code → fetchAt s g (va - BitVec.ofNat 64 (va.toNat % 4)) = .outOfLease a →
          (t.core g.core).droppf = (s.core g.core).droppf + 1#64 ∧ t.copies = s.copies))
  ∧ (∀ (core acc gain loss ovd : Nat) (s : State), s.time / (1600 * refTick) ≤ (s.core core).ovInterval →
      exec (.overflowInterval core acc gain loss ovd) s = .next s)
  ∧ (∀ (core acc gain loss ovd : Nat) (s : State), (s.core core).ovInterval < s.time / (1600 * refTick) →
      ∃ t, exec (.overflowInterval core acc gain loss ovd) s = .next t ∧ (t.core core).ovInterval = s.time / (1600 * refTick)
      ∧ (t.core core).ov ≤ (s.core core).ov + 1 ∧ (s.core core).ov ≤ (t.core core).ov + 1
      ∧ ((s.core core).ov * 32768 < overflowLo s core → (t.core core).ov = (s.core core).ov + 1)
      ∧ (overflowLo s core ≤ (s.core core).ov * 32768 → overflowHi s core < (s.core core).ov * 32768 → (t.core core).ov = (s.core core).ov - 1)
      ∧ t.mem = s.mem ∧ t.groups = s.groups)

/-! ### The machine as a whole -/

/-- R16, R29, R33, R58, R244: what a step runs. The word at an address of a code extent is its four bytes, lowest first; where a core issues, the group granted
first runs the instruction that the word at its next address holds, EXT with the word behind it, and a word of no row of the opcode table as a reserved one. An
event of the agenda runs the step that it names. A group whose instruction waits at issue leaves the pipe to the next one, which is why the first clauses
ask that it does not, or that no other is granted. That an address that is not a multiple of 4 fetches the four bytes there is the model's choice (log 100).
Where it rests on other choices of the model: log 30. -/
def Obligations.StepRunsDecodedInstruction : Prop :=
  (∀ (s : State) (g : Group) (va : DWord) (e : Extent) (pa : Nat), canonical va.toNat = true → (s.launch g.launch).translate va.toNat = some (e, pa) →
    e.fetch = true → va.toNat + 4 ≤ e.va + e.len → (∀ k, k < 4 → supplier s g.core .con (pa + k) = none ∧ replicaOf s g.core (pa + k) = pa + k ∧ bytePoison s g.core .con (pa + k) = false) →
      fetchAt s g va = .word (wordOfBytes (homeByte s pa) (homeByte s (pa + 1)) (homeByte s (pa + 2)) (homeByte s (pa + 3))))
  ∧ (∀ (s : State) (core : Nat) (pipe : Bool) (rest : List Choice) (gid : Nat) (others : List Nat) (g : Group) (w : Word),
    s.agenda = .issue core pipe :: rest →
    let s0 : State := { s with agenda := rest }
    let s1 : State := { s0 with turn := gid }
    grants s0 core pipe = gid :: others → Tab.get? s0.groups gid = some g → fetchAt s0 g g.nextPc = .word w →
      (isExtWord w = false →
        (∀ i, decodeDefined w = some i → (others ≠ [] → exec i s1 ≠ .next s1) → step s = exec i s1)
        ∧ (decodeDefined w = none →
          (isMwriteWord w = true → (others ≠ [] → exec (.mwrite (fS w) (fD w) (w.extractLsb' 11 3) (w.extractLsb' 4 7)) s1 ≠ .next s1) →
            step s = exec (.mwrite (fS w) (fD w) (w.extractLsb' 11 3) (w.extractLsb' 4 7)) s1)
          ∧ (isMstatWord w = true → (others ≠ [] → exec (.mstat (fS w) (fD w)) s1 ≠ .next s1) → step s = exec (.mstat (fS w) (fD w)) s1)
          ∧ (isMwriteWord w = false → isMstatWord w = false → (others ≠ [] → exec (.reservedSlot w) s1 ≠ .next s1) →
            step s = exec (.reservedSlot w) s1)))
      ∧ (isExtWord w = true → ∀ f, fetchAt s0 g (g.nextPc + 4#64) = .word f → (others ≠ [] → exec (.ext (fS w) (fI21 w) f) s1 ≠ .next s1) →
        step s = exec (.ext (fS w) (fI21 w) f) s1))
  ∧ (∀ (s : State) (i : Instr) (rest : List Choice), s.agenda = .event i :: rest → encode i = [] → step s = exec i { s with agenda := rest })

/-- R32, R45, R56, R58, R315: words that the spec writes out decode to the instructions that it gives for them. -/
def Obligations.SpecWordsDecode : Prop :=
  decodeWord 0x4460C205#32 = .ffma 2#2 3#7 4#7 5#7 ∧ decodeWord 0x10024392#32 = .ld 0#2 9#7 7#7 2#4 2#3
  ∧ decodeWord 0x84A16480#32 = .lsum 0#2 5#7 73#7 ∧ decodePair 0x8FE048D1#32 0x0C005678#32 = .ext 0#2 0x48D1#21 0x0C005678#32
  ∧ decodeWord 0x0C005678#32 = .movi 0#2 1#7 0x1678#14 ∧ decodeWord 0x1203039C#32 = .atadd 0#2 12#7 7#7 3#4 4#3
  ∧ decodeWord 0x88250A7D#32 = .gaddi 0#2 20#7 20#7 0x7D#7 ∧ decodeWord 0x18213FFD#32 = .bnz 0#2 4#7 0x3FFD#14
  ∧ decodeWord 0x9041C409#32 = .wait 0#2 7#7 8#7 9#7 ∧ decodeWord 0x98A00000#32 = .trapret 0#2
  ∧ decodeWord 0x9A032000#32 = .mloadb 0#2 3#5 2#4 0#1 ∧ decodeWord 0x9B018000#32 = .mstat 0#2 6#7
  ∧ decodeWord 0x03200000#32 = .reservedSlot 0x03200000#32

/-- R32, R33, R35, R58: decoding the bytes that encode a well-formed instruction gives that instruction, with every operand at every value that its
encoding admits, and leaves the bytes after it. -/
def Obligations.DecodeEncodeRoundTrip : Prop :=
  ∀ (i : Instr) (rest : List Byte), i.wf = true → encode i ≠ [] → decodeBytes (encodeBytes i ++ rest) = .ok (i, rest)

/-- R233, R254: every step keeps memory in its canonical form, one entry for each address that holds a byte other than the one an unlisted address reads as. That an
unlisted byte reads as that one is the model's choice (log 1). -/
def Obligations.StepKeepsMemoryCanonical : Prop :=
  ∀ s t : State, memWf s.mem = true → step s = .next t → memWf t.mem = true

/-- R227, R247, R263, R333, R357, R368, R370, R374 to R377, R391: what the reset columns of the spec leave in the registers, and no card, launch, group, request or
command on the device; memory is in its canonical form. That an unlisted byte reads 0 is the model's choice (log 1). -/
def Obligations.ResetState : Prop :=
  memWf State.reset.mem = true ∧ State.reset.boot.stage = 0 ∧ State.reset.boot.fail = false ∧ State.reset.boot.fwver = 0#32
  ∧ State.reset.boot.gob = false ∧ State.reset.mode = 0#5 ∧ State.reset.assayclr = false
  ∧ State.reset.killBusy = false ∧ State.reset.killDone = false ∧ State.reset.killBad = false
  ∧ State.reset.launches = [] ∧ State.reset.teams = [] ∧ State.reset.groups = [] ∧ State.reset.reqs = [] ∧ State.reset.cmds = [] ∧ State.reset.looms = []
  ∧ (∀ d, readDie State.reset d 0x000 = 0x04040404#64 ∧ readDie State.reset d 0x020 = 0#64 ∧ readDie State.reset d 0x028 = 0#64
    ∧ readDie State.reset d 0x0C0 = 0#64 ∧ readDie State.reset d 0x0C8 = 0#64 ∧ readDie State.reset d 0x0D0 = 0x000FFC00#64
    ∧ readDie State.reset d 0x0D8 = 0#64)
  ∧ (∀ c, (State.reset.cluster c).clkctl = 0x00A00158#32 ∧ (State.reset.cluster c).feeff = 24 ∧ (State.reset.cluster c).rateff = 1
    ∧ (State.reset.cluster c).peff = 1 ∧ (State.reset.cluster c).droop = none ∧ (State.reset.cluster c).cfloor = 0
    ∧ (State.reset.cluster c).railup = false ∧ (State.reset.cluster c).thermal = 0 ∧ (State.reset.cluster c).drpev = false
    ∧ (State.reset.cluster c).badw = false)
  ∧ (∀ q, (State.reset.queue q).en = false ∧ (State.reset.queue q).tail = 0#16 ∧ (State.reset.queue q).head = 0#16)
  ∧ (∀ c k, k < 4 → (State.reset.core c).pcs[k]? = some Comparator.zero ∧ (State.reset.core c).datas[k]? = some Comparator.zero)
end

