-- ==== Sys2Proof/Laws/Copies.lean ====
section
/-! SUPPORT. What the operations over cached copies, shadows and the current floor can do, once for each. -/

namespace Sys2Proof.Machine

/-- Dropping copies changes nothing but the copies. -/
theorem dropCopies_eq (p : Copy → Bool) (s : State) : dropCopies p s = { s with copies := (dropCopies p s).copies } := rfl

theorem mem_dropCopies (p : Copy → Bool) (s : State) (e) : e ∈ (dropCopies p s).copies ↔ e ∈ s.copies ∧ p e.2 = false := by
  simp [dropCopies]

/-- A core's copies of a line are dropped, and no other. -/
theorem mem_dropAll (core pa : Nat) (s : State) (e) :
    e ∈ (dropAll core pa s).copies ↔ e ∈ s.copies ∧ ¬ (e.2.line = lineOf pa ∧ e.2.holder.below core 5 false = true) := by
  rw [dropAll, mem_dropCopies]; simp

/-- The same for the words of several accesses. -/
theorem foldl_dropAll_eq {α : Type} (core : Nat) (f : α → Nat) (es : List α) (s : State) :
    es.foldl (fun s e => dropAll core (f e) s) s = { s with copies := (es.foldl (fun s e => dropAll core (f e) s) s).copies } := by
  induction es generalizing s with
  | nil => rfl
  | cons x es ih => rw [List.foldl_cons, ih]; rfl

theorem mem_foldl_dropAll {α : Type} (core : Nat) (f : α → Nat) (es : List α) (s : State) (c) :
    c ∈ (es.foldl (fun s e => dropAll core (f e) s) s).copies
      ↔ c ∈ s.copies ∧ ∀ x ∈ es, ¬ (c.2.line = lineOf (f x) ∧ c.2.holder.below core 5 false = true) := by
  induction es generalizing s with
  | nil => simp
  | cons x es ih => rw [List.foldl_cons, ih, mem_dropAll]; simp only [List.forall_mem_cons, and_assoc]

/-- An acquire discards the copies below its scope on the paths named, and nothing else. -/
theorem mem_acquireAt (core scope : Nat) (span : Bool) (paths : Path → Bool) (s : State) (e) :
    e ∈ (acquireAt core scope span paths s).copies ↔ e ∈ s.copies ∧ ¬ (paths e.2.path = true ∧ e.2.holder.below core scope span = true) := by
  rw [acquireAt, mem_dropCopies]; simp

/-- A write of a window from outside reaches the shadows, and nothing but the teams' transactions changes by it. -/
theorem putShadows_eq (core off mask : Nat) (new : DWord) (s : State) :
    putShadows core off mask new s = { s with teams := (putShadows core off mask new s).teams } := rfl

/-- An interval is taken once. -/
theorem Cluster.interval_taken {c : Cluster} {now : Nat} (h : now ≤ c.curInterval) (average : Nat) : c.interval now average = c := by
  simp [Cluster.interval, h]

/-- An interval leaves every command and register of the cluster but the current floor and its count as they are. -/
theorem Cluster.interval_frame (c : Cluster) (now average : Nat) :
    c.interval now average = { c with curInterval := (c.interval now average).curInterval, cfloor := (c.interval now average).cfloor,
                                      below := (c.interval now average).below } := by
  unfold Cluster.interval
  split
  · rfl
  · dsimp only
    repeat' split
    all_goals rfl

end Sys2Proof.Machine
end

