-- ==== Sys2Proof/Laws/State.lean ====
section
/-! SUPPORT. What each named update of the state does to each field: one lemma per field per update, true by rfl. -/

namespace Sys2Proof.Machine

/-! ### State.setCore -/
@[simp] theorem State.setCore_time (s : State) (c : Nat) (x : Core) : (s.setCore c x).time = s.time := rfl
@[simp] theorem State.setCore_mem (s : State) (c : Nat) (x : Core) : (s.setCore c x).mem = s.mem := rfl
@[simp] theorem State.setCore_full (s : State) (c : Nat) (x : Core) : (s.setCore c x).full = s.full := rfl
@[simp] theorem State.setCore_watched (s : State) (c : Nat) (x : Core) : (s.setCore c x).watched = s.watched := rfl
@[simp] theorem State.setCore_poison (s : State) (c : Nat) (x : Core) : (s.setCore c x).poison = s.poison := rfl
@[simp] theorem State.setCore_reqs (s : State) (c : Nat) (x : Core) : (s.setCore c x).reqs = s.reqs := rfl
@[simp] theorem State.setCore_copies (s : State) (c : Nat) (x : Core) : (s.setCore c x).copies = s.copies := rfl
@[simp] theorem State.setCore_leases (s : State) (c : Nat) (x : Core) : (s.setCore c x).leases = s.leases := rfl
@[simp] theorem State.setCore_groups (s : State) (c : Nat) (x : Core) : (s.setCore c x).groups = s.groups := rfl
@[simp] theorem State.setCore_teams (s : State) (c : Nat) (x : Core) : (s.setCore c x).teams = s.teams := rfl
@[simp] theorem State.setCore_launches (s : State) (c : Nat) (x : Core) : (s.setCore c x).launches = s.launches := rfl
@[simp] theorem State.setCore_cmds (s : State) (c : Nat) (x : Core) : (s.setCore c x).cmds = s.cmds := rfl
@[simp] theorem State.setCore_looms (s : State) (c : Nat) (x : Core) : (s.setCore c x).looms = s.looms := rfl
@[simp] theorem State.setCore_cores (s : State) (c : Nat) (x : Core) : (s.setCore c x).cores = Tab.put s.cores c x := rfl
@[simp] theorem State.setCore_clusters (s : State) (c : Nat) (x : Core) : (s.setCore c x).clusters = s.clusters := rfl
@[simp] theorem State.setCore_dies (s : State) (c : Nat) (x : Core) : (s.setCore c x).dies = s.dies := rfl
@[simp] theorem State.setCore_queues (s : State) (c : Nat) (x : Core) : (s.setCore c x).queues = s.queues := rfl
@[simp] theorem State.setCore_lastQueue (s : State) (c : Nat) (x : Core) : (s.setCore c x).lastQueue = s.lastQueue := rfl
@[simp] theorem State.setCore_nextLaunch (s : State) (c : Nat) (x : Core) : (s.setCore c x).nextLaunch = s.nextLaunch := rfl
@[simp] theorem State.setCore_assay (s : State) (c : Nat) (x : Core) : (s.setCore c x).assay = s.assay := rfl
@[simp] theorem State.setCore_assayclr (s : State) (c : Nat) (x : Core) : (s.setCore c x).assayclr = s.assayclr := rfl
@[simp] theorem State.setCore_killLaunch (s : State) (c : Nat) (x : Core) : (s.setCore c x).killLaunch = s.killLaunch := rfl
@[simp] theorem State.setCore_killBusy (s : State) (c : Nat) (x : Core) : (s.setCore c x).killBusy = s.killBusy := rfl
@[simp] theorem State.setCore_killDone (s : State) (c : Nat) (x : Core) : (s.setCore c x).killDone = s.killDone := rfl
@[simp] theorem State.setCore_killBad (s : State) (c : Nat) (x : Core) : (s.setCore c x).killBad = s.killBad := rfl
@[simp] theorem State.setCore_mode (s : State) (c : Nat) (x : Core) : (s.setCore c x).mode = s.mode := rfl
@[simp] theorem State.setCore_weftSelf (s : State) (c : Nat) (x : Core) : (s.setCore c x).weftSelf = s.weftSelf := rfl
@[simp] theorem State.setCore_weftSize (s : State) (c : Nat) (x : Core) : (s.setCore c x).weftSize = s.weftSize := rfl
@[simp] theorem State.setCore_silent (s : State) (c : Nat) (x : Core) : (s.setCore c x).silent = s.silent := rfl
@[simp] theorem State.setCore_carters (s : State) (c : Nat) (x : Core) : (s.setCore c x).carters = s.carters := rfl
@[simp] theorem State.setCore_lineTags (s : State) (c : Nat) (x : Core) : (s.setCore c x).lineTags = s.lineTags := rfl
@[simp] theorem State.setCore_engine (s : State) (c : Nat) (x : Core) : (s.setCore c x).engine = s.engine := rfl
@[simp] theorem State.setCore_boot (s : State) (c : Nat) (x : Core) : (s.setCore c x).boot = s.boot := rfl
@[simp] theorem State.setCore_host (s : State) (c : Nat) (x : Core) : (s.setCore c x).host = s.host := rfl
@[simp] theorem State.setCore_agenda (s : State) (c : Nat) (x : Core) : (s.setCore c x).agenda = s.agenda := rfl
@[simp] theorem State.setCore_turn (s : State) (c : Nat) (x : Core) : (s.setCore c x).turn = s.turn := rfl
@[simp] theorem State.setCore_free (s : State) (c : Nat) (x : Core) : (s.setCore c x).free = s.free := rfl
@[simp] theorem State.setCore_uid (s : State) (c : Nat) (x : Core) : (s.setCore c x).uid = s.uid := rfl

/-! ### State.modCore -/
@[simp] theorem State.modCore_time (s : State) (c : Nat) (f : Core → Core) : (s.modCore c f).time = s.time := rfl
@[simp] theorem State.modCore_mem (s : State) (c : Nat) (f : Core → Core) : (s.modCore c f).mem = s.mem := rfl
@[simp] theorem State.modCore_full (s : State) (c : Nat) (f : Core → Core) : (s.modCore c f).full = s.full := rfl
@[simp] theorem State.modCore_watched (s : State) (c : Nat) (f : Core → Core) : (s.modCore c f).watched = s.watched := rfl
@[simp] theorem State.modCore_poison (s : State) (c : Nat) (f : Core → Core) : (s.modCore c f).poison = s.poison := rfl
@[simp] theorem State.modCore_reqs (s : State) (c : Nat) (f : Core → Core) : (s.modCore c f).reqs = s.reqs := rfl
@[simp] theorem State.modCore_copies (s : State) (c : Nat) (f : Core → Core) : (s.modCore c f).copies = s.copies := rfl
@[simp] theorem State.modCore_leases (s : State) (c : Nat) (f : Core → Core) : (s.modCore c f).leases = s.leases := rfl
@[simp] theorem State.modCore_groups (s : State) (c : Nat) (f : Core → Core) : (s.modCore c f).groups = s.groups := rfl
@[simp] theorem State.modCore_teams (s : State) (c : Nat) (f : Core → Core) : (s.modCore c f).teams = s.teams := rfl
@[simp] theorem State.modCore_launches (s : State) (c : Nat) (f : Core → Core) : (s.modCore c f).launches = s.launches := rfl
@[simp] theorem State.modCore_cmds (s : State) (c : Nat) (f : Core → Core) : (s.modCore c f).cmds = s.cmds := rfl
@[simp] theorem State.modCore_looms (s : State) (c : Nat) (f : Core → Core) : (s.modCore c f).looms = s.looms := rfl
@[simp] theorem State.modCore_cores (s : State) (c : Nat) (f : Core → Core) : (s.modCore c f).cores = Tab.put s.cores c (f (s.core c)) := rfl
@[simp] theorem State.modCore_clusters (s : State) (c : Nat) (f : Core → Core) : (s.modCore c f).clusters = s.clusters := rfl
@[simp] theorem State.modCore_dies (s : State) (c : Nat) (f : Core → Core) : (s.modCore c f).dies = s.dies := rfl
@[simp] theorem State.modCore_queues (s : State) (c : Nat) (f : Core → Core) : (s.modCore c f).queues = s.queues := rfl
@[simp] theorem State.modCore_lastQueue (s : State) (c : Nat) (f : Core → Core) : (s.modCore c f).lastQueue = s.lastQueue := rfl
@[simp] theorem State.modCore_nextLaunch (s : State) (c : Nat) (f : Core → Core) : (s.modCore c f).nextLaunch = s.nextLaunch := rfl
@[simp] theorem State.modCore_assay (s : State) (c : Nat) (f : Core → Core) : (s.modCore c f).assay = s.assay := rfl
@[simp] theorem State.modCore_assayclr (s : State) (c : Nat) (f : Core → Core) : (s.modCore c f).assayclr = s.assayclr := rfl
@[simp] theorem State.modCore_killLaunch (s : State) (c : Nat) (f : Core → Core) : (s.modCore c f).killLaunch = s.killLaunch := rfl
@[simp] theorem State.modCore_killBusy (s : State) (c : Nat) (f : Core → Core) : (s.modCore c f).killBusy = s.killBusy := rfl
@[simp] theorem State.modCore_killDone (s : State) (c : Nat) (f : Core → Core) : (s.modCore c f).killDone = s.killDone := rfl
@[simp] theorem State.modCore_killBad (s : State) (c : Nat) (f : Core → Core) : (s.modCore c f).killBad = s.killBad := rfl
@[simp] theorem State.modCore_mode (s : State) (c : Nat) (f : Core → Core) : (s.modCore c f).mode = s.mode := rfl
@[simp] theorem State.modCore_weftSelf (s : State) (c : Nat) (f : Core → Core) : (s.modCore c f).weftSelf = s.weftSelf := rfl
@[simp] theorem State.modCore_weftSize (s : State) (c : Nat) (f : Core → Core) : (s.modCore c f).weftSize = s.weftSize := rfl
@[simp] theorem State.modCore_silent (s : State) (c : Nat) (f : Core → Core) : (s.modCore c f).silent = s.silent := rfl
@[simp] theorem State.modCore_carters (s : State) (c : Nat) (f : Core → Core) : (s.modCore c f).carters = s.carters := rfl
@[simp] theorem State.modCore_lineTags (s : State) (c : Nat) (f : Core → Core) : (s.modCore c f).lineTags = s.lineTags := rfl
@[simp] theorem State.modCore_engine (s : State) (c : Nat) (f : Core → Core) : (s.modCore c f).engine = s.engine := rfl
@[simp] theorem State.modCore_boot (s : State) (c : Nat) (f : Core → Core) : (s.modCore c f).boot = s.boot := rfl
@[simp] theorem State.modCore_host (s : State) (c : Nat) (f : Core → Core) : (s.modCore c f).host = s.host := rfl
@[simp] theorem State.modCore_agenda (s : State) (c : Nat) (f : Core → Core) : (s.modCore c f).agenda = s.agenda := rfl
@[simp] theorem State.modCore_turn (s : State) (c : Nat) (f : Core → Core) : (s.modCore c f).turn = s.turn := rfl
@[simp] theorem State.modCore_free (s : State) (c : Nat) (f : Core → Core) : (s.modCore c f).free = s.free := rfl
@[simp] theorem State.modCore_uid (s : State) (c : Nat) (f : Core → Core) : (s.modCore c f).uid = s.uid := rfl

/-! ### State.modCluster -/
@[simp] theorem State.modCluster_time (s : State) (c : Nat) (f : Cluster → Cluster) : (s.modCluster c f).time = s.time := rfl
@[simp] theorem State.modCluster_mem (s : State) (c : Nat) (f : Cluster → Cluster) : (s.modCluster c f).mem = s.mem := rfl
@[simp] theorem State.modCluster_full (s : State) (c : Nat) (f : Cluster → Cluster) : (s.modCluster c f).full = s.full := rfl
@[simp] theorem State.modCluster_watched (s : State) (c : Nat) (f : Cluster → Cluster) : (s.modCluster c f).watched = s.watched := rfl
@[simp] theorem State.modCluster_poison (s : State) (c : Nat) (f : Cluster → Cluster) : (s.modCluster c f).poison = s.poison := rfl
@[simp] theorem State.modCluster_reqs (s : State) (c : Nat) (f : Cluster → Cluster) : (s.modCluster c f).reqs = s.reqs := rfl
@[simp] theorem State.modCluster_copies (s : State) (c : Nat) (f : Cluster → Cluster) : (s.modCluster c f).copies = s.copies := rfl
@[simp] theorem State.modCluster_leases (s : State) (c : Nat) (f : Cluster → Cluster) : (s.modCluster c f).leases = s.leases := rfl
@[simp] theorem State.modCluster_groups (s : State) (c : Nat) (f : Cluster → Cluster) : (s.modCluster c f).groups = s.groups := rfl
@[simp] theorem State.modCluster_teams (s : State) (c : Nat) (f : Cluster → Cluster) : (s.modCluster c f).teams = s.teams := rfl
@[simp] theorem State.modCluster_launches (s : State) (c : Nat) (f : Cluster → Cluster) : (s.modCluster c f).launches = s.launches := rfl
@[simp] theorem State.modCluster_cmds (s : State) (c : Nat) (f : Cluster → Cluster) : (s.modCluster c f).cmds = s.cmds := rfl
@[simp] theorem State.modCluster_looms (s : State) (c : Nat) (f : Cluster → Cluster) : (s.modCluster c f).looms = s.looms := rfl
@[simp] theorem State.modCluster_cores (s : State) (c : Nat) (f : Cluster → Cluster) : (s.modCluster c f).cores = s.cores := rfl
@[simp] theorem State.modCluster_clusters (s : State) (c : Nat) (f : Cluster → Cluster) : (s.modCluster c f).clusters = Tab.put s.clusters c (f (s.cluster c)) := rfl
@[simp] theorem State.modCluster_dies (s : State) (c : Nat) (f : Cluster → Cluster) : (s.modCluster c f).dies = s.dies := rfl
@[simp] theorem State.modCluster_queues (s : State) (c : Nat) (f : Cluster → Cluster) : (s.modCluster c f).queues = s.queues := rfl
@[simp] theorem State.modCluster_lastQueue (s : State) (c : Nat) (f : Cluster → Cluster) : (s.modCluster c f).lastQueue = s.lastQueue := rfl
@[simp] theorem State.modCluster_nextLaunch (s : State) (c : Nat) (f : Cluster → Cluster) : (s.modCluster c f).nextLaunch = s.nextLaunch := rfl
@[simp] theorem State.modCluster_assay (s : State) (c : Nat) (f : Cluster → Cluster) : (s.modCluster c f).assay = s.assay := rfl
@[simp] theorem State.modCluster_assayclr (s : State) (c : Nat) (f : Cluster → Cluster) : (s.modCluster c f).assayclr = s.assayclr := rfl
@[simp] theorem State.modCluster_killLaunch (s : State) (c : Nat) (f : Cluster → Cluster) : (s.modCluster c f).killLaunch = s.killLaunch := rfl
@[simp] theorem State.modCluster_killBusy (s : State) (c : Nat) (f : Cluster → Cluster) : (s.modCluster c f).killBusy = s.killBusy := rfl
@[simp] theorem State.modCluster_killDone (s : State) (c : Nat) (f : Cluster → Cluster) : (s.modCluster c f).killDone = s.killDone := rfl
@[simp] theorem State.modCluster_killBad (s : State) (c : Nat) (f : Cluster → Cluster) : (s.modCluster c f).killBad = s.killBad := rfl
@[simp] theorem State.modCluster_mode (s : State) (c : Nat) (f : Cluster → Cluster) : (s.modCluster c f).mode = s.mode := rfl
@[simp] theorem State.modCluster_weftSelf (s : State) (c : Nat) (f : Cluster → Cluster) : (s.modCluster c f).weftSelf = s.weftSelf := rfl
@[simp] theorem State.modCluster_weftSize (s : State) (c : Nat) (f : Cluster → Cluster) : (s.modCluster c f).weftSize = s.weftSize := rfl
@[simp] theorem State.modCluster_silent (s : State) (c : Nat) (f : Cluster → Cluster) : (s.modCluster c f).silent = s.silent := rfl
@[simp] theorem State.modCluster_carters (s : State) (c : Nat) (f : Cluster → Cluster) : (s.modCluster c f).carters = s.carters := rfl
@[simp] theorem State.modCluster_lineTags (s : State) (c : Nat) (f : Cluster → Cluster) : (s.modCluster c f).lineTags = s.lineTags := rfl
@[simp] theorem State.modCluster_engine (s : State) (c : Nat) (f : Cluster → Cluster) : (s.modCluster c f).engine = s.engine := rfl
@[simp] theorem State.modCluster_boot (s : State) (c : Nat) (f : Cluster → Cluster) : (s.modCluster c f).boot = s.boot := rfl
@[simp] theorem State.modCluster_host (s : State) (c : Nat) (f : Cluster → Cluster) : (s.modCluster c f).host = s.host := rfl
@[simp] theorem State.modCluster_agenda (s : State) (c : Nat) (f : Cluster → Cluster) : (s.modCluster c f).agenda = s.agenda := rfl
@[simp] theorem State.modCluster_turn (s : State) (c : Nat) (f : Cluster → Cluster) : (s.modCluster c f).turn = s.turn := rfl
@[simp] theorem State.modCluster_free (s : State) (c : Nat) (f : Cluster → Cluster) : (s.modCluster c f).free = s.free := rfl
@[simp] theorem State.modCluster_uid (s : State) (c : Nat) (f : Cluster → Cluster) : (s.modCluster c f).uid = s.uid := rfl

/-! ### State.modDie -/
@[simp] theorem State.modDie_time (s : State) (d : Nat) (f : Die → Die) : (s.modDie d f).time = s.time := rfl
@[simp] theorem State.modDie_mem (s : State) (d : Nat) (f : Die → Die) : (s.modDie d f).mem = s.mem := rfl
@[simp] theorem State.modDie_full (s : State) (d : Nat) (f : Die → Die) : (s.modDie d f).full = s.full := rfl
@[simp] theorem State.modDie_watched (s : State) (d : Nat) (f : Die → Die) : (s.modDie d f).watched = s.watched := rfl
@[simp] theorem State.modDie_poison (s : State) (d : Nat) (f : Die → Die) : (s.modDie d f).poison = s.poison := rfl
@[simp] theorem State.modDie_reqs (s : State) (d : Nat) (f : Die → Die) : (s.modDie d f).reqs = s.reqs := rfl
@[simp] theorem State.modDie_copies (s : State) (d : Nat) (f : Die → Die) : (s.modDie d f).copies = s.copies := rfl
@[simp] theorem State.modDie_leases (s : State) (d : Nat) (f : Die → Die) : (s.modDie d f).leases = s.leases := rfl
@[simp] theorem State.modDie_groups (s : State) (d : Nat) (f : Die → Die) : (s.modDie d f).groups = s.groups := rfl
@[simp] theorem State.modDie_teams (s : State) (d : Nat) (f : Die → Die) : (s.modDie d f).teams = s.teams := rfl
@[simp] theorem State.modDie_launches (s : State) (d : Nat) (f : Die → Die) : (s.modDie d f).launches = s.launches := rfl
@[simp] theorem State.modDie_cmds (s : State) (d : Nat) (f : Die → Die) : (s.modDie d f).cmds = s.cmds := rfl
@[simp] theorem State.modDie_looms (s : State) (d : Nat) (f : Die → Die) : (s.modDie d f).looms = s.looms := rfl
@[simp] theorem State.modDie_cores (s : State) (d : Nat) (f : Die → Die) : (s.modDie d f).cores = s.cores := rfl
@[simp] theorem State.modDie_clusters (s : State) (d : Nat) (f : Die → Die) : (s.modDie d f).clusters = s.clusters := rfl
@[simp] theorem State.modDie_dies (s : State) (d : Nat) (f : Die → Die) : (s.modDie d f).dies = Tab.put s.dies d (f (s.die d)) := rfl
@[simp] theorem State.modDie_queues (s : State) (d : Nat) (f : Die → Die) : (s.modDie d f).queues = s.queues := rfl
@[simp] theorem State.modDie_lastQueue (s : State) (d : Nat) (f : Die → Die) : (s.modDie d f).lastQueue = s.lastQueue := rfl
@[simp] theorem State.modDie_nextLaunch (s : State) (d : Nat) (f : Die → Die) : (s.modDie d f).nextLaunch = s.nextLaunch := rfl
@[simp] theorem State.modDie_assay (s : State) (d : Nat) (f : Die → Die) : (s.modDie d f).assay = s.assay := rfl
@[simp] theorem State.modDie_assayclr (s : State) (d : Nat) (f : Die → Die) : (s.modDie d f).assayclr = s.assayclr := rfl
@[simp] theorem State.modDie_killLaunch (s : State) (d : Nat) (f : Die → Die) : (s.modDie d f).killLaunch = s.killLaunch := rfl
@[simp] theorem State.modDie_killBusy (s : State) (d : Nat) (f : Die → Die) : (s.modDie d f).killBusy = s.killBusy := rfl
@[simp] theorem State.modDie_killDone (s : State) (d : Nat) (f : Die → Die) : (s.modDie d f).killDone = s.killDone := rfl
@[simp] theorem State.modDie_killBad (s : State) (d : Nat) (f : Die → Die) : (s.modDie d f).killBad = s.killBad := rfl
@[simp] theorem State.modDie_mode (s : State) (d : Nat) (f : Die → Die) : (s.modDie d f).mode = s.mode := rfl
@[simp] theorem State.modDie_weftSelf (s : State) (d : Nat) (f : Die → Die) : (s.modDie d f).weftSelf = s.weftSelf := rfl
@[simp] theorem State.modDie_weftSize (s : State) (d : Nat) (f : Die → Die) : (s.modDie d f).weftSize = s.weftSize := rfl
@[simp] theorem State.modDie_silent (s : State) (d : Nat) (f : Die → Die) : (s.modDie d f).silent = s.silent := rfl
@[simp] theorem State.modDie_carters (s : State) (d : Nat) (f : Die → Die) : (s.modDie d f).carters = s.carters := rfl
@[simp] theorem State.modDie_lineTags (s : State) (d : Nat) (f : Die → Die) : (s.modDie d f).lineTags = s.lineTags := rfl
@[simp] theorem State.modDie_engine (s : State) (d : Nat) (f : Die → Die) : (s.modDie d f).engine = s.engine := rfl
@[simp] theorem State.modDie_boot (s : State) (d : Nat) (f : Die → Die) : (s.modDie d f).boot = s.boot := rfl
@[simp] theorem State.modDie_host (s : State) (d : Nat) (f : Die → Die) : (s.modDie d f).host = s.host := rfl
@[simp] theorem State.modDie_agenda (s : State) (d : Nat) (f : Die → Die) : (s.modDie d f).agenda = s.agenda := rfl
@[simp] theorem State.modDie_turn (s : State) (d : Nat) (f : Die → Die) : (s.modDie d f).turn = s.turn := rfl
@[simp] theorem State.modDie_free (s : State) (d : Nat) (f : Die → Die) : (s.modDie d f).free = s.free := rfl
@[simp] theorem State.modDie_uid (s : State) (d : Nat) (f : Die → Die) : (s.modDie d f).uid = s.uid := rfl

/-! ### State.modQueue -/
@[simp] theorem State.modQueue_time (s : State) (q : Nat) (f : Queue → Queue) : (s.modQueue q f).time = s.time := rfl
@[simp] theorem State.modQueue_mem (s : State) (q : Nat) (f : Queue → Queue) : (s.modQueue q f).mem = s.mem := rfl
@[simp] theorem State.modQueue_full (s : State) (q : Nat) (f : Queue → Queue) : (s.modQueue q f).full = s.full := rfl
@[simp] theorem State.modQueue_watched (s : State) (q : Nat) (f : Queue → Queue) : (s.modQueue q f).watched = s.watched := rfl
@[simp] theorem State.modQueue_poison (s : State) (q : Nat) (f : Queue → Queue) : (s.modQueue q f).poison = s.poison := rfl
@[simp] theorem State.modQueue_reqs (s : State) (q : Nat) (f : Queue → Queue) : (s.modQueue q f).reqs = s.reqs := rfl
@[simp] theorem State.modQueue_copies (s : State) (q : Nat) (f : Queue → Queue) : (s.modQueue q f).copies = s.copies := rfl
@[simp] theorem State.modQueue_leases (s : State) (q : Nat) (f : Queue → Queue) : (s.modQueue q f).leases = s.leases := rfl
@[simp] theorem State.modQueue_groups (s : State) (q : Nat) (f : Queue → Queue) : (s.modQueue q f).groups = s.groups := rfl
@[simp] theorem State.modQueue_teams (s : State) (q : Nat) (f : Queue → Queue) : (s.modQueue q f).teams = s.teams := rfl
@[simp] theorem State.modQueue_launches (s : State) (q : Nat) (f : Queue → Queue) : (s.modQueue q f).launches = s.launches := rfl
@[simp] theorem State.modQueue_cmds (s : State) (q : Nat) (f : Queue → Queue) : (s.modQueue q f).cmds = s.cmds := rfl
@[simp] theorem State.modQueue_looms (s : State) (q : Nat) (f : Queue → Queue) : (s.modQueue q f).looms = s.looms := rfl
@[simp] theorem State.modQueue_cores (s : State) (q : Nat) (f : Queue → Queue) : (s.modQueue q f).cores = s.cores := rfl
@[simp] theorem State.modQueue_clusters (s : State) (q : Nat) (f : Queue → Queue) : (s.modQueue q f).clusters = s.clusters := rfl
@[simp] theorem State.modQueue_dies (s : State) (q : Nat) (f : Queue → Queue) : (s.modQueue q f).dies = s.dies := rfl
@[simp] theorem State.modQueue_queues (s : State) (q : Nat) (f : Queue → Queue) : (s.modQueue q f).queues = Tab.put s.queues q (f (s.queue q)) := rfl
@[simp] theorem State.modQueue_lastQueue (s : State) (q : Nat) (f : Queue → Queue) : (s.modQueue q f).lastQueue = s.lastQueue := rfl
@[simp] theorem State.modQueue_nextLaunch (s : State) (q : Nat) (f : Queue → Queue) : (s.modQueue q f).nextLaunch = s.nextLaunch := rfl
@[simp] theorem State.modQueue_assay (s : State) (q : Nat) (f : Queue → Queue) : (s.modQueue q f).assay = s.assay := rfl
@[simp] theorem State.modQueue_assayclr (s : State) (q : Nat) (f : Queue → Queue) : (s.modQueue q f).assayclr = s.assayclr := rfl
@[simp] theorem State.modQueue_killLaunch (s : State) (q : Nat) (f : Queue → Queue) : (s.modQueue q f).killLaunch = s.killLaunch := rfl
@[simp] theorem State.modQueue_killBusy (s : State) (q : Nat) (f : Queue → Queue) : (s.modQueue q f).killBusy = s.killBusy := rfl
@[simp] theorem State.modQueue_killDone (s : State) (q : Nat) (f : Queue → Queue) : (s.modQueue q f).killDone = s.killDone := rfl
@[simp] theorem State.modQueue_killBad (s : State) (q : Nat) (f : Queue → Queue) : (s.modQueue q f).killBad = s.killBad := rfl
@[simp] theorem State.modQueue_mode (s : State) (q : Nat) (f : Queue → Queue) : (s.modQueue q f).mode = s.mode := rfl
@[simp] theorem State.modQueue_weftSelf (s : State) (q : Nat) (f : Queue → Queue) : (s.modQueue q f).weftSelf = s.weftSelf := rfl
@[simp] theorem State.modQueue_weftSize (s : State) (q : Nat) (f : Queue → Queue) : (s.modQueue q f).weftSize = s.weftSize := rfl
@[simp] theorem State.modQueue_silent (s : State) (q : Nat) (f : Queue → Queue) : (s.modQueue q f).silent = s.silent := rfl
@[simp] theorem State.modQueue_carters (s : State) (q : Nat) (f : Queue → Queue) : (s.modQueue q f).carters = s.carters := rfl
@[simp] theorem State.modQueue_lineTags (s : State) (q : Nat) (f : Queue → Queue) : (s.modQueue q f).lineTags = s.lineTags := rfl
@[simp] theorem State.modQueue_engine (s : State) (q : Nat) (f : Queue → Queue) : (s.modQueue q f).engine = s.engine := rfl
@[simp] theorem State.modQueue_boot (s : State) (q : Nat) (f : Queue → Queue) : (s.modQueue q f).boot = s.boot := rfl
@[simp] theorem State.modQueue_host (s : State) (q : Nat) (f : Queue → Queue) : (s.modQueue q f).host = s.host := rfl
@[simp] theorem State.modQueue_agenda (s : State) (q : Nat) (f : Queue → Queue) : (s.modQueue q f).agenda = s.agenda := rfl
@[simp] theorem State.modQueue_turn (s : State) (q : Nat) (f : Queue → Queue) : (s.modQueue q f).turn = s.turn := rfl
@[simp] theorem State.modQueue_free (s : State) (q : Nat) (f : Queue → Queue) : (s.modQueue q f).free = s.free := rfl
@[simp] theorem State.modQueue_uid (s : State) (q : Nat) (f : Queue → Queue) : (s.modQueue q f).uid = s.uid := rfl

/-! ### State.setCarter -/
@[simp] theorem State.setCarter_time (s : State) (c : Nat) (x : Carter) : (s.setCarter c x).time = s.time := rfl
@[simp] theorem State.setCarter_mem (s : State) (c : Nat) (x : Carter) : (s.setCarter c x).mem = s.mem := rfl
@[simp] theorem State.setCarter_full (s : State) (c : Nat) (x : Carter) : (s.setCarter c x).full = s.full := rfl
@[simp] theorem State.setCarter_watched (s : State) (c : Nat) (x : Carter) : (s.setCarter c x).watched = s.watched := rfl
@[simp] theorem State.setCarter_poison (s : State) (c : Nat) (x : Carter) : (s.setCarter c x).poison = s.poison := rfl
@[simp] theorem State.setCarter_reqs (s : State) (c : Nat) (x : Carter) : (s.setCarter c x).reqs = s.reqs := rfl
@[simp] theorem State.setCarter_copies (s : State) (c : Nat) (x : Carter) : (s.setCarter c x).copies = s.copies := rfl
@[simp] theorem State.setCarter_leases (s : State) (c : Nat) (x : Carter) : (s.setCarter c x).leases = s.leases := rfl
@[simp] theorem State.setCarter_groups (s : State) (c : Nat) (x : Carter) : (s.setCarter c x).groups = s.groups := rfl
@[simp] theorem State.setCarter_teams (s : State) (c : Nat) (x : Carter) : (s.setCarter c x).teams = s.teams := rfl
@[simp] theorem State.setCarter_launches (s : State) (c : Nat) (x : Carter) : (s.setCarter c x).launches = s.launches := rfl
@[simp] theorem State.setCarter_cmds (s : State) (c : Nat) (x : Carter) : (s.setCarter c x).cmds = s.cmds := rfl
@[simp] theorem State.setCarter_looms (s : State) (c : Nat) (x : Carter) : (s.setCarter c x).looms = s.looms := rfl
@[simp] theorem State.setCarter_cores (s : State) (c : Nat) (x : Carter) : (s.setCarter c x).cores = s.cores := rfl
@[simp] theorem State.setCarter_clusters (s : State) (c : Nat) (x : Carter) : (s.setCarter c x).clusters = s.clusters := rfl
@[simp] theorem State.setCarter_dies (s : State) (c : Nat) (x : Carter) : (s.setCarter c x).dies = s.dies := rfl
@[simp] theorem State.setCarter_queues (s : State) (c : Nat) (x : Carter) : (s.setCarter c x).queues = s.queues := rfl
@[simp] theorem State.setCarter_lastQueue (s : State) (c : Nat) (x : Carter) : (s.setCarter c x).lastQueue = s.lastQueue := rfl
@[simp] theorem State.setCarter_nextLaunch (s : State) (c : Nat) (x : Carter) : (s.setCarter c x).nextLaunch = s.nextLaunch := rfl
@[simp] theorem State.setCarter_assay (s : State) (c : Nat) (x : Carter) : (s.setCarter c x).assay = s.assay := rfl
@[simp] theorem State.setCarter_assayclr (s : State) (c : Nat) (x : Carter) : (s.setCarter c x).assayclr = s.assayclr := rfl
@[simp] theorem State.setCarter_killLaunch (s : State) (c : Nat) (x : Carter) : (s.setCarter c x).killLaunch = s.killLaunch := rfl
@[simp] theorem State.setCarter_killBusy (s : State) (c : Nat) (x : Carter) : (s.setCarter c x).killBusy = s.killBusy := rfl
@[simp] theorem State.setCarter_killDone (s : State) (c : Nat) (x : Carter) : (s.setCarter c x).killDone = s.killDone := rfl
@[simp] theorem State.setCarter_killBad (s : State) (c : Nat) (x : Carter) : (s.setCarter c x).killBad = s.killBad := rfl
@[simp] theorem State.setCarter_mode (s : State) (c : Nat) (x : Carter) : (s.setCarter c x).mode = s.mode := rfl
@[simp] theorem State.setCarter_weftSelf (s : State) (c : Nat) (x : Carter) : (s.setCarter c x).weftSelf = s.weftSelf := rfl
@[simp] theorem State.setCarter_weftSize (s : State) (c : Nat) (x : Carter) : (s.setCarter c x).weftSize = s.weftSize := rfl
@[simp] theorem State.setCarter_silent (s : State) (c : Nat) (x : Carter) : (s.setCarter c x).silent = s.silent := rfl
@[simp] theorem State.setCarter_carters (s : State) (c : Nat) (x : Carter) : (s.setCarter c x).carters = Tab.put s.carters c x := rfl
@[simp] theorem State.setCarter_lineTags (s : State) (c : Nat) (x : Carter) : (s.setCarter c x).lineTags = s.lineTags := rfl
@[simp] theorem State.setCarter_engine (s : State) (c : Nat) (x : Carter) : (s.setCarter c x).engine = s.engine := rfl
@[simp] theorem State.setCarter_boot (s : State) (c : Nat) (x : Carter) : (s.setCarter c x).boot = s.boot := rfl
@[simp] theorem State.setCarter_host (s : State) (c : Nat) (x : Carter) : (s.setCarter c x).host = s.host := rfl
@[simp] theorem State.setCarter_agenda (s : State) (c : Nat) (x : Carter) : (s.setCarter c x).agenda = s.agenda := rfl
@[simp] theorem State.setCarter_turn (s : State) (c : Nat) (x : Carter) : (s.setCarter c x).turn = s.turn := rfl
@[simp] theorem State.setCarter_free (s : State) (c : Nat) (x : Carter) : (s.setCarter c x).free = s.free := rfl
@[simp] theorem State.setCarter_uid (s : State) (c : Nat) (x : Carter) : (s.setCarter c x).uid = s.uid := rfl

/-! ### State.modTeam -/
@[simp] theorem State.modTeam_time (s : State) (n : Nat) (f : Team → Team) : (s.modTeam n f).time = s.time := rfl
@[simp] theorem State.modTeam_mem (s : State) (n : Nat) (f : Team → Team) : (s.modTeam n f).mem = s.mem := rfl
@[simp] theorem State.modTeam_full (s : State) (n : Nat) (f : Team → Team) : (s.modTeam n f).full = s.full := rfl
@[simp] theorem State.modTeam_watched (s : State) (n : Nat) (f : Team → Team) : (s.modTeam n f).watched = s.watched := rfl
@[simp] theorem State.modTeam_poison (s : State) (n : Nat) (f : Team → Team) : (s.modTeam n f).poison = s.poison := rfl
@[simp] theorem State.modTeam_reqs (s : State) (n : Nat) (f : Team → Team) : (s.modTeam n f).reqs = s.reqs := rfl
@[simp] theorem State.modTeam_copies (s : State) (n : Nat) (f : Team → Team) : (s.modTeam n f).copies = s.copies := rfl
@[simp] theorem State.modTeam_leases (s : State) (n : Nat) (f : Team → Team) : (s.modTeam n f).leases = s.leases := rfl
@[simp] theorem State.modTeam_groups (s : State) (n : Nat) (f : Team → Team) : (s.modTeam n f).groups = s.groups := rfl
@[simp] theorem State.modTeam_teams (s : State) (n : Nat) (f : Team → Team) : (s.modTeam n f).teams = Tab.modify s.teams n f := rfl
@[simp] theorem State.modTeam_launches (s : State) (n : Nat) (f : Team → Team) : (s.modTeam n f).launches = s.launches := rfl
@[simp] theorem State.modTeam_cmds (s : State) (n : Nat) (f : Team → Team) : (s.modTeam n f).cmds = s.cmds := rfl
@[simp] theorem State.modTeam_looms (s : State) (n : Nat) (f : Team → Team) : (s.modTeam n f).looms = s.looms := rfl
@[simp] theorem State.modTeam_cores (s : State) (n : Nat) (f : Team → Team) : (s.modTeam n f).cores = s.cores := rfl
@[simp] theorem State.modTeam_clusters (s : State) (n : Nat) (f : Team → Team) : (s.modTeam n f).clusters = s.clusters := rfl
@[simp] theorem State.modTeam_dies (s : State) (n : Nat) (f : Team → Team) : (s.modTeam n f).dies = s.dies := rfl
@[simp] theorem State.modTeam_queues (s : State) (n : Nat) (f : Team → Team) : (s.modTeam n f).queues = s.queues := rfl
@[simp] theorem State.modTeam_lastQueue (s : State) (n : Nat) (f : Team → Team) : (s.modTeam n f).lastQueue = s.lastQueue := rfl
@[simp] theorem State.modTeam_nextLaunch (s : State) (n : Nat) (f : Team → Team) : (s.modTeam n f).nextLaunch = s.nextLaunch := rfl
@[simp] theorem State.modTeam_assay (s : State) (n : Nat) (f : Team → Team) : (s.modTeam n f).assay = s.assay := rfl
@[simp] theorem State.modTeam_assayclr (s : State) (n : Nat) (f : Team → Team) : (s.modTeam n f).assayclr = s.assayclr := rfl
@[simp] theorem State.modTeam_killLaunch (s : State) (n : Nat) (f : Team → Team) : (s.modTeam n f).killLaunch = s.killLaunch := rfl
@[simp] theorem State.modTeam_killBusy (s : State) (n : Nat) (f : Team → Team) : (s.modTeam n f).killBusy = s.killBusy := rfl
@[simp] theorem State.modTeam_killDone (s : State) (n : Nat) (f : Team → Team) : (s.modTeam n f).killDone = s.killDone := rfl
@[simp] theorem State.modTeam_killBad (s : State) (n : Nat) (f : Team → Team) : (s.modTeam n f).killBad = s.killBad := rfl
@[simp] theorem State.modTeam_mode (s : State) (n : Nat) (f : Team → Team) : (s.modTeam n f).mode = s.mode := rfl
@[simp] theorem State.modTeam_weftSelf (s : State) (n : Nat) (f : Team → Team) : (s.modTeam n f).weftSelf = s.weftSelf := rfl
@[simp] theorem State.modTeam_weftSize (s : State) (n : Nat) (f : Team → Team) : (s.modTeam n f).weftSize = s.weftSize := rfl
@[simp] theorem State.modTeam_silent (s : State) (n : Nat) (f : Team → Team) : (s.modTeam n f).silent = s.silent := rfl
@[simp] theorem State.modTeam_carters (s : State) (n : Nat) (f : Team → Team) : (s.modTeam n f).carters = s.carters := rfl
@[simp] theorem State.modTeam_lineTags (s : State) (n : Nat) (f : Team → Team) : (s.modTeam n f).lineTags = s.lineTags := rfl
@[simp] theorem State.modTeam_engine (s : State) (n : Nat) (f : Team → Team) : (s.modTeam n f).engine = s.engine := rfl
@[simp] theorem State.modTeam_boot (s : State) (n : Nat) (f : Team → Team) : (s.modTeam n f).boot = s.boot := rfl
@[simp] theorem State.modTeam_host (s : State) (n : Nat) (f : Team → Team) : (s.modTeam n f).host = s.host := rfl
@[simp] theorem State.modTeam_agenda (s : State) (n : Nat) (f : Team → Team) : (s.modTeam n f).agenda = s.agenda := rfl
@[simp] theorem State.modTeam_turn (s : State) (n : Nat) (f : Team → Team) : (s.modTeam n f).turn = s.turn := rfl
@[simp] theorem State.modTeam_free (s : State) (n : Nat) (f : Team → Team) : (s.modTeam n f).free = s.free := rfl
@[simp] theorem State.modTeam_uid (s : State) (n : Nat) (f : Team → Team) : (s.modTeam n f).uid = s.uid := rfl

/-! ### State.modLaunch -/
@[simp] theorem State.modLaunch_time (s : State) (n : Nat) (f : Launch → Launch) : (s.modLaunch n f).time = s.time := rfl
@[simp] theorem State.modLaunch_mem (s : State) (n : Nat) (f : Launch → Launch) : (s.modLaunch n f).mem = s.mem := rfl
@[simp] theorem State.modLaunch_full (s : State) (n : Nat) (f : Launch → Launch) : (s.modLaunch n f).full = s.full := rfl
@[simp] theorem State.modLaunch_watched (s : State) (n : Nat) (f : Launch → Launch) : (s.modLaunch n f).watched = s.watched := rfl
@[simp] theorem State.modLaunch_poison (s : State) (n : Nat) (f : Launch → Launch) : (s.modLaunch n f).poison = s.poison := rfl
@[simp] theorem State.modLaunch_reqs (s : State) (n : Nat) (f : Launch → Launch) : (s.modLaunch n f).reqs = s.reqs := rfl
@[simp] theorem State.modLaunch_copies (s : State) (n : Nat) (f : Launch → Launch) : (s.modLaunch n f).copies = s.copies := rfl
@[simp] theorem State.modLaunch_leases (s : State) (n : Nat) (f : Launch → Launch) : (s.modLaunch n f).leases = s.leases := rfl
@[simp] theorem State.modLaunch_groups (s : State) (n : Nat) (f : Launch → Launch) : (s.modLaunch n f).groups = s.groups := rfl
@[simp] theorem State.modLaunch_teams (s : State) (n : Nat) (f : Launch → Launch) : (s.modLaunch n f).teams = s.teams := rfl
@[simp] theorem State.modLaunch_launches (s : State) (n : Nat) (f : Launch → Launch) : (s.modLaunch n f).launches = Tab.modify s.launches n f := rfl
@[simp] theorem State.modLaunch_cmds (s : State) (n : Nat) (f : Launch → Launch) : (s.modLaunch n f).cmds = s.cmds := rfl
@[simp] theorem State.modLaunch_looms (s : State) (n : Nat) (f : Launch → Launch) : (s.modLaunch n f).looms = s.looms := rfl
@[simp] theorem State.modLaunch_cores (s : State) (n : Nat) (f : Launch → Launch) : (s.modLaunch n f).cores = s.cores := rfl
@[simp] theorem State.modLaunch_clusters (s : State) (n : Nat) (f : Launch → Launch) : (s.modLaunch n f).clusters = s.clusters := rfl
@[simp] theorem State.modLaunch_dies (s : State) (n : Nat) (f : Launch → Launch) : (s.modLaunch n f).dies = s.dies := rfl
@[simp] theorem State.modLaunch_queues (s : State) (n : Nat) (f : Launch → Launch) : (s.modLaunch n f).queues = s.queues := rfl
@[simp] theorem State.modLaunch_lastQueue (s : State) (n : Nat) (f : Launch → Launch) : (s.modLaunch n f).lastQueue = s.lastQueue := rfl
@[simp] theorem State.modLaunch_nextLaunch (s : State) (n : Nat) (f : Launch → Launch) : (s.modLaunch n f).nextLaunch = s.nextLaunch := rfl
@[simp] theorem State.modLaunch_assay (s : State) (n : Nat) (f : Launch → Launch) : (s.modLaunch n f).assay = s.assay := rfl
@[simp] theorem State.modLaunch_assayclr (s : State) (n : Nat) (f : Launch → Launch) : (s.modLaunch n f).assayclr = s.assayclr := rfl
@[simp] theorem State.modLaunch_killLaunch (s : State) (n : Nat) (f : Launch → Launch) : (s.modLaunch n f).killLaunch = s.killLaunch := rfl
@[simp] theorem State.modLaunch_killBusy (s : State) (n : Nat) (f : Launch → Launch) : (s.modLaunch n f).killBusy = s.killBusy := rfl
@[simp] theorem State.modLaunch_killDone (s : State) (n : Nat) (f : Launch → Launch) : (s.modLaunch n f).killDone = s.killDone := rfl
@[simp] theorem State.modLaunch_killBad (s : State) (n : Nat) (f : Launch → Launch) : (s.modLaunch n f).killBad = s.killBad := rfl
@[simp] theorem State.modLaunch_mode (s : State) (n : Nat) (f : Launch → Launch) : (s.modLaunch n f).mode = s.mode := rfl
@[simp] theorem State.modLaunch_weftSelf (s : State) (n : Nat) (f : Launch → Launch) : (s.modLaunch n f).weftSelf = s.weftSelf := rfl
@[simp] theorem State.modLaunch_weftSize (s : State) (n : Nat) (f : Launch → Launch) : (s.modLaunch n f).weftSize = s.weftSize := rfl
@[simp] theorem State.modLaunch_silent (s : State) (n : Nat) (f : Launch → Launch) : (s.modLaunch n f).silent = s.silent := rfl
@[simp] theorem State.modLaunch_carters (s : State) (n : Nat) (f : Launch → Launch) : (s.modLaunch n f).carters = s.carters := rfl
@[simp] theorem State.modLaunch_lineTags (s : State) (n : Nat) (f : Launch → Launch) : (s.modLaunch n f).lineTags = s.lineTags := rfl
@[simp] theorem State.modLaunch_engine (s : State) (n : Nat) (f : Launch → Launch) : (s.modLaunch n f).engine = s.engine := rfl
@[simp] theorem State.modLaunch_boot (s : State) (n : Nat) (f : Launch → Launch) : (s.modLaunch n f).boot = s.boot := rfl
@[simp] theorem State.modLaunch_host (s : State) (n : Nat) (f : Launch → Launch) : (s.modLaunch n f).host = s.host := rfl
@[simp] theorem State.modLaunch_agenda (s : State) (n : Nat) (f : Launch → Launch) : (s.modLaunch n f).agenda = s.agenda := rfl
@[simp] theorem State.modLaunch_turn (s : State) (n : Nat) (f : Launch → Launch) : (s.modLaunch n f).turn = s.turn := rfl
@[simp] theorem State.modLaunch_free (s : State) (n : Nat) (f : Launch → Launch) : (s.modLaunch n f).free = s.free := rfl
@[simp] theorem State.modLaunch_uid (s : State) (n : Nat) (f : Launch → Launch) : (s.modLaunch n f).uid = s.uid := rfl

/-! ### State.modGroup -/
@[simp] theorem State.modGroup_time (s : State) (n : Nat) (f : Group → Group) : (s.modGroup n f).time = s.time := rfl
@[simp] theorem State.modGroup_mem (s : State) (n : Nat) (f : Group → Group) : (s.modGroup n f).mem = s.mem := rfl
@[simp] theorem State.modGroup_full (s : State) (n : Nat) (f : Group → Group) : (s.modGroup n f).full = s.full := rfl
@[simp] theorem State.modGroup_watched (s : State) (n : Nat) (f : Group → Group) : (s.modGroup n f).watched = s.watched := rfl
@[simp] theorem State.modGroup_poison (s : State) (n : Nat) (f : Group → Group) : (s.modGroup n f).poison = s.poison := rfl
@[simp] theorem State.modGroup_reqs (s : State) (n : Nat) (f : Group → Group) : (s.modGroup n f).reqs = s.reqs := rfl
@[simp] theorem State.modGroup_copies (s : State) (n : Nat) (f : Group → Group) : (s.modGroup n f).copies = s.copies := rfl
@[simp] theorem State.modGroup_leases (s : State) (n : Nat) (f : Group → Group) : (s.modGroup n f).leases = s.leases := rfl
@[simp] theorem State.modGroup_groups (s : State) (n : Nat) (f : Group → Group) : (s.modGroup n f).groups = Tab.modify s.groups n f := rfl
@[simp] theorem State.modGroup_teams (s : State) (n : Nat) (f : Group → Group) : (s.modGroup n f).teams = s.teams := rfl
@[simp] theorem State.modGroup_launches (s : State) (n : Nat) (f : Group → Group) : (s.modGroup n f).launches = s.launches := rfl
@[simp] theorem State.modGroup_cmds (s : State) (n : Nat) (f : Group → Group) : (s.modGroup n f).cmds = s.cmds := rfl
@[simp] theorem State.modGroup_looms (s : State) (n : Nat) (f : Group → Group) : (s.modGroup n f).looms = s.looms := rfl
@[simp] theorem State.modGroup_cores (s : State) (n : Nat) (f : Group → Group) : (s.modGroup n f).cores = s.cores := rfl
@[simp] theorem State.modGroup_clusters (s : State) (n : Nat) (f : Group → Group) : (s.modGroup n f).clusters = s.clusters := rfl
@[simp] theorem State.modGroup_dies (s : State) (n : Nat) (f : Group → Group) : (s.modGroup n f).dies = s.dies := rfl
@[simp] theorem State.modGroup_queues (s : State) (n : Nat) (f : Group → Group) : (s.modGroup n f).queues = s.queues := rfl
@[simp] theorem State.modGroup_lastQueue (s : State) (n : Nat) (f : Group → Group) : (s.modGroup n f).lastQueue = s.lastQueue := rfl
@[simp] theorem State.modGroup_nextLaunch (s : State) (n : Nat) (f : Group → Group) : (s.modGroup n f).nextLaunch = s.nextLaunch := rfl
@[simp] theorem State.modGroup_assay (s : State) (n : Nat) (f : Group → Group) : (s.modGroup n f).assay = s.assay := rfl
@[simp] theorem State.modGroup_assayclr (s : State) (n : Nat) (f : Group → Group) : (s.modGroup n f).assayclr = s.assayclr := rfl
@[simp] theorem State.modGroup_killLaunch (s : State) (n : Nat) (f : Group → Group) : (s.modGroup n f).killLaunch = s.killLaunch := rfl
@[simp] theorem State.modGroup_killBusy (s : State) (n : Nat) (f : Group → Group) : (s.modGroup n f).killBusy = s.killBusy := rfl
@[simp] theorem State.modGroup_killDone (s : State) (n : Nat) (f : Group → Group) : (s.modGroup n f).killDone = s.killDone := rfl
@[simp] theorem State.modGroup_killBad (s : State) (n : Nat) (f : Group → Group) : (s.modGroup n f).killBad = s.killBad := rfl
@[simp] theorem State.modGroup_mode (s : State) (n : Nat) (f : Group → Group) : (s.modGroup n f).mode = s.mode := rfl
@[simp] theorem State.modGroup_weftSelf (s : State) (n : Nat) (f : Group → Group) : (s.modGroup n f).weftSelf = s.weftSelf := rfl
@[simp] theorem State.modGroup_weftSize (s : State) (n : Nat) (f : Group → Group) : (s.modGroup n f).weftSize = s.weftSize := rfl
@[simp] theorem State.modGroup_silent (s : State) (n : Nat) (f : Group → Group) : (s.modGroup n f).silent = s.silent := rfl
@[simp] theorem State.modGroup_carters (s : State) (n : Nat) (f : Group → Group) : (s.modGroup n f).carters = s.carters := rfl
@[simp] theorem State.modGroup_lineTags (s : State) (n : Nat) (f : Group → Group) : (s.modGroup n f).lineTags = s.lineTags := rfl
@[simp] theorem State.modGroup_engine (s : State) (n : Nat) (f : Group → Group) : (s.modGroup n f).engine = s.engine := rfl
@[simp] theorem State.modGroup_boot (s : State) (n : Nat) (f : Group → Group) : (s.modGroup n f).boot = s.boot := rfl
@[simp] theorem State.modGroup_host (s : State) (n : Nat) (f : Group → Group) : (s.modGroup n f).host = s.host := rfl
@[simp] theorem State.modGroup_agenda (s : State) (n : Nat) (f : Group → Group) : (s.modGroup n f).agenda = s.agenda := rfl
@[simp] theorem State.modGroup_turn (s : State) (n : Nat) (f : Group → Group) : (s.modGroup n f).turn = s.turn := rfl
@[simp] theorem State.modGroup_free (s : State) (n : Nat) (f : Group → Group) : (s.modGroup n f).free = s.free := rfl
@[simp] theorem State.modGroup_uid (s : State) (n : Nat) (f : Group → Group) : (s.modGroup n f).uid = s.uid := rfl

/-! ### State.setGroup -/
@[simp] theorem State.setGroup_time (s : State) (n : Nat) (x : Group) : (s.setGroup n x).time = s.time := rfl
@[simp] theorem State.setGroup_mem (s : State) (n : Nat) (x : Group) : (s.setGroup n x).mem = s.mem := rfl
@[simp] theorem State.setGroup_full (s : State) (n : Nat) (x : Group) : (s.setGroup n x).full = s.full := rfl
@[simp] theorem State.setGroup_watched (s : State) (n : Nat) (x : Group) : (s.setGroup n x).watched = s.watched := rfl
@[simp] theorem State.setGroup_poison (s : State) (n : Nat) (x : Group) : (s.setGroup n x).poison = s.poison := rfl
@[simp] theorem State.setGroup_reqs (s : State) (n : Nat) (x : Group) : (s.setGroup n x).reqs = s.reqs := rfl
@[simp] theorem State.setGroup_copies (s : State) (n : Nat) (x : Group) : (s.setGroup n x).copies = s.copies := rfl
@[simp] theorem State.setGroup_leases (s : State) (n : Nat) (x : Group) : (s.setGroup n x).leases = s.leases := rfl
@[simp] theorem State.setGroup_groups (s : State) (n : Nat) (x : Group) : (s.setGroup n x).groups = Tab.put s.groups n x := rfl
@[simp] theorem State.setGroup_teams (s : State) (n : Nat) (x : Group) : (s.setGroup n x).teams = s.teams := rfl
@[simp] theorem State.setGroup_launches (s : State) (n : Nat) (x : Group) : (s.setGroup n x).launches = s.launches := rfl
@[simp] theorem State.setGroup_cmds (s : State) (n : Nat) (x : Group) : (s.setGroup n x).cmds = s.cmds := rfl
@[simp] theorem State.setGroup_looms (s : State) (n : Nat) (x : Group) : (s.setGroup n x).looms = s.looms := rfl
@[simp] theorem State.setGroup_cores (s : State) (n : Nat) (x : Group) : (s.setGroup n x).cores = s.cores := rfl
@[simp] theorem State.setGroup_clusters (s : State) (n : Nat) (x : Group) : (s.setGroup n x).clusters = s.clusters := rfl
@[simp] theorem State.setGroup_dies (s : State) (n : Nat) (x : Group) : (s.setGroup n x).dies = s.dies := rfl
@[simp] theorem State.setGroup_queues (s : State) (n : Nat) (x : Group) : (s.setGroup n x).queues = s.queues := rfl
@[simp] theorem State.setGroup_lastQueue (s : State) (n : Nat) (x : Group) : (s.setGroup n x).lastQueue = s.lastQueue := rfl
@[simp] theorem State.setGroup_nextLaunch (s : State) (n : Nat) (x : Group) : (s.setGroup n x).nextLaunch = s.nextLaunch := rfl
@[simp] theorem State.setGroup_assay (s : State) (n : Nat) (x : Group) : (s.setGroup n x).assay = s.assay := rfl
@[simp] theorem State.setGroup_assayclr (s : State) (n : Nat) (x : Group) : (s.setGroup n x).assayclr = s.assayclr := rfl
@[simp] theorem State.setGroup_killLaunch (s : State) (n : Nat) (x : Group) : (s.setGroup n x).killLaunch = s.killLaunch := rfl
@[simp] theorem State.setGroup_killBusy (s : State) (n : Nat) (x : Group) : (s.setGroup n x).killBusy = s.killBusy := rfl
@[simp] theorem State.setGroup_killDone (s : State) (n : Nat) (x : Group) : (s.setGroup n x).killDone = s.killDone := rfl
@[simp] theorem State.setGroup_killBad (s : State) (n : Nat) (x : Group) : (s.setGroup n x).killBad = s.killBad := rfl
@[simp] theorem State.setGroup_mode (s : State) (n : Nat) (x : Group) : (s.setGroup n x).mode = s.mode := rfl
@[simp] theorem State.setGroup_weftSelf (s : State) (n : Nat) (x : Group) : (s.setGroup n x).weftSelf = s.weftSelf := rfl
@[simp] theorem State.setGroup_weftSize (s : State) (n : Nat) (x : Group) : (s.setGroup n x).weftSize = s.weftSize := rfl
@[simp] theorem State.setGroup_silent (s : State) (n : Nat) (x : Group) : (s.setGroup n x).silent = s.silent := rfl
@[simp] theorem State.setGroup_carters (s : State) (n : Nat) (x : Group) : (s.setGroup n x).carters = s.carters := rfl
@[simp] theorem State.setGroup_lineTags (s : State) (n : Nat) (x : Group) : (s.setGroup n x).lineTags = s.lineTags := rfl
@[simp] theorem State.setGroup_engine (s : State) (n : Nat) (x : Group) : (s.setGroup n x).engine = s.engine := rfl
@[simp] theorem State.setGroup_boot (s : State) (n : Nat) (x : Group) : (s.setGroup n x).boot = s.boot := rfl
@[simp] theorem State.setGroup_host (s : State) (n : Nat) (x : Group) : (s.setGroup n x).host = s.host := rfl
@[simp] theorem State.setGroup_agenda (s : State) (n : Nat) (x : Group) : (s.setGroup n x).agenda = s.agenda := rfl
@[simp] theorem State.setGroup_turn (s : State) (n : Nat) (x : Group) : (s.setGroup n x).turn = s.turn := rfl
@[simp] theorem State.setGroup_free (s : State) (n : Nat) (x : Group) : (s.setGroup n x).free = s.free := rfl
@[simp] theorem State.setGroup_uid (s : State) (n : Nat) (x : Group) : (s.setGroup n x).uid = s.uid := rfl

/-! ### State.modReq -/
@[simp] theorem State.modReq_time (s : State) (n : Nat) (f : Req → Req) : (s.modReq n f).time = s.time := rfl
@[simp] theorem State.modReq_mem (s : State) (n : Nat) (f : Req → Req) : (s.modReq n f).mem = s.mem := rfl
@[simp] theorem State.modReq_full (s : State) (n : Nat) (f : Req → Req) : (s.modReq n f).full = s.full := rfl
@[simp] theorem State.modReq_watched (s : State) (n : Nat) (f : Req → Req) : (s.modReq n f).watched = s.watched := rfl
@[simp] theorem State.modReq_poison (s : State) (n : Nat) (f : Req → Req) : (s.modReq n f).poison = s.poison := rfl
@[simp] theorem State.modReq_reqs (s : State) (n : Nat) (f : Req → Req) : (s.modReq n f).reqs = Tab.modify s.reqs n f := rfl
@[simp] theorem State.modReq_copies (s : State) (n : Nat) (f : Req → Req) : (s.modReq n f).copies = s.copies := rfl
@[simp] theorem State.modReq_leases (s : State) (n : Nat) (f : Req → Req) : (s.modReq n f).leases = s.leases := rfl
@[simp] theorem State.modReq_groups (s : State) (n : Nat) (f : Req → Req) : (s.modReq n f).groups = s.groups := rfl
@[simp] theorem State.modReq_teams (s : State) (n : Nat) (f : Req → Req) : (s.modReq n f).teams = s.teams := rfl
@[simp] theorem State.modReq_launches (s : State) (n : Nat) (f : Req → Req) : (s.modReq n f).launches = s.launches := rfl
@[simp] theorem State.modReq_cmds (s : State) (n : Nat) (f : Req → Req) : (s.modReq n f).cmds = s.cmds := rfl
@[simp] theorem State.modReq_looms (s : State) (n : Nat) (f : Req → Req) : (s.modReq n f).looms = s.looms := rfl
@[simp] theorem State.modReq_cores (s : State) (n : Nat) (f : Req → Req) : (s.modReq n f).cores = s.cores := rfl
@[simp] theorem State.modReq_clusters (s : State) (n : Nat) (f : Req → Req) : (s.modReq n f).clusters = s.clusters := rfl
@[simp] theorem State.modReq_dies (s : State) (n : Nat) (f : Req → Req) : (s.modReq n f).dies = s.dies := rfl
@[simp] theorem State.modReq_queues (s : State) (n : Nat) (f : Req → Req) : (s.modReq n f).queues = s.queues := rfl
@[simp] theorem State.modReq_lastQueue (s : State) (n : Nat) (f : Req → Req) : (s.modReq n f).lastQueue = s.lastQueue := rfl
@[simp] theorem State.modReq_nextLaunch (s : State) (n : Nat) (f : Req → Req) : (s.modReq n f).nextLaunch = s.nextLaunch := rfl
@[simp] theorem State.modReq_assay (s : State) (n : Nat) (f : Req → Req) : (s.modReq n f).assay = s.assay := rfl
@[simp] theorem State.modReq_assayclr (s : State) (n : Nat) (f : Req → Req) : (s.modReq n f).assayclr = s.assayclr := rfl
@[simp] theorem State.modReq_killLaunch (s : State) (n : Nat) (f : Req → Req) : (s.modReq n f).killLaunch = s.killLaunch := rfl
@[simp] theorem State.modReq_killBusy (s : State) (n : Nat) (f : Req → Req) : (s.modReq n f).killBusy = s.killBusy := rfl
@[simp] theorem State.modReq_killDone (s : State) (n : Nat) (f : Req → Req) : (s.modReq n f).killDone = s.killDone := rfl
@[simp] theorem State.modReq_killBad (s : State) (n : Nat) (f : Req → Req) : (s.modReq n f).killBad = s.killBad := rfl
@[simp] theorem State.modReq_mode (s : State) (n : Nat) (f : Req → Req) : (s.modReq n f).mode = s.mode := rfl
@[simp] theorem State.modReq_weftSelf (s : State) (n : Nat) (f : Req → Req) : (s.modReq n f).weftSelf = s.weftSelf := rfl
@[simp] theorem State.modReq_weftSize (s : State) (n : Nat) (f : Req → Req) : (s.modReq n f).weftSize = s.weftSize := rfl
@[simp] theorem State.modReq_silent (s : State) (n : Nat) (f : Req → Req) : (s.modReq n f).silent = s.silent := rfl
@[simp] theorem State.modReq_carters (s : State) (n : Nat) (f : Req → Req) : (s.modReq n f).carters = s.carters := rfl
@[simp] theorem State.modReq_lineTags (s : State) (n : Nat) (f : Req → Req) : (s.modReq n f).lineTags = s.lineTags := rfl
@[simp] theorem State.modReq_engine (s : State) (n : Nat) (f : Req → Req) : (s.modReq n f).engine = s.engine := rfl
@[simp] theorem State.modReq_boot (s : State) (n : Nat) (f : Req → Req) : (s.modReq n f).boot = s.boot := rfl
@[simp] theorem State.modReq_host (s : State) (n : Nat) (f : Req → Req) : (s.modReq n f).host = s.host := rfl
@[simp] theorem State.modReq_agenda (s : State) (n : Nat) (f : Req → Req) : (s.modReq n f).agenda = s.agenda := rfl
@[simp] theorem State.modReq_turn (s : State) (n : Nat) (f : Req → Req) : (s.modReq n f).turn = s.turn := rfl
@[simp] theorem State.modReq_free (s : State) (n : Nat) (f : Req → Req) : (s.modReq n f).free = s.free := rfl
@[simp] theorem State.modReq_uid (s : State) (n : Nat) (f : Req → Req) : (s.modReq n f).uid = s.uid := rfl

/-! ### State.delReq -/
@[simp] theorem State.delReq_time (s : State) (n : Nat) : (s.delReq n).time = s.time := rfl
@[simp] theorem State.delReq_mem (s : State) (n : Nat) : (s.delReq n).mem = s.mem := rfl
@[simp] theorem State.delReq_full (s : State) (n : Nat) : (s.delReq n).full = s.full := rfl
@[simp] theorem State.delReq_watched (s : State) (n : Nat) : (s.delReq n).watched = s.watched := rfl
@[simp] theorem State.delReq_poison (s : State) (n : Nat) : (s.delReq n).poison = s.poison := rfl
@[simp] theorem State.delReq_reqs (s : State) (n : Nat) : (s.delReq n).reqs = Tab.del s.reqs n := rfl
@[simp] theorem State.delReq_copies (s : State) (n : Nat) : (s.delReq n).copies = s.copies := rfl
@[simp] theorem State.delReq_leases (s : State) (n : Nat) : (s.delReq n).leases = s.leases := rfl
@[simp] theorem State.delReq_groups (s : State) (n : Nat) : (s.delReq n).groups = s.groups := rfl
@[simp] theorem State.delReq_teams (s : State) (n : Nat) : (s.delReq n).teams = s.teams := rfl
@[simp] theorem State.delReq_launches (s : State) (n : Nat) : (s.delReq n).launches = s.launches := rfl
@[simp] theorem State.delReq_cmds (s : State) (n : Nat) : (s.delReq n).cmds = s.cmds := rfl
@[simp] theorem State.delReq_looms (s : State) (n : Nat) : (s.delReq n).looms = s.looms := rfl
@[simp] theorem State.delReq_cores (s : State) (n : Nat) : (s.delReq n).cores = s.cores := rfl
@[simp] theorem State.delReq_clusters (s : State) (n : Nat) : (s.delReq n).clusters = s.clusters := rfl
@[simp] theorem State.delReq_dies (s : State) (n : Nat) : (s.delReq n).dies = s.dies := rfl
@[simp] theorem State.delReq_queues (s : State) (n : Nat) : (s.delReq n).queues = s.queues := rfl
@[simp] theorem State.delReq_lastQueue (s : State) (n : Nat) : (s.delReq n).lastQueue = s.lastQueue := rfl
@[simp] theorem State.delReq_nextLaunch (s : State) (n : Nat) : (s.delReq n).nextLaunch = s.nextLaunch := rfl
@[simp] theorem State.delReq_assay (s : State) (n : Nat) : (s.delReq n).assay = s.assay := rfl
@[simp] theorem State.delReq_assayclr (s : State) (n : Nat) : (s.delReq n).assayclr = s.assayclr := rfl
@[simp] theorem State.delReq_killLaunch (s : State) (n : Nat) : (s.delReq n).killLaunch = s.killLaunch := rfl
@[simp] theorem State.delReq_killBusy (s : State) (n : Nat) : (s.delReq n).killBusy = s.killBusy := rfl
@[simp] theorem State.delReq_killDone (s : State) (n : Nat) : (s.delReq n).killDone = s.killDone := rfl
@[simp] theorem State.delReq_killBad (s : State) (n : Nat) : (s.delReq n).killBad = s.killBad := rfl
@[simp] theorem State.delReq_mode (s : State) (n : Nat) : (s.delReq n).mode = s.mode := rfl
@[simp] theorem State.delReq_weftSelf (s : State) (n : Nat) : (s.delReq n).weftSelf = s.weftSelf := rfl
@[simp] theorem State.delReq_weftSize (s : State) (n : Nat) : (s.delReq n).weftSize = s.weftSize := rfl
@[simp] theorem State.delReq_silent (s : State) (n : Nat) : (s.delReq n).silent = s.silent := rfl
@[simp] theorem State.delReq_carters (s : State) (n : Nat) : (s.delReq n).carters = s.carters := rfl
@[simp] theorem State.delReq_lineTags (s : State) (n : Nat) : (s.delReq n).lineTags = s.lineTags := rfl
@[simp] theorem State.delReq_engine (s : State) (n : Nat) : (s.delReq n).engine = s.engine := rfl
@[simp] theorem State.delReq_boot (s : State) (n : Nat) : (s.delReq n).boot = s.boot := rfl
@[simp] theorem State.delReq_host (s : State) (n : Nat) : (s.delReq n).host = s.host := rfl
@[simp] theorem State.delReq_agenda (s : State) (n : Nat) : (s.delReq n).agenda = s.agenda := rfl
@[simp] theorem State.delReq_turn (s : State) (n : Nat) : (s.delReq n).turn = s.turn := rfl
@[simp] theorem State.delReq_free (s : State) (n : Nat) : (s.delReq n).free = s.free := rfl
@[simp] theorem State.delReq_uid (s : State) (n : Nat) : (s.delReq n).uid = s.uid := rfl

/-! ### State.modCmd -/
@[simp] theorem State.modCmd_time (s : State) (n : Nat) (f : Cmd → Cmd) : (s.modCmd n f).time = s.time := rfl
@[simp] theorem State.modCmd_mem (s : State) (n : Nat) (f : Cmd → Cmd) : (s.modCmd n f).mem = s.mem := rfl
@[simp] theorem State.modCmd_full (s : State) (n : Nat) (f : Cmd → Cmd) : (s.modCmd n f).full = s.full := rfl
@[simp] theorem State.modCmd_watched (s : State) (n : Nat) (f : Cmd → Cmd) : (s.modCmd n f).watched = s.watched := rfl
@[simp] theorem State.modCmd_poison (s : State) (n : Nat) (f : Cmd → Cmd) : (s.modCmd n f).poison = s.poison := rfl
@[simp] theorem State.modCmd_reqs (s : State) (n : Nat) (f : Cmd → Cmd) : (s.modCmd n f).reqs = s.reqs := rfl
@[simp] theorem State.modCmd_copies (s : State) (n : Nat) (f : Cmd → Cmd) : (s.modCmd n f).copies = s.copies := rfl
@[simp] theorem State.modCmd_leases (s : State) (n : Nat) (f : Cmd → Cmd) : (s.modCmd n f).leases = s.leases := rfl
@[simp] theorem State.modCmd_groups (s : State) (n : Nat) (f : Cmd → Cmd) : (s.modCmd n f).groups = s.groups := rfl
@[simp] theorem State.modCmd_teams (s : State) (n : Nat) (f : Cmd → Cmd) : (s.modCmd n f).teams = s.teams := rfl
@[simp] theorem State.modCmd_launches (s : State) (n : Nat) (f : Cmd → Cmd) : (s.modCmd n f).launches = s.launches := rfl
@[simp] theorem State.modCmd_cmds (s : State) (n : Nat) (f : Cmd → Cmd) : (s.modCmd n f).cmds = Tab.modify s.cmds n f := rfl
@[simp] theorem State.modCmd_looms (s : State) (n : Nat) (f : Cmd → Cmd) : (s.modCmd n f).looms = s.looms := rfl
@[simp] theorem State.modCmd_cores (s : State) (n : Nat) (f : Cmd → Cmd) : (s.modCmd n f).cores = s.cores := rfl
@[simp] theorem State.modCmd_clusters (s : State) (n : Nat) (f : Cmd → Cmd) : (s.modCmd n f).clusters = s.clusters := rfl
@[simp] theorem State.modCmd_dies (s : State) (n : Nat) (f : Cmd → Cmd) : (s.modCmd n f).dies = s.dies := rfl
@[simp] theorem State.modCmd_queues (s : State) (n : Nat) (f : Cmd → Cmd) : (s.modCmd n f).queues = s.queues := rfl
@[simp] theorem State.modCmd_lastQueue (s : State) (n : Nat) (f : Cmd → Cmd) : (s.modCmd n f).lastQueue = s.lastQueue := rfl
@[simp] theorem State.modCmd_nextLaunch (s : State) (n : Nat) (f : Cmd → Cmd) : (s.modCmd n f).nextLaunch = s.nextLaunch := rfl
@[simp] theorem State.modCmd_assay (s : State) (n : Nat) (f : Cmd → Cmd) : (s.modCmd n f).assay = s.assay := rfl
@[simp] theorem State.modCmd_assayclr (s : State) (n : Nat) (f : Cmd → Cmd) : (s.modCmd n f).assayclr = s.assayclr := rfl
@[simp] theorem State.modCmd_killLaunch (s : State) (n : Nat) (f : Cmd → Cmd) : (s.modCmd n f).killLaunch = s.killLaunch := rfl
@[simp] theorem State.modCmd_killBusy (s : State) (n : Nat) (f : Cmd → Cmd) : (s.modCmd n f).killBusy = s.killBusy := rfl
@[simp] theorem State.modCmd_killDone (s : State) (n : Nat) (f : Cmd → Cmd) : (s.modCmd n f).killDone = s.killDone := rfl
@[simp] theorem State.modCmd_killBad (s : State) (n : Nat) (f : Cmd → Cmd) : (s.modCmd n f).killBad = s.killBad := rfl
@[simp] theorem State.modCmd_mode (s : State) (n : Nat) (f : Cmd → Cmd) : (s.modCmd n f).mode = s.mode := rfl
@[simp] theorem State.modCmd_weftSelf (s : State) (n : Nat) (f : Cmd → Cmd) : (s.modCmd n f).weftSelf = s.weftSelf := rfl
@[simp] theorem State.modCmd_weftSize (s : State) (n : Nat) (f : Cmd → Cmd) : (s.modCmd n f).weftSize = s.weftSize := rfl
@[simp] theorem State.modCmd_silent (s : State) (n : Nat) (f : Cmd → Cmd) : (s.modCmd n f).silent = s.silent := rfl
@[simp] theorem State.modCmd_carters (s : State) (n : Nat) (f : Cmd → Cmd) : (s.modCmd n f).carters = s.carters := rfl
@[simp] theorem State.modCmd_lineTags (s : State) (n : Nat) (f : Cmd → Cmd) : (s.modCmd n f).lineTags = s.lineTags := rfl
@[simp] theorem State.modCmd_engine (s : State) (n : Nat) (f : Cmd → Cmd) : (s.modCmd n f).engine = s.engine := rfl
@[simp] theorem State.modCmd_boot (s : State) (n : Nat) (f : Cmd → Cmd) : (s.modCmd n f).boot = s.boot := rfl
@[simp] theorem State.modCmd_host (s : State) (n : Nat) (f : Cmd → Cmd) : (s.modCmd n f).host = s.host := rfl
@[simp] theorem State.modCmd_agenda (s : State) (n : Nat) (f : Cmd → Cmd) : (s.modCmd n f).agenda = s.agenda := rfl
@[simp] theorem State.modCmd_turn (s : State) (n : Nat) (f : Cmd → Cmd) : (s.modCmd n f).turn = s.turn := rfl
@[simp] theorem State.modCmd_free (s : State) (n : Nat) (f : Cmd → Cmd) : (s.modCmd n f).free = s.free := rfl
@[simp] theorem State.modCmd_uid (s : State) (n : Nat) (f : Cmd → Cmd) : (s.modCmd n f).uid = s.uid := rfl

/-! ### State.modLoom -/
@[simp] theorem State.modLoom_time (s : State) (n : Nat) (f : Loom → Loom) : (s.modLoom n f).time = s.time := rfl
@[simp] theorem State.modLoom_mem (s : State) (n : Nat) (f : Loom → Loom) : (s.modLoom n f).mem = s.mem := rfl
@[simp] theorem State.modLoom_full (s : State) (n : Nat) (f : Loom → Loom) : (s.modLoom n f).full = s.full := rfl
@[simp] theorem State.modLoom_watched (s : State) (n : Nat) (f : Loom → Loom) : (s.modLoom n f).watched = s.watched := rfl
@[simp] theorem State.modLoom_poison (s : State) (n : Nat) (f : Loom → Loom) : (s.modLoom n f).poison = s.poison := rfl
@[simp] theorem State.modLoom_reqs (s : State) (n : Nat) (f : Loom → Loom) : (s.modLoom n f).reqs = s.reqs := rfl
@[simp] theorem State.modLoom_copies (s : State) (n : Nat) (f : Loom → Loom) : (s.modLoom n f).copies = s.copies := rfl
@[simp] theorem State.modLoom_leases (s : State) (n : Nat) (f : Loom → Loom) : (s.modLoom n f).leases = s.leases := rfl
@[simp] theorem State.modLoom_groups (s : State) (n : Nat) (f : Loom → Loom) : (s.modLoom n f).groups = s.groups := rfl
@[simp] theorem State.modLoom_teams (s : State) (n : Nat) (f : Loom → Loom) : (s.modLoom n f).teams = s.teams := rfl
@[simp] theorem State.modLoom_launches (s : State) (n : Nat) (f : Loom → Loom) : (s.modLoom n f).launches = s.launches := rfl
@[simp] theorem State.modLoom_cmds (s : State) (n : Nat) (f : Loom → Loom) : (s.modLoom n f).cmds = s.cmds := rfl
@[simp] theorem State.modLoom_looms (s : State) (n : Nat) (f : Loom → Loom) : (s.modLoom n f).looms = Tab.modify s.looms n f := rfl
@[simp] theorem State.modLoom_cores (s : State) (n : Nat) (f : Loom → Loom) : (s.modLoom n f).cores = s.cores := rfl
@[simp] theorem State.modLoom_clusters (s : State) (n : Nat) (f : Loom → Loom) : (s.modLoom n f).clusters = s.clusters := rfl
@[simp] theorem State.modLoom_dies (s : State) (n : Nat) (f : Loom → Loom) : (s.modLoom n f).dies = s.dies := rfl
@[simp] theorem State.modLoom_queues (s : State) (n : Nat) (f : Loom → Loom) : (s.modLoom n f).queues = s.queues := rfl
@[simp] theorem State.modLoom_lastQueue (s : State) (n : Nat) (f : Loom → Loom) : (s.modLoom n f).lastQueue = s.lastQueue := rfl
@[simp] theorem State.modLoom_nextLaunch (s : State) (n : Nat) (f : Loom → Loom) : (s.modLoom n f).nextLaunch = s.nextLaunch := rfl
@[simp] theorem State.modLoom_assay (s : State) (n : Nat) (f : Loom → Loom) : (s.modLoom n f).assay = s.assay := rfl
@[simp] theorem State.modLoom_assayclr (s : State) (n : Nat) (f : Loom → Loom) : (s.modLoom n f).assayclr = s.assayclr := rfl
@[simp] theorem State.modLoom_killLaunch (s : State) (n : Nat) (f : Loom → Loom) : (s.modLoom n f).killLaunch = s.killLaunch := rfl
@[simp] theorem State.modLoom_killBusy (s : State) (n : Nat) (f : Loom → Loom) : (s.modLoom n f).killBusy = s.killBusy := rfl
@[simp] theorem State.modLoom_killDone (s : State) (n : Nat) (f : Loom → Loom) : (s.modLoom n f).killDone = s.killDone := rfl
@[simp] theorem State.modLoom_killBad (s : State) (n : Nat) (f : Loom → Loom) : (s.modLoom n f).killBad = s.killBad := rfl
@[simp] theorem State.modLoom_mode (s : State) (n : Nat) (f : Loom → Loom) : (s.modLoom n f).mode = s.mode := rfl
@[simp] theorem State.modLoom_weftSelf (s : State) (n : Nat) (f : Loom → Loom) : (s.modLoom n f).weftSelf = s.weftSelf := rfl
@[simp] theorem State.modLoom_weftSize (s : State) (n : Nat) (f : Loom → Loom) : (s.modLoom n f).weftSize = s.weftSize := rfl
@[simp] theorem State.modLoom_silent (s : State) (n : Nat) (f : Loom → Loom) : (s.modLoom n f).silent = s.silent := rfl
@[simp] theorem State.modLoom_carters (s : State) (n : Nat) (f : Loom → Loom) : (s.modLoom n f).carters = s.carters := rfl
@[simp] theorem State.modLoom_lineTags (s : State) (n : Nat) (f : Loom → Loom) : (s.modLoom n f).lineTags = s.lineTags := rfl
@[simp] theorem State.modLoom_engine (s : State) (n : Nat) (f : Loom → Loom) : (s.modLoom n f).engine = s.engine := rfl
@[simp] theorem State.modLoom_boot (s : State) (n : Nat) (f : Loom → Loom) : (s.modLoom n f).boot = s.boot := rfl
@[simp] theorem State.modLoom_host (s : State) (n : Nat) (f : Loom → Loom) : (s.modLoom n f).host = s.host := rfl
@[simp] theorem State.modLoom_agenda (s : State) (n : Nat) (f : Loom → Loom) : (s.modLoom n f).agenda = s.agenda := rfl
@[simp] theorem State.modLoom_turn (s : State) (n : Nat) (f : Loom → Loom) : (s.modLoom n f).turn = s.turn := rfl
@[simp] theorem State.modLoom_free (s : State) (n : Nat) (f : Loom → Loom) : (s.modLoom n f).free = s.free := rfl
@[simp] theorem State.modLoom_uid (s : State) (n : Nat) (f : Loom → Loom) : (s.modLoom n f).uid = s.uid := rfl

/-! ### State.setByte -/
@[simp] theorem State.setByte_time (s : State) (pa : Nat) (b : Byte) : (s.setByte pa b).time = s.time := rfl
@[simp] theorem State.setByte_mem (s : State) (pa : Nat) (b : Byte) : (s.setByte pa b).mem = Sparse.set memDefault s.mem pa b := rfl
@[simp] theorem State.setByte_full (s : State) (pa : Nat) (b : Byte) : (s.setByte pa b).full = s.full := rfl
@[simp] theorem State.setByte_watched (s : State) (pa : Nat) (b : Byte) : (s.setByte pa b).watched = s.watched := rfl
@[simp] theorem State.setByte_poison (s : State) (pa : Nat) (b : Byte) : (s.setByte pa b).poison = s.poison := rfl
@[simp] theorem State.setByte_reqs (s : State) (pa : Nat) (b : Byte) : (s.setByte pa b).reqs = s.reqs := rfl
@[simp] theorem State.setByte_copies (s : State) (pa : Nat) (b : Byte) : (s.setByte pa b).copies = s.copies := rfl
@[simp] theorem State.setByte_leases (s : State) (pa : Nat) (b : Byte) : (s.setByte pa b).leases = s.leases := rfl
@[simp] theorem State.setByte_groups (s : State) (pa : Nat) (b : Byte) : (s.setByte pa b).groups = s.groups := rfl
@[simp] theorem State.setByte_teams (s : State) (pa : Nat) (b : Byte) : (s.setByte pa b).teams = s.teams := rfl
@[simp] theorem State.setByte_launches (s : State) (pa : Nat) (b : Byte) : (s.setByte pa b).launches = s.launches := rfl
@[simp] theorem State.setByte_cmds (s : State) (pa : Nat) (b : Byte) : (s.setByte pa b).cmds = s.cmds := rfl
@[simp] theorem State.setByte_looms (s : State) (pa : Nat) (b : Byte) : (s.setByte pa b).looms = s.looms := rfl
@[simp] theorem State.setByte_cores (s : State) (pa : Nat) (b : Byte) : (s.setByte pa b).cores = s.cores := rfl
@[simp] theorem State.setByte_clusters (s : State) (pa : Nat) (b : Byte) : (s.setByte pa b).clusters = s.clusters := rfl
@[simp] theorem State.setByte_dies (s : State) (pa : Nat) (b : Byte) : (s.setByte pa b).dies = s.dies := rfl
@[simp] theorem State.setByte_queues (s : State) (pa : Nat) (b : Byte) : (s.setByte pa b).queues = s.queues := rfl
@[simp] theorem State.setByte_lastQueue (s : State) (pa : Nat) (b : Byte) : (s.setByte pa b).lastQueue = s.lastQueue := rfl
@[simp] theorem State.setByte_nextLaunch (s : State) (pa : Nat) (b : Byte) : (s.setByte pa b).nextLaunch = s.nextLaunch := rfl
@[simp] theorem State.setByte_assay (s : State) (pa : Nat) (b : Byte) : (s.setByte pa b).assay = s.assay := rfl
@[simp] theorem State.setByte_assayclr (s : State) (pa : Nat) (b : Byte) : (s.setByte pa b).assayclr = s.assayclr := rfl
@[simp] theorem State.setByte_killLaunch (s : State) (pa : Nat) (b : Byte) : (s.setByte pa b).killLaunch = s.killLaunch := rfl
@[simp] theorem State.setByte_killBusy (s : State) (pa : Nat) (b : Byte) : (s.setByte pa b).killBusy = s.killBusy := rfl
@[simp] theorem State.setByte_killDone (s : State) (pa : Nat) (b : Byte) : (s.setByte pa b).killDone = s.killDone := rfl
@[simp] theorem State.setByte_killBad (s : State) (pa : Nat) (b : Byte) : (s.setByte pa b).killBad = s.killBad := rfl
@[simp] theorem State.setByte_mode (s : State) (pa : Nat) (b : Byte) : (s.setByte pa b).mode = s.mode := rfl
@[simp] theorem State.setByte_weftSelf (s : State) (pa : Nat) (b : Byte) : (s.setByte pa b).weftSelf = s.weftSelf := rfl
@[simp] theorem State.setByte_weftSize (s : State) (pa : Nat) (b : Byte) : (s.setByte pa b).weftSize = s.weftSize := rfl
@[simp] theorem State.setByte_silent (s : State) (pa : Nat) (b : Byte) : (s.setByte pa b).silent = s.silent := rfl
@[simp] theorem State.setByte_carters (s : State) (pa : Nat) (b : Byte) : (s.setByte pa b).carters = s.carters := rfl
@[simp] theorem State.setByte_lineTags (s : State) (pa : Nat) (b : Byte) : (s.setByte pa b).lineTags = s.lineTags := rfl
@[simp] theorem State.setByte_engine (s : State) (pa : Nat) (b : Byte) : (s.setByte pa b).engine = s.engine := rfl
@[simp] theorem State.setByte_boot (s : State) (pa : Nat) (b : Byte) : (s.setByte pa b).boot = s.boot := rfl
@[simp] theorem State.setByte_host (s : State) (pa : Nat) (b : Byte) : (s.setByte pa b).host = s.host := rfl
@[simp] theorem State.setByte_agenda (s : State) (pa : Nat) (b : Byte) : (s.setByte pa b).agenda = s.agenda := rfl
@[simp] theorem State.setByte_turn (s : State) (pa : Nat) (b : Byte) : (s.setByte pa b).turn = s.turn := rfl
@[simp] theorem State.setByte_free (s : State) (pa : Nat) (b : Byte) : (s.setByte pa b).free = s.free := rfl
@[simp] theorem State.setByte_uid (s : State) (pa : Nat) (b : Byte) : (s.setByte pa b).uid = s.uid := rfl

/-! ### State.setFull -/
@[simp] theorem State.setFull_time (s : State) (pa : Nat) (b : Bool) : (s.setFull pa b).time = s.time := rfl
@[simp] theorem State.setFull_mem (s : State) (pa : Nat) (b : Bool) : (s.setFull pa b).mem = s.mem := rfl
@[simp] theorem State.setFull_full (s : State) (pa : Nat) (b : Bool) : (s.setFull pa b).full = if b then NatSet.ins s.full (pa / 8) else NatSet.del s.full (pa / 8) := rfl
@[simp] theorem State.setFull_watched (s : State) (pa : Nat) (b : Bool) : (s.setFull pa b).watched = s.watched := rfl
@[simp] theorem State.setFull_poison (s : State) (pa : Nat) (b : Bool) : (s.setFull pa b).poison = s.poison := rfl
@[simp] theorem State.setFull_reqs (s : State) (pa : Nat) (b : Bool) : (s.setFull pa b).reqs = s.reqs := rfl
@[simp] theorem State.setFull_copies (s : State) (pa : Nat) (b : Bool) : (s.setFull pa b).copies = s.copies := rfl
@[simp] theorem State.setFull_leases (s : State) (pa : Nat) (b : Bool) : (s.setFull pa b).leases = s.leases := rfl
@[simp] theorem State.setFull_groups (s : State) (pa : Nat) (b : Bool) : (s.setFull pa b).groups = s.groups := rfl
@[simp] theorem State.setFull_teams (s : State) (pa : Nat) (b : Bool) : (s.setFull pa b).teams = s.teams := rfl
@[simp] theorem State.setFull_launches (s : State) (pa : Nat) (b : Bool) : (s.setFull pa b).launches = s.launches := rfl
@[simp] theorem State.setFull_cmds (s : State) (pa : Nat) (b : Bool) : (s.setFull pa b).cmds = s.cmds := rfl
@[simp] theorem State.setFull_looms (s : State) (pa : Nat) (b : Bool) : (s.setFull pa b).looms = s.looms := rfl
@[simp] theorem State.setFull_cores (s : State) (pa : Nat) (b : Bool) : (s.setFull pa b).cores = s.cores := rfl
@[simp] theorem State.setFull_clusters (s : State) (pa : Nat) (b : Bool) : (s.setFull pa b).clusters = s.clusters := rfl
@[simp] theorem State.setFull_dies (s : State) (pa : Nat) (b : Bool) : (s.setFull pa b).dies = s.dies := rfl
@[simp] theorem State.setFull_queues (s : State) (pa : Nat) (b : Bool) : (s.setFull pa b).queues = s.queues := rfl
@[simp] theorem State.setFull_lastQueue (s : State) (pa : Nat) (b : Bool) : (s.setFull pa b).lastQueue = s.lastQueue := rfl
@[simp] theorem State.setFull_nextLaunch (s : State) (pa : Nat) (b : Bool) : (s.setFull pa b).nextLaunch = s.nextLaunch := rfl
@[simp] theorem State.setFull_assay (s : State) (pa : Nat) (b : Bool) : (s.setFull pa b).assay = s.assay := rfl
@[simp] theorem State.setFull_assayclr (s : State) (pa : Nat) (b : Bool) : (s.setFull pa b).assayclr = s.assayclr := rfl
@[simp] theorem State.setFull_killLaunch (s : State) (pa : Nat) (b : Bool) : (s.setFull pa b).killLaunch = s.killLaunch := rfl
@[simp] theorem State.setFull_killBusy (s : State) (pa : Nat) (b : Bool) : (s.setFull pa b).killBusy = s.killBusy := rfl
@[simp] theorem State.setFull_killDone (s : State) (pa : Nat) (b : Bool) : (s.setFull pa b).killDone = s.killDone := rfl
@[simp] theorem State.setFull_killBad (s : State) (pa : Nat) (b : Bool) : (s.setFull pa b).killBad = s.killBad := rfl
@[simp] theorem State.setFull_mode (s : State) (pa : Nat) (b : Bool) : (s.setFull pa b).mode = s.mode := rfl
@[simp] theorem State.setFull_weftSelf (s : State) (pa : Nat) (b : Bool) : (s.setFull pa b).weftSelf = s.weftSelf := rfl
@[simp] theorem State.setFull_weftSize (s : State) (pa : Nat) (b : Bool) : (s.setFull pa b).weftSize = s.weftSize := rfl
@[simp] theorem State.setFull_silent (s : State) (pa : Nat) (b : Bool) : (s.setFull pa b).silent = s.silent := rfl
@[simp] theorem State.setFull_carters (s : State) (pa : Nat) (b : Bool) : (s.setFull pa b).carters = s.carters := rfl
@[simp] theorem State.setFull_lineTags (s : State) (pa : Nat) (b : Bool) : (s.setFull pa b).lineTags = s.lineTags := rfl
@[simp] theorem State.setFull_engine (s : State) (pa : Nat) (b : Bool) : (s.setFull pa b).engine = s.engine := rfl
@[simp] theorem State.setFull_boot (s : State) (pa : Nat) (b : Bool) : (s.setFull pa b).boot = s.boot := rfl
@[simp] theorem State.setFull_host (s : State) (pa : Nat) (b : Bool) : (s.setFull pa b).host = s.host := rfl
@[simp] theorem State.setFull_agenda (s : State) (pa : Nat) (b : Bool) : (s.setFull pa b).agenda = s.agenda := rfl
@[simp] theorem State.setFull_turn (s : State) (pa : Nat) (b : Bool) : (s.setFull pa b).turn = s.turn := rfl
@[simp] theorem State.setFull_free (s : State) (pa : Nat) (b : Bool) : (s.setFull pa b).free = s.free := rfl
@[simp] theorem State.setFull_uid (s : State) (pa : Nat) (b : Bool) : (s.setFull pa b).uid = s.uid := rfl

/-! ### State.message -/
@[simp] theorem State.message_time (s : State) (v a : Nat) : (s.message v a).time = s.time := rfl
@[simp] theorem State.message_mem (s : State) (v a : Nat) : (s.message v a).mem = s.mem := rfl
@[simp] theorem State.message_full (s : State) (v a : Nat) : (s.message v a).full = s.full := rfl
@[simp] theorem State.message_watched (s : State) (v a : Nat) : (s.message v a).watched = s.watched := rfl
@[simp] theorem State.message_poison (s : State) (v a : Nat) : (s.message v a).poison = s.poison := rfl
@[simp] theorem State.message_reqs (s : State) (v a : Nat) : (s.message v a).reqs = s.reqs := rfl
@[simp] theorem State.message_copies (s : State) (v a : Nat) : (s.message v a).copies = s.copies := rfl
@[simp] theorem State.message_leases (s : State) (v a : Nat) : (s.message v a).leases = s.leases := rfl
@[simp] theorem State.message_groups (s : State) (v a : Nat) : (s.message v a).groups = s.groups := rfl
@[simp] theorem State.message_teams (s : State) (v a : Nat) : (s.message v a).teams = s.teams := rfl
@[simp] theorem State.message_launches (s : State) (v a : Nat) : (s.message v a).launches = s.launches := rfl
@[simp] theorem State.message_cmds (s : State) (v a : Nat) : (s.message v a).cmds = s.cmds := rfl
@[simp] theorem State.message_looms (s : State) (v a : Nat) : (s.message v a).looms = s.looms := rfl
@[simp] theorem State.message_cores (s : State) (v a : Nat) : (s.message v a).cores = s.cores := rfl
@[simp] theorem State.message_clusters (s : State) (v a : Nat) : (s.message v a).clusters = s.clusters := rfl
@[simp] theorem State.message_dies (s : State) (v a : Nat) : (s.message v a).dies = s.dies := rfl
@[simp] theorem State.message_queues (s : State) (v a : Nat) : (s.message v a).queues = s.queues := rfl
@[simp] theorem State.message_lastQueue (s : State) (v a : Nat) : (s.message v a).lastQueue = s.lastQueue := rfl
@[simp] theorem State.message_nextLaunch (s : State) (v a : Nat) : (s.message v a).nextLaunch = s.nextLaunch := rfl
@[simp] theorem State.message_assay (s : State) (v a : Nat) : (s.message v a).assay = s.assay := rfl
@[simp] theorem State.message_assayclr (s : State) (v a : Nat) : (s.message v a).assayclr = s.assayclr := rfl
@[simp] theorem State.message_killLaunch (s : State) (v a : Nat) : (s.message v a).killLaunch = s.killLaunch := rfl
@[simp] theorem State.message_killBusy (s : State) (v a : Nat) : (s.message v a).killBusy = s.killBusy := rfl
@[simp] theorem State.message_killDone (s : State) (v a : Nat) : (s.message v a).killDone = s.killDone := rfl
@[simp] theorem State.message_killBad (s : State) (v a : Nat) : (s.message v a).killBad = s.killBad := rfl
@[simp] theorem State.message_mode (s : State) (v a : Nat) : (s.message v a).mode = s.mode := rfl
@[simp] theorem State.message_weftSelf (s : State) (v a : Nat) : (s.message v a).weftSelf = s.weftSelf := rfl
@[simp] theorem State.message_weftSize (s : State) (v a : Nat) : (s.message v a).weftSize = s.weftSize := rfl
@[simp] theorem State.message_silent (s : State) (v a : Nat) : (s.message v a).silent = s.silent := rfl
@[simp] theorem State.message_carters (s : State) (v a : Nat) : (s.message v a).carters = s.carters := rfl
@[simp] theorem State.message_lineTags (s : State) (v a : Nat) : (s.message v a).lineTags = s.lineTags := rfl
@[simp] theorem State.message_engine (s : State) (v a : Nat) : (s.message v a).engine = s.engine := rfl
@[simp] theorem State.message_boot (s : State) (v a : Nat) : (s.message v a).boot = s.boot := rfl
@[simp] theorem State.message_host (s : State) (v a : Nat) : (s.message v a).host = { s.host with messages := (v, a) :: s.host.messages } := rfl
@[simp] theorem State.message_agenda (s : State) (v a : Nat) : (s.message v a).agenda = s.agenda := rfl
@[simp] theorem State.message_turn (s : State) (v a : Nat) : (s.message v a).turn = s.turn := rfl
@[simp] theorem State.message_free (s : State) (v a : Nat) : (s.message v a).free = s.free := rfl
@[simp] theorem State.message_uid (s : State) (v a : Nat) : (s.message v a).uid = s.uid := rfl

/-! ### State.addReq -/
@[simp] theorem State.addReq_time (s : State) (r : Req) : (s.addReq r).time = s.time := rfl
@[simp] theorem State.addReq_mem (s : State) (r : Req) : (s.addReq r).mem = s.mem := rfl
@[simp] theorem State.addReq_full (s : State) (r : Req) : (s.addReq r).full = s.full := rfl
@[simp] theorem State.addReq_watched (s : State) (r : Req) : (s.addReq r).watched = s.watched := rfl
@[simp] theorem State.addReq_poison (s : State) (r : Req) : (s.addReq r).poison = s.poison := rfl
@[simp] theorem State.addReq_reqs (s : State) (r : Req) : (s.addReq r).reqs = Tab.put s.reqs s.uid r := rfl
@[simp] theorem State.addReq_copies (s : State) (r : Req) : (s.addReq r).copies = s.copies := rfl
@[simp] theorem State.addReq_leases (s : State) (r : Req) : (s.addReq r).leases = s.leases := rfl
@[simp] theorem State.addReq_groups (s : State) (r : Req) : (s.addReq r).groups = s.groups := rfl
@[simp] theorem State.addReq_teams (s : State) (r : Req) : (s.addReq r).teams = s.teams := rfl
@[simp] theorem State.addReq_launches (s : State) (r : Req) : (s.addReq r).launches = s.launches := rfl
@[simp] theorem State.addReq_cmds (s : State) (r : Req) : (s.addReq r).cmds = s.cmds := rfl
@[simp] theorem State.addReq_looms (s : State) (r : Req) : (s.addReq r).looms = s.looms := rfl
@[simp] theorem State.addReq_cores (s : State) (r : Req) : (s.addReq r).cores = s.cores := rfl
@[simp] theorem State.addReq_clusters (s : State) (r : Req) : (s.addReq r).clusters = s.clusters := rfl
@[simp] theorem State.addReq_dies (s : State) (r : Req) : (s.addReq r).dies = s.dies := rfl
@[simp] theorem State.addReq_queues (s : State) (r : Req) : (s.addReq r).queues = s.queues := rfl
@[simp] theorem State.addReq_lastQueue (s : State) (r : Req) : (s.addReq r).lastQueue = s.lastQueue := rfl
@[simp] theorem State.addReq_nextLaunch (s : State) (r : Req) : (s.addReq r).nextLaunch = s.nextLaunch := rfl
@[simp] theorem State.addReq_assay (s : State) (r : Req) : (s.addReq r).assay = s.assay := rfl
@[simp] theorem State.addReq_assayclr (s : State) (r : Req) : (s.addReq r).assayclr = s.assayclr := rfl
@[simp] theorem State.addReq_killLaunch (s : State) (r : Req) : (s.addReq r).killLaunch = s.killLaunch := rfl
@[simp] theorem State.addReq_killBusy (s : State) (r : Req) : (s.addReq r).killBusy = s.killBusy := rfl
@[simp] theorem State.addReq_killDone (s : State) (r : Req) : (s.addReq r).killDone = s.killDone := rfl
@[simp] theorem State.addReq_killBad (s : State) (r : Req) : (s.addReq r).killBad = s.killBad := rfl
@[simp] theorem State.addReq_mode (s : State) (r : Req) : (s.addReq r).mode = s.mode := rfl
@[simp] theorem State.addReq_weftSelf (s : State) (r : Req) : (s.addReq r).weftSelf = s.weftSelf := rfl
@[simp] theorem State.addReq_weftSize (s : State) (r : Req) : (s.addReq r).weftSize = s.weftSize := rfl
@[simp] theorem State.addReq_silent (s : State) (r : Req) : (s.addReq r).silent = s.silent := rfl
@[simp] theorem State.addReq_carters (s : State) (r : Req) : (s.addReq r).carters = s.carters := rfl
@[simp] theorem State.addReq_lineTags (s : State) (r : Req) : (s.addReq r).lineTags = s.lineTags := rfl
@[simp] theorem State.addReq_engine (s : State) (r : Req) : (s.addReq r).engine = s.engine := rfl
@[simp] theorem State.addReq_boot (s : State) (r : Req) : (s.addReq r).boot = s.boot := rfl
@[simp] theorem State.addReq_host (s : State) (r : Req) : (s.addReq r).host = s.host := rfl
@[simp] theorem State.addReq_agenda (s : State) (r : Req) : (s.addReq r).agenda = s.agenda := rfl
@[simp] theorem State.addReq_turn (s : State) (r : Req) : (s.addReq r).turn = s.turn := rfl
@[simp] theorem State.addReq_free (s : State) (r : Req) : (s.addReq r).free = s.free := rfl
@[simp] theorem State.addReq_uid (s : State) (r : Req) : (s.addReq r).uid = s.uid + 1 := rfl

/-! ### Groups -/
@[simp] theorem Group.setG_launch (g : Group) (n : Nat) (x : Word) : (g.setG n x).launch = g.launch := rfl
@[simp] theorem Group.setG_team (g : Group) (n : Nat) (x : Word) : (g.setG n x).team = g.team := rfl
@[simp] theorem Group.setG_gid (g : Group) (n : Nat) (x : Word) : (g.setG n x).gid = g.gid := rfl
@[simp] theorem Group.setG_width (g : Group) (n : Nat) (x : Word) : (g.setG n x).width = g.width := rfl
@[simp] theorem Group.setG_vregs (g : Group) (n : Nat) (x : Word) : (g.setG n x).vregs = g.vregs := rfl
@[simp] theorem Group.setG_gregs (g : Group) (n : Nat) (x : Word) : (g.setG n x).gregs = g.gregs := rfl
@[simp] theorem Group.setG_place (g : Group) (n : Nat) (x : Word) : (g.setG n x).place = g.place := rfl
@[simp] theorem Group.setG_seat (g : Group) (n : Nat) (x : Word) : (g.setG n x).seat = g.seat := rfl
@[simp] theorem Group.setG_vrow (g : Group) (n : Nat) (x : Word) : (g.setG n x).vrow = g.vrow := rfl
@[simp] theorem Group.setG_vcol (g : Group) (n : Nat) (x : Word) : (g.setG n x).vcol = g.vcol := rfl
@[simp] theorem Group.setG_grow (g : Group) (n : Nat) (x : Word) : (g.setG n x).grow = g.grow := rfl
@[simp] theorem Group.setG_threads (g : Group) (n : Nat) (x : Word) : (g.setG n x).threads = g.threads := rfl
@[simp] theorem Group.setG_g (g : Group) (n : Nat) (x : Word) : (g.setG n x).g = Sparse.set 0#32 g.g n x := rfl
@[simp] theorem Group.setG_rot (g : Group) (n : Nat) (x : Word) : (g.setG n x).rot = g.rot := rfl
@[simp] theorem Group.setG_cur (g : Group) (n : Nat) (x : Word) : (g.setG n x).cur = g.cur := rfl
@[simp] theorem Group.setG_cycle (g : Group) (n : Nat) (x : Word) : (g.setG n x).cycle = g.cycle := rfl
@[simp] theorem Group.setG_dues (g : Group) (n : Nat) (x : Word) : (g.setG n x).dues = g.dues := rfl
@[simp] theorem Group.setG_trapvec (g : Group) (n : Nat) (x : Word) : (g.setG n x).trapvec = g.trapvec := rfl
@[simp] theorem Group.setG_trapcause (g : Group) (n : Nat) (x : Word) : (g.setG n x).trapcause = g.trapcause := rfl
@[simp] theorem Group.setG_handler (g : Group) (n : Nat) (x : Word) : (g.setG n x).handler = g.handler := rfl
@[simp] theorem Group.setG_entered (g : Group) (n : Nat) (x : Word) : (g.setG n x).entered = g.entered := rfl
@[simp] theorem Group.setG_traplanes (g : Group) (n : Nat) (x : Word) : (g.setG n x).traplanes = g.traplanes := rfl
@[simp] theorem Group.setG_trappc (g : Group) (n : Nat) (x : Word) : (g.setG n x).trappc = g.trappc := rfl
@[simp] theorem Group.setG_trapword (g : Group) (n : Nat) (x : Word) : (g.setG n x).trapword = g.trapword := rfl
@[simp] theorem Group.setG_trapf (g : Group) (n : Nat) (x : Word) : (g.setG n x).trapf = g.trapf := rfl
@[simp] theorem Group.setG_trapaddr (g : Group) (n : Nat) (x : Word) : (g.setG n x).trapaddr = g.trapaddr := rfl
@[simp] theorem Group.setG_hset (g : Group) (n : Nat) (x : Word) : (g.setG n x).hset = g.hset := rfl
@[simp] theorem Group.setG_stallchk (g : Group) (n : Nat) (x : Word) : (g.setG n x).stallchk = g.stallchk := rfl
@[simp] theorem Group.setG_keyperm (g : Group) (n : Nat) (x : Word) : (g.setG n x).keyperm = g.keyperm := rfl
@[simp] theorem Group.setG_srkey (g : Group) (n : Nat) (x : Word) : (g.setG n x).srkey = g.srkey := rfl
@[simp] theorem Group.setG_frozen (g : Group) (n : Nat) (x : Word) : (g.setG n x).frozen = g.frozen := rfl
@[simp] theorem Group.setG_halted (g : Group) (n : Nat) (x : Word) : (g.setG n x).halted = g.halted := rfl
@[simp] theorem Group.setG_resumed (g : Group) (n : Nat) (x : Word) : (g.setG n x).resumed = g.resumed := rfl
@[simp] theorem Group.setG_teamhalt (g : Group) (n : Nat) (x : Word) : (g.setG n x).teamhalt = g.teamhalt := rfl
@[simp] theorem Group.setG_preempt (g : Group) (n : Nat) (x : Word) : (g.setG n x).preempt = g.preempt := rfl
@[simp] theorem Group.setG_blocks (g : Group) (n : Nat) (x : Word) : (g.setG n x).blocks = g.blocks := rfl
@[simp] theorem Group.setG_append (g : Group) (n : Nat) (x : Word) : (g.setG n x).append = g.append := rfl
@[simp] theorem Group.setG_residentSince (g : Group) (n : Nat) (x : Word) : (g.setG n x).residentSince = g.residentSince := rfl
@[simp] theorem Group.setG_readySince (g : Group) (n : Nat) (x : Word) : (g.setG n x).readySince = g.readySince := rfl
@[simp] theorem Group.setG_starved (g : Group) (n : Nat) (x : Word) : (g.setG n x).starved = g.starved := rfl
@[simp] theorem Group.setG_badRegs (g : Group) (n : Nat) (x : Word) : (g.setG n x).badRegs = g.badRegs := rfl
@[simp] theorem Group.setG_readyClocks (g : Group) (n : Nat) (x : Word) : (g.setG n x).readyClocks = g.readyClocks := rfl
@[simp] theorem Group.modThread_launch (g : Group) (l : Nat) (f : Thread → Thread) : (g.modThread l f).launch = g.launch := rfl
@[simp] theorem Group.modThread_team (g : Group) (l : Nat) (f : Thread → Thread) : (g.modThread l f).team = g.team := rfl
@[simp] theorem Group.modThread_gid (g : Group) (l : Nat) (f : Thread → Thread) : (g.modThread l f).gid = g.gid := rfl
@[simp] theorem Group.modThread_width (g : Group) (l : Nat) (f : Thread → Thread) : (g.modThread l f).width = g.width := rfl
@[simp] theorem Group.modThread_vregs (g : Group) (l : Nat) (f : Thread → Thread) : (g.modThread l f).vregs = g.vregs := rfl
@[simp] theorem Group.modThread_gregs (g : Group) (l : Nat) (f : Thread → Thread) : (g.modThread l f).gregs = g.gregs := rfl
@[simp] theorem Group.modThread_place (g : Group) (l : Nat) (f : Thread → Thread) : (g.modThread l f).place = g.place := rfl
@[simp] theorem Group.modThread_seat (g : Group) (l : Nat) (f : Thread → Thread) : (g.modThread l f).seat = g.seat := rfl
@[simp] theorem Group.modThread_vrow (g : Group) (l : Nat) (f : Thread → Thread) : (g.modThread l f).vrow = g.vrow := rfl
@[simp] theorem Group.modThread_vcol (g : Group) (l : Nat) (f : Thread → Thread) : (g.modThread l f).vcol = g.vcol := rfl
@[simp] theorem Group.modThread_grow (g : Group) (l : Nat) (f : Thread → Thread) : (g.modThread l f).grow = g.grow := rfl
@[simp] theorem Group.modThread_threads (g : Group) (l : Nat) (f : Thread → Thread) : (g.modThread l f).threads = listModify g.threads l f := rfl
@[simp] theorem Group.modThread_g (g : Group) (l : Nat) (f : Thread → Thread) : (g.modThread l f).g = g.g := rfl
@[simp] theorem Group.modThread_rot (g : Group) (l : Nat) (f : Thread → Thread) : (g.modThread l f).rot = g.rot := rfl
@[simp] theorem Group.modThread_cur (g : Group) (l : Nat) (f : Thread → Thread) : (g.modThread l f).cur = g.cur := rfl
@[simp] theorem Group.modThread_cycle (g : Group) (l : Nat) (f : Thread → Thread) : (g.modThread l f).cycle = g.cycle := rfl
@[simp] theorem Group.modThread_dues (g : Group) (l : Nat) (f : Thread → Thread) : (g.modThread l f).dues = g.dues := rfl
@[simp] theorem Group.modThread_trapvec (g : Group) (l : Nat) (f : Thread → Thread) : (g.modThread l f).trapvec = g.trapvec := rfl
@[simp] theorem Group.modThread_trapcause (g : Group) (l : Nat) (f : Thread → Thread) : (g.modThread l f).trapcause = g.trapcause := rfl
@[simp] theorem Group.modThread_handler (g : Group) (l : Nat) (f : Thread → Thread) : (g.modThread l f).handler = g.handler := rfl
@[simp] theorem Group.modThread_entered (g : Group) (l : Nat) (f : Thread → Thread) : (g.modThread l f).entered = g.entered := rfl
@[simp] theorem Group.modThread_traplanes (g : Group) (l : Nat) (f : Thread → Thread) : (g.modThread l f).traplanes = g.traplanes := rfl
@[simp] theorem Group.modThread_trappc (g : Group) (l : Nat) (f : Thread → Thread) : (g.modThread l f).trappc = g.trappc := rfl
@[simp] theorem Group.modThread_trapword (g : Group) (l : Nat) (f : Thread → Thread) : (g.modThread l f).trapword = g.trapword := rfl
@[simp] theorem Group.modThread_trapf (g : Group) (l : Nat) (f : Thread → Thread) : (g.modThread l f).trapf = g.trapf := rfl
@[simp] theorem Group.modThread_trapaddr (g : Group) (l : Nat) (f : Thread → Thread) : (g.modThread l f).trapaddr = g.trapaddr := rfl
@[simp] theorem Group.modThread_hset (g : Group) (l : Nat) (f : Thread → Thread) : (g.modThread l f).hset = g.hset := rfl
@[simp] theorem Group.modThread_stallchk (g : Group) (l : Nat) (f : Thread → Thread) : (g.modThread l f).stallchk = g.stallchk := rfl
@[simp] theorem Group.modThread_keyperm (g : Group) (l : Nat) (f : Thread → Thread) : (g.modThread l f).keyperm = g.keyperm := rfl
@[simp] theorem Group.modThread_srkey (g : Group) (l : Nat) (f : Thread → Thread) : (g.modThread l f).srkey = g.srkey := rfl
@[simp] theorem Group.modThread_frozen (g : Group) (l : Nat) (f : Thread → Thread) : (g.modThread l f).frozen = g.frozen := rfl
@[simp] theorem Group.modThread_halted (g : Group) (l : Nat) (f : Thread → Thread) : (g.modThread l f).halted = g.halted := rfl
@[simp] theorem Group.modThread_resumed (g : Group) (l : Nat) (f : Thread → Thread) : (g.modThread l f).resumed = g.resumed := rfl
@[simp] theorem Group.modThread_teamhalt (g : Group) (l : Nat) (f : Thread → Thread) : (g.modThread l f).teamhalt = g.teamhalt := rfl
@[simp] theorem Group.modThread_preempt (g : Group) (l : Nat) (f : Thread → Thread) : (g.modThread l f).preempt = g.preempt := rfl
@[simp] theorem Group.modThread_blocks (g : Group) (l : Nat) (f : Thread → Thread) : (g.modThread l f).blocks = g.blocks := rfl
@[simp] theorem Group.modThread_append (g : Group) (l : Nat) (f : Thread → Thread) : (g.modThread l f).append = g.append := rfl
@[simp] theorem Group.modThread_residentSince (g : Group) (l : Nat) (f : Thread → Thread) : (g.modThread l f).residentSince = g.residentSince := rfl
@[simp] theorem Group.modThread_readySince (g : Group) (l : Nat) (f : Thread → Thread) : (g.modThread l f).readySince = g.readySince := rfl
@[simp] theorem Group.modThread_starved (g : Group) (l : Nat) (f : Thread → Thread) : (g.modThread l f).starved = g.starved := rfl
@[simp] theorem Group.modThread_badRegs (g : Group) (l : Nat) (f : Thread → Thread) : (g.modThread l f).badRegs = g.badRegs := rfl
@[simp] theorem Group.modThread_readyClocks (g : Group) (l : Nat) (f : Thread → Thread) : (g.modThread l f).readyClocks = g.readyClocks := rfl
@[simp] theorem Group.modLanes_launch (g : Group) (m : LaneSet) (f : Nat → Thread → Thread) : (g.modLanes m f).launch = g.launch := rfl
@[simp] theorem Group.modLanes_team (g : Group) (m : LaneSet) (f : Nat → Thread → Thread) : (g.modLanes m f).team = g.team := rfl
@[simp] theorem Group.modLanes_gid (g : Group) (m : LaneSet) (f : Nat → Thread → Thread) : (g.modLanes m f).gid = g.gid := rfl
@[simp] theorem Group.modLanes_width (g : Group) (m : LaneSet) (f : Nat → Thread → Thread) : (g.modLanes m f).width = g.width := rfl
@[simp] theorem Group.modLanes_vregs (g : Group) (m : LaneSet) (f : Nat → Thread → Thread) : (g.modLanes m f).vregs = g.vregs := rfl
@[simp] theorem Group.modLanes_gregs (g : Group) (m : LaneSet) (f : Nat → Thread → Thread) : (g.modLanes m f).gregs = g.gregs := rfl
@[simp] theorem Group.modLanes_place (g : Group) (m : LaneSet) (f : Nat → Thread → Thread) : (g.modLanes m f).place = g.place := rfl
@[simp] theorem Group.modLanes_seat (g : Group) (m : LaneSet) (f : Nat → Thread → Thread) : (g.modLanes m f).seat = g.seat := rfl
@[simp] theorem Group.modLanes_vrow (g : Group) (m : LaneSet) (f : Nat → Thread → Thread) : (g.modLanes m f).vrow = g.vrow := rfl
@[simp] theorem Group.modLanes_vcol (g : Group) (m : LaneSet) (f : Nat → Thread → Thread) : (g.modLanes m f).vcol = g.vcol := rfl
@[simp] theorem Group.modLanes_grow (g : Group) (m : LaneSet) (f : Nat → Thread → Thread) : (g.modLanes m f).grow = g.grow := rfl
@[simp] theorem Group.modLanes_threads (g : Group) (m : LaneSet) (f : Nat → Thread → Thread) : (g.modLanes m f).threads = listMapIdx (fun l t => if m.has l then f l t else t) 0 g.threads := rfl
@[simp] theorem Group.modLanes_g (g : Group) (m : LaneSet) (f : Nat → Thread → Thread) : (g.modLanes m f).g = g.g := rfl
@[simp] theorem Group.modLanes_rot (g : Group) (m : LaneSet) (f : Nat → Thread → Thread) : (g.modLanes m f).rot = g.rot := rfl
@[simp] theorem Group.modLanes_cur (g : Group) (m : LaneSet) (f : Nat → Thread → Thread) : (g.modLanes m f).cur = g.cur := rfl
@[simp] theorem Group.modLanes_cycle (g : Group) (m : LaneSet) (f : Nat → Thread → Thread) : (g.modLanes m f).cycle = g.cycle := rfl
@[simp] theorem Group.modLanes_dues (g : Group) (m : LaneSet) (f : Nat → Thread → Thread) : (g.modLanes m f).dues = g.dues := rfl
@[simp] theorem Group.modLanes_trapvec (g : Group) (m : LaneSet) (f : Nat → Thread → Thread) : (g.modLanes m f).trapvec = g.trapvec := rfl
@[simp] theorem Group.modLanes_trapcause (g : Group) (m : LaneSet) (f : Nat → Thread → Thread) : (g.modLanes m f).trapcause = g.trapcause := rfl
@[simp] theorem Group.modLanes_handler (g : Group) (m : LaneSet) (f : Nat → Thread → Thread) : (g.modLanes m f).handler = g.handler := rfl
@[simp] theorem Group.modLanes_entered (g : Group) (m : LaneSet) (f : Nat → Thread → Thread) : (g.modLanes m f).entered = g.entered := rfl
@[simp] theorem Group.modLanes_traplanes (g : Group) (m : LaneSet) (f : Nat → Thread → Thread) : (g.modLanes m f).traplanes = g.traplanes := rfl
@[simp] theorem Group.modLanes_trappc (g : Group) (m : LaneSet) (f : Nat → Thread → Thread) : (g.modLanes m f).trappc = g.trappc := rfl
@[simp] theorem Group.modLanes_trapword (g : Group) (m : LaneSet) (f : Nat → Thread → Thread) : (g.modLanes m f).trapword = g.trapword := rfl
@[simp] theorem Group.modLanes_trapf (g : Group) (m : LaneSet) (f : Nat → Thread → Thread) : (g.modLanes m f).trapf = g.trapf := rfl
@[simp] theorem Group.modLanes_trapaddr (g : Group) (m : LaneSet) (f : Nat → Thread → Thread) : (g.modLanes m f).trapaddr = g.trapaddr := rfl
@[simp] theorem Group.modLanes_hset (g : Group) (m : LaneSet) (f : Nat → Thread → Thread) : (g.modLanes m f).hset = g.hset := rfl
@[simp] theorem Group.modLanes_stallchk (g : Group) (m : LaneSet) (f : Nat → Thread → Thread) : (g.modLanes m f).stallchk = g.stallchk := rfl
@[simp] theorem Group.modLanes_keyperm (g : Group) (m : LaneSet) (f : Nat → Thread → Thread) : (g.modLanes m f).keyperm = g.keyperm := rfl
@[simp] theorem Group.modLanes_srkey (g : Group) (m : LaneSet) (f : Nat → Thread → Thread) : (g.modLanes m f).srkey = g.srkey := rfl
@[simp] theorem Group.modLanes_frozen (g : Group) (m : LaneSet) (f : Nat → Thread → Thread) : (g.modLanes m f).frozen = g.frozen := rfl
@[simp] theorem Group.modLanes_halted (g : Group) (m : LaneSet) (f : Nat → Thread → Thread) : (g.modLanes m f).halted = g.halted := rfl
@[simp] theorem Group.modLanes_resumed (g : Group) (m : LaneSet) (f : Nat → Thread → Thread) : (g.modLanes m f).resumed = g.resumed := rfl
@[simp] theorem Group.modLanes_teamhalt (g : Group) (m : LaneSet) (f : Nat → Thread → Thread) : (g.modLanes m f).teamhalt = g.teamhalt := rfl
@[simp] theorem Group.modLanes_preempt (g : Group) (m : LaneSet) (f : Nat → Thread → Thread) : (g.modLanes m f).preempt = g.preempt := rfl
@[simp] theorem Group.modLanes_blocks (g : Group) (m : LaneSet) (f : Nat → Thread → Thread) : (g.modLanes m f).blocks = g.blocks := rfl
@[simp] theorem Group.modLanes_append (g : Group) (m : LaneSet) (f : Nat → Thread → Thread) : (g.modLanes m f).append = g.append := rfl
@[simp] theorem Group.modLanes_residentSince (g : Group) (m : LaneSet) (f : Nat → Thread → Thread) : (g.modLanes m f).residentSince = g.residentSince := rfl
@[simp] theorem Group.modLanes_readySince (g : Group) (m : LaneSet) (f : Nat → Thread → Thread) : (g.modLanes m f).readySince = g.readySince := rfl
@[simp] theorem Group.modLanes_starved (g : Group) (m : LaneSet) (f : Nat → Thread → Thread) : (g.modLanes m f).starved = g.starved := rfl
@[simp] theorem Group.modLanes_badRegs (g : Group) (m : LaneSet) (f : Nat → Thread → Thread) : (g.modLanes m f).badRegs = g.badRegs := rfl
@[simp] theorem Group.modLanes_readyClocks (g : Group) (m : LaneSet) (f : Nat → Thread → Thread) : (g.modLanes m f).readyClocks = g.readyClocks := rfl
@[simp] theorem Thread.setV_live (t : Thread) (n : Nat) (x : Word) : (t.setV n x).live = t.live := rfl
@[simp] theorem Thread.setV_pc (t : Thread) (n : Nat) (x : Word) : (t.setV n x).pc = t.pc := rfl
@[simp] theorem Thread.setV_meet (t : Thread) (n : Nat) (x : Word) : (t.setV n x).meet = t.meet := rfl
@[simp] theorem Thread.setV_md (t : Thread) (n : Nat) (x : Word) : (t.setV n x).md = t.md := rfl
@[simp] theorem Thread.setV_record (t : Thread) (n : Nat) (x : Word) : (t.setV n x).record = t.record := rfl
@[simp] theorem Thread.setV_stack (t : Thread) (n : Nat) (x : Word) : (t.setV n x).stack = t.stack := rfl
@[simp] theorem Thread.setV_spilled (t : Thread) (n : Nat) (x : Word) : (t.setV n x).spilled = t.spilled := rfl
@[simp] theorem Thread.setV_owes (t : Thread) (n : Nat) (x : Word) : (t.setV n x).owes = t.owes := rfl
@[simp] theorem Thread.setV_wait (t : Thread) (n : Nat) (x : Word) : (t.setV n x).wait = t.wait := rfl
@[simp] theorem Thread.setV_febudget (t : Thread) (n : Nat) (x : Word) : (t.setV n x).febudget = t.febudget := rfl
@[simp] theorem Thread.setV_v (t : Thread) (n : Nat) (x : Word) : (t.setV n x).v = Sparse.set 0#32 t.v n x := rfl
@[simp] theorem Thread.setV_early (t : Thread) (n : Nat) (x : Word) : (t.setV n x).early = t.early := rfl
@[simp] theorem Thread.setV_seen (t : Thread) (n : Nat) (x : Word) : (t.setV n x).seen = t.seen := rfl

end Sys2Proof.Machine
end

