-- ==== Sys2Proof/Laws/Table.lean ====
section
/-! SUPPORT. The laws of tables, sparse tables and sets: what a read gives after a write, and that every operation keeps the
canonical form. -/

namespace Sys2Proof.Machine

variable {α : Type}

/-! ### Tables -/

@[simp] theorem Tab.get?_nil (n : Nat) : Tab.get? ([] : Tab α) n = none := rfl

theorem Tab.get?_cons (k : Nat) (v : α) (t : Tab α) (n : Nat) : Tab.get? ((k, v) :: t) n = if k = n then some v else Tab.get? t n := rfl

@[simp] theorem Tab.get?_put_self (t : Tab α) (n : Nat) (x : α) : Tab.get? (Tab.put t n x) n = some x := by
  induction t with
  | nil => simp [Tab.put, Tab.get?]
  | cons e t ih =>
    obtain ⟨k, v⟩ := e
    simp only [Tab.put]
    split
    · simp [Tab.get?]
    · split
      · simp [Tab.get?]
      · rw [Tab.get?_cons, if_neg (by omega), ih]

theorem Tab.get?_put_ne (t : Tab α) {n m : Nat} (x : α) (h : m ≠ n) : Tab.get? (Tab.put t n x) m = Tab.get? t m := by
  induction t with
  | nil => simp [Tab.put, Tab.get?, Ne.symm h]
  | cons e t ih =>
    obtain ⟨k, v⟩ := e
    simp only [Tab.put]
    split
    · simp [Tab.get?, Ne.symm h]
    · split
      · subst_vars; simp [Tab.get?, Ne.symm h]
      · simp only [Tab.get?_cons, ih]

theorem Tab.get?_put (t : Tab α) (n m : Nat) (x : α) : Tab.get? (Tab.put t n x) m = if m = n then some x else Tab.get? t m := by
  by_cases h : m = n
  · subst h; simp
  · simp [h, Tab.get?_put_ne t x h]

@[simp] theorem Tab.get?_del_self (t : Tab α) (n : Nat) : Tab.get? (Tab.del t n) n = none := by
  induction t with
  | nil => rfl
  | cons e t ih =>
    obtain ⟨k, v⟩ := e
    simp only [Tab.del]
    split
    · exact ih
    · rw [Tab.get?_cons, if_neg (by assumption), ih]

theorem Tab.get?_del_ne (t : Tab α) {n m : Nat} (h : m ≠ n) : Tab.get? (Tab.del t n) m = Tab.get? t m := by
  induction t with
  | nil => rfl
  | cons e t ih =>
    obtain ⟨k, v⟩ := e
    simp only [Tab.del]
    split
    · subst_vars; rw [ih, Tab.get?_cons, if_neg (Ne.symm h)]
    · rw [Tab.get?_cons, Tab.get?_cons, ih]

@[simp] theorem Tab.get?_modify_self (t : Tab α) (n : Nat) (f : α → α) : Tab.get? (Tab.modify t n f) n = (Tab.get? t n).map f := by
  unfold Tab.modify
  cases h : Tab.get? t n <;> simp [h]

theorem Tab.get?_modify_ne (t : Tab α) {n m : Nat} (f : α → α) (h : m ≠ n) : Tab.get? (Tab.modify t n f) m = Tab.get? t m := by
  unfold Tab.modify
  cases Tab.get? t n with
  | none => rfl
  | some v => exact Tab.get?_put_ne t (f v) h

@[simp] theorem Tab.getD_put_self (t : Tab α) (n : Nat) (x d : α) : Tab.getD (Tab.put t n x) n d = x := by simp [Tab.getD]

theorem Tab.getD_put_ne (t : Tab α) {n m : Nat} (x d : α) (h : m ≠ n) : Tab.getD (Tab.put t n x) m d = Tab.getD t m d := by
  simp [Tab.getD, Tab.get?_put_ne t x h]

/-- Changing every value of a table changes what a lookup gives in the same way. -/
theorem Tab.get?_mapVal {β : Type} (t : Tab α) (f : Nat → α → β) (n : Nat) :
    Tab.get? (t.map (fun e => (e.1, f e.1 e.2))) n = (Tab.get? t n).map (f n) := by
  induction t with
  | nil => rfl
  | cons e t ih =>
    obtain ⟨k, v⟩ := e
    simp only [List.map_cons, Tab.get?_cons, ih]
    split <;> simp_all

/-! ### Rising keys -/

/-- Rising keys, as a chain. -/
theorem Tab.sorted_iff (t : Tab α) : Tab.sorted t = true ↔ t.Pairwise (fun a b => a.1 < b.1) := by
  induction t with
  | nil => simp [Tab.sorted]
  | cons a t ih =>
    cases t with
    | nil => simp [Tab.sorted]
    | cons b t =>
      obtain ⟨k, v⟩ := a; obtain ⟨k', v'⟩ := b
      simp only [Tab.sorted, Bool.and_eq_true, decide_eq_true_eq, ih, List.pairwise_cons, List.mem_cons]
      constructor
      · rintro ⟨h, h1, h2⟩
        refine ⟨?_, h1, h2⟩
        rintro e (rfl | he)
        · exact h
        · exact Nat.lt_trans h (h1 e he)
      · rintro ⟨h, h1, h2⟩
        exact ⟨h _ (Or.inl rfl), h1, h2⟩

theorem Tab.mem_put {t : Tab α} {n : Nat} {x : α} {e : Nat × α} (h : e ∈ Tab.put t n x) : e = (n, x) ∨ e ∈ t := by
  induction t with
  | nil => simpa [Tab.put] using h
  | cons a t ih =>
    obtain ⟨k, v⟩ := a
    simp only [Tab.put] at h
    split at h
    · simpa using h
    · split at h
      · rcases List.mem_cons.1 h with rfl | h
        · exact Or.inl rfl
        · exact Or.inr (List.mem_cons_of_mem _ h)
      · rcases List.mem_cons.1 h with rfl | h
        · exact Or.inr List.mem_cons_self
        · rcases ih h with h | h
          · exact Or.inl h
          · exact Or.inr (List.mem_cons_of_mem _ h)

theorem Tab.mem_del {t : Tab α} {n : Nat} {e : Nat × α} (h : e ∈ Tab.del t n) : e ∈ t := by
  induction t with
  | nil => simp [Tab.del] at h
  | cons a t ih =>
    obtain ⟨k, v⟩ := a
    simp only [Tab.del] at h
    split at h
    · exact List.mem_cons_of_mem _ (ih h)
    · rcases List.mem_cons.1 h with rfl | h
      · exact List.mem_cons_self
      · exact List.mem_cons_of_mem _ (ih h)

theorem Tab.sorted_put {t : Tab α} (n : Nat) (x : α) (h : Tab.sorted t = true) : Tab.sorted (Tab.put t n x) = true := by
  rw [Tab.sorted_iff] at *
  induction t with
  | nil => simp [Tab.put]
  | cons a t ih =>
    obtain ⟨k, v⟩ := a
    obtain ⟨h1, h2⟩ := List.pairwise_cons.1 h
    simp only [Tab.put]
    split
    · refine List.pairwise_cons.2 ⟨?_, h⟩
      intro e he
      rcases List.mem_cons.1 he with rfl | he
      · assumption
      · exact Nat.lt_trans ‹n < k› (h1 e he)
    · split
      · subst_vars; exact List.pairwise_cons.2 ⟨h1, h2⟩
      · refine List.pairwise_cons.2 ⟨?_, ih h2⟩
        intro e he
        rcases Tab.mem_put he with rfl | he
        · simp only; omega
        · exact h1 e he

theorem Tab.sorted_del {t : Tab α} (n : Nat) (h : Tab.sorted t = true) : Tab.sorted (Tab.del t n) = true := by
  rw [Tab.sorted_iff] at *
  induction t with
  | nil => simp [Tab.del]
  | cons a t ih =>
    obtain ⟨k, v⟩ := a
    obtain ⟨h1, h2⟩ := List.pairwise_cons.1 h
    simp only [Tab.del]
    split
    · exact ih h2
    · exact List.pairwise_cons.2 ⟨fun e he => h1 e (Tab.mem_del he), ih h2⟩

/-! ### Sparse tables -/

section Sparse
variable [DecidableEq α] (d : α)

@[simp] theorem Sparse.get_set_self (t : Tab α) (n : Nat) (x : α) : Sparse.get d (Sparse.set d t n x) n = x := by
  unfold Sparse.get Sparse.set
  split <;> simp_all

theorem Sparse.get_set_ne (t : Tab α) {n m : Nat} (x : α) (h : m ≠ n) : Sparse.get d (Sparse.set d t n x) m = Sparse.get d t m := by
  unfold Sparse.get Sparse.set
  split
  · rw [Tab.get?_del_ne t h]
  · rw [Tab.get?_put_ne t x h]

theorem Sparse.get_set (t : Tab α) (n m : Nat) (x : α) :
    Sparse.get d (Sparse.set d t n x) m = if m = n then x else Sparse.get d t m := by
  by_cases h : m = n
  · subst h; simp
  · rw [if_neg h, Sparse.get_set_ne d t x h]

theorem Sparse.wf_iff (t : Tab α) : Sparse.wf d t = true ↔ Tab.sorted t = true ∧ ∀ e ∈ t, e.2 ≠ d := by
  simp [Sparse.wf]

/-- A write keeps the canonical form. -/
theorem Sparse.wf_set {t : Tab α} (n : Nat) (x : α) (h : Sparse.wf d t = true) : Sparse.wf d (Sparse.set d t n x) = true := by
  rw [Sparse.wf_iff] at *
  unfold Sparse.set
  split
  · exact ⟨Tab.sorted_del n h.1, fun e he => h.2 e (Tab.mem_del he)⟩
  · refine ⟨Tab.sorted_put n x h.1, fun e he => ?_⟩
    rcases Tab.mem_put he with rfl | he
    · assumption
    · exact h.2 e he

/-- Taking entries away keeps the canonical form. -/
theorem Sparse.wf_filter {t : Tab α} (p : Nat × α → Bool) (h : Sparse.wf d t = true) : Sparse.wf d (t.filter p) = true := by
  rw [Sparse.wf_iff, Tab.sorted_iff] at *
  exact ⟨h.1.filter p, fun e he => h.2 e (List.mem_filter.1 he).1⟩

/-- Filling a range keeps the canonical form. -/
theorem Sparse.wf_fill {t : Tab α} (n : Nat) (xs : List α) (h : Sparse.wf d t = true) : Sparse.wf d (Sparse.fill d t n xs) = true := by
  rw [Sparse.wf_iff, Tab.sorted_iff] at *
  obtain ⟨hs, hd⟩ := h
  have hmid : (xs.zipIdx.map (fun x => (n + x.2, x.1))).Pairwise (fun a b => a.1 < b.1) := by
    rw [List.pairwise_map]
    have := List.pairwise_lt_range' (s := 0) (n := xs.length) (step := 1)
    rw [← List.zipIdx_map_snd 0 xs, List.pairwise_map] at this
    exact this.imp (fun h => by simp only; omega)
  have hin : ∀ e ∈ xs.zipIdx.map (fun x => (n + x.2, x.1)), n ≤ e.1 ∧ e.1 < n + xs.length := by
    intro e he
    obtain ⟨x, hx, rfl⟩ := List.mem_map.1 he
    have := List.snd_lt_of_mem_zipIdx hx
    simp only; omega
  refine ⟨?_, ?_⟩
  · unfold Sparse.fill
    rw [List.append_assoc, List.pairwise_append, List.pairwise_append]
    refine ⟨hs.filter _, ⟨hmid.filter _, hs.filter _, ?_⟩, ?_⟩
    · intro a ha b hb
      have h1 := (hin a (List.mem_filter.1 ha).1).2
      have h2 := (List.mem_filter.1 hb).2
      simp only [decide_eq_true_eq] at h2; omega
    · intro a ha b hb
      have h0 := (List.mem_filter.1 ha).2
      simp only [decide_eq_true_eq] at h0
      rcases List.mem_append.1 hb with hb | hb
      · have h1 := (hin b (List.mem_filter.1 hb).1).1
        omega
      · have h2 := (List.mem_filter.1 hb).2
        simp only [decide_eq_true_eq] at h2; omega
  · intro e he
    unfold Sparse.fill at he
    rcases List.mem_append.1 he with he | he
    · rcases List.mem_append.1 he with he | he
      · exact hd e (List.mem_filter.1 he).1
      · simpa using (List.mem_filter.1 he).2
    · exact hd e (List.mem_filter.1 he).1

end Sparse

/-! ### Sets -/

@[simp] theorem NatSet.mem_ins_self (t : NatSet) (n : Nat) : NatSet.mem (NatSet.ins t n) n = true := by
  induction t with
  | nil => simp [NatSet.ins, NatSet.mem]
  | cons k t ih =>
    simp only [NatSet.ins]
    split
    · simp [NatSet.mem]
    · split
      · simp_all [NatSet.mem]
      · simp_all [NatSet.mem]

theorem NatSet.mem_ins_ne (t : NatSet) {n m : Nat} (h : m ≠ n) : NatSet.mem (NatSet.ins t n) m = NatSet.mem t m := by
  induction t with
  | nil => simp [NatSet.ins, NatSet.mem, Ne.symm h]
  | cons k t ih =>
    simp only [NatSet.ins]
    split
    · simp [NatSet.mem, Ne.symm h]
    · split
      · rfl
      · simp only [NatSet.mem, List.any_cons] at *; rw [ih]

@[simp] theorem NatSet.mem_del_self (t : NatSet) (n : Nat) : NatSet.mem (NatSet.del t n) n = false := by
  induction t with
  | nil => rfl
  | cons k t ih =>
    simp only [NatSet.del]
    split
    · exact ih
    · simp_all [NatSet.mem]

theorem NatSet.mem_del_ne (t : NatSet) {n m : Nat} (h : m ≠ n) : NatSet.mem (NatSet.del t n) m = NatSet.mem t m := by
  induction t with
  | nil => rfl
  | cons k t ih =>
    simp only [NatSet.del]
    split
    · subst_vars; rw [ih]; simp [NatSet.mem, Ne.symm h]
    · simp only [NatSet.mem, List.any_cons] at *; rw [ih]

/-! ### Lists by place -/

@[simp] theorem listModify_length (xs : List α) (n : Nat) (f : α → α) : (listModify xs n f).length = xs.length := by
  induction xs generalizing n with
  | nil => rfl
  | cons x t ih => cases n <;> simp [listModify, ih]

theorem listModify_getElem? (xs : List α) (n m : Nat) (f : α → α) :
    (listModify xs n f)[m]? = if m = n then xs[m]?.map f else xs[m]? := by
  induction xs generalizing n m with
  | nil => simp [listModify]
  | cons x t ih =>
    cases n with
    | zero => cases m <;> simp [listModify]
    | succ n => cases m <;> simp [listModify, ih]

@[simp] theorem listMapIdx_length {β : Type} (f : Nat → α → β) (n : Nat) (xs : List α) : (listMapIdx f n xs).length = xs.length := by
  induction xs generalizing n with
  | nil => rfl
  | cons x t ih => simp [listMapIdx, ih]

theorem listMapIdx_getElem? {β : Type} (f : Nat → α → β) (n : Nat) (xs : List α) (m : Nat) :
    (listMapIdx f n xs)[m]? = xs[m]?.map (f (n + m)) := by
  induction xs generalizing n m with
  | nil => simp [listMapIdx]
  | cons x t ih =>
    cases m with
    | zero => simp [listMapIdx]
    | succ m => simp only [listMapIdx, List.getElem?_cons_succ, ih]; congr 2; omega

end Sys2Proof.Machine
end

