-- ==== Sys2Proof/Laws/Registers.lean ====
section
/-! SUPPORT. The laws of registers and issue sets: what a register holds after writes, and what the choice of the next issue set
leaves alone. -/

namespace Sys2Proof.Machine

/-! ### Lane sets -/

theorem LaneSet.mem_toList (m : LaneSet) (l : Nat) : l ∈ LaneSet.toList m ↔ m.has l = true := by
  unfold LaneSet.toList LaneSet.has
  rw [List.mem_filter, List.mem_range]
  exact ⟨fun h => h.2, fun h => ⟨BitVec.lt_of_getLsbD h, h⟩⟩

theorem LaneSet.toList_nodup (m : LaneSet) : (LaneSet.toList m).Nodup := List.nodup_range.filter _

theorem LaneSet.has_below {n l : Nat} (h : (LaneSet.below n).has l = true) : l < n := by
  unfold LaneSet.below LaneSet.has at h
  simp only [BitVec.getLsbD_ofNat, Bool.and_eq_true, decide_eq_true_eq, Nat.testBit_two_pow_sub_one] at h
  exact h.2

theorem LaneSet.has_and (a b : LaneSet) (l : Nat) : LaneSet.has (a &&& b) l = (a.has l && b.has l) := by
  simp [LaneSet.has]

/-! ### One write -/

@[simp] theorem Thread.vreg_setV_self (t : Thread) (n : Nat) (x : Word) : (t.setV n x).vreg n = x := by
  simp [Thread.vreg]

theorem Thread.vreg_setV_ne (t : Thread) {n m : Nat} (x : Word) (h : m ≠ n) : (t.setV n x).vreg m = t.vreg m := by
  simp [Thread.vreg, Sparse.get_set_ne _ _ _ h]

@[simp] theorem Group.greg_setG_self (g : Group) (n : Nat) (x : Word) : (g.setG n x).greg n = x := by
  simp [Group.greg]

theorem Group.greg_setG_ne (g : Group) {n m : Nat} (x : Word) (h : m ≠ n) : (g.setG n x).greg m = g.greg m := by
  simp [Group.greg, Sparse.get_set_ne _ _ _ h]

@[simp] theorem Group.thread_setG (g : Group) (n : Nat) (x : Word) (l : Nat) : (g.setG n x).thread l = g.thread l := rfl

theorem Group.thread_modThread (g : Group) (l : Nat) (f : Thread → Thread) (m : Nat) :
    (g.modThread l f).thread m = if m = l ∧ m < g.threads.length then f (g.thread m) else g.thread m := by
  simp only [Group.thread, Group.modThread_threads, List.getD_eq_getElem?_getD, listModify_getElem?]
  by_cases h : m = l
  · subst h
    by_cases h2 : m < g.threads.length
    · simp [h2]
    · simp [h2]
  · simp [h]

@[simp] theorem Group.greg_modThread (g : Group) (l : Nat) (f : Thread → Thread) (n : Nat) : (g.modThread l f).greg n = g.greg n := rfl

theorem Group.thread_modLanes (g : Group) (m : LaneSet) (f : Nat → Thread → Thread) (l : Nat) :
    (g.modLanes m f).thread l = if m.has l ∧ l < g.threads.length then f l (g.thread l) else g.thread l := by
  simp only [Group.thread, Group.modLanes_threads, List.getD_eq_getElem?_getD, listMapIdx_getElem?, Nat.zero_add]
  by_cases h2 : l < g.threads.length
  · simp [h2]
  · simp [h2]

@[simp] theorem Group.greg_modLanes (g : Group) (m : LaneSet) (f : Nat → Thread → Thread) (n : Nat) :
    (g.modLanes m f).greg n = g.greg n := rfl

/-- A change of some threads that keeps their V registers keeps every register. -/
theorem Group.reg_modLanes (g : Group) (m : LaneSet) (f : Nat → Thread → Thread) (hf : ∀ l t, (f l t).v = t.v) (l : Nat) (r : Reg) :
    (g.modLanes m f).reg l r = g.reg l r := by
  cases r with
  | g n => rfl
  | v n =>
    simp only [Group.reg, Group.thread_modLanes]
    split
    · simp [Thread.vreg, hf]
    · rfl

/-! ### Several writes -/

/-- The last write of a list to a register of a lane. -/
def lastWrite : List RegWrite → Nat → Reg → Option Word
  | [], _, _ => none
  | w :: t, l, r =>
    match lastWrite t l r with
    | some x => some x
    | none => if w.target = r ∧ (w.lane = none ∨ w.lane = some l) then some w.val else none

theorem Group.apply_threads_length (g : Group) (w : RegWrite) : (g.apply w).threads.length = g.threads.length := by
  unfold Group.apply
  split <;> simp

/-- What one write does to the registers. -/
theorem Group.reg_apply (g : Group) (w : RegWrite) (hw : ∀ k, w.lane = some k → k < g.threads.length) (l : Nat) (r : Reg) :
    (g.apply w).reg l r = if w.target = r ∧ (w.lane = none ∨ w.lane = some l) then w.val else g.reg l r := by
  obtain ⟨lane, reg, val⟩ := w
  cases lane with
  | none =>
    cases r with
    | v n => simp [Group.apply, Group.reg, RegWrite.target]
    | g n =>
      simp only [Group.apply, Group.reg, RegWrite.target, Reg.g.injEq, true_or, and_true]
      split
      · subst_vars; simp
      · rw [Group.greg_setG_ne]; exact fun h => ‹¬_› h.symm
  | some k =>
    have hk := hw k rfl
    cases r with
    | g n => simp [Group.apply, Group.reg, RegWrite.target]
    | v n =>
      simp only [Group.apply, Group.reg, RegWrite.target, Group.thread_modThread, Reg.v.injEq, reduceCtorEq, Option.some.injEq, false_or]
      by_cases h1 : l = k
      · subst h1
        rw [if_pos ⟨rfl, hk⟩]
        by_cases h2 : reg = n
        · subst h2; simp
        · rw [if_neg (by simp [h2]), Thread.vreg_setV_ne _ _ (fun h => h2 h.symm)]
      · rw [if_neg (fun h => h1 h.1), if_neg (fun h => h1 h.2.symm)]

/-- What a list of writes does to the registers. -/
theorem Group.reg_applyAll (ws : List RegWrite) (g : Group) (hw : ∀ w ∈ ws, ∀ k, w.lane = some k → k < g.threads.length) (l : Nat) (r : Reg) :
    (g.applyAll ws).reg l r = (lastWrite ws l r).getD (g.reg l r) := by
  induction ws generalizing g with
  | nil => rfl
  | cons w t ih =>
    have h1 := hw w List.mem_cons_self
    have h2 : ∀ w' ∈ t, ∀ k, w'.lane = some k → k < (g.apply w).threads.length := by
      intro w' hm k hk; rw [Group.apply_threads_length]; exact hw w' (List.mem_cons_of_mem _ hm) k hk
    have : (g.applyAll (w :: t)) = (g.apply w).applyAll t := rfl
    rw [this, ih _ h2, Group.reg_apply g w h1, lastWrite]
    cases lastWrite t l r with
    | some x => rfl
    | none => split <;> rfl

theorem lastWrite_append (a b : List RegWrite) (l : Nat) (r : Reg) :
    lastWrite (a ++ b) l r = (lastWrite b l r).or (lastWrite a l r) := by
  induction a with
  | nil => cases h : lastWrite b l r <;> simp [lastWrite, h]
  | cons w t ih =>
    simp only [List.cons_append, lastWrite, ih]
    cases lastWrite b l r <;> simp

/-- Writes of other lanes are not seen in a lane. -/
theorem lastWrite_other {ws : List RegWrite} {l : Nat} (r : Reg) (h : ∀ w ∈ ws, ∃ k, w.lane = some k ∧ k ≠ l) : lastWrite ws l r = none := by
  induction ws with
  | nil => rfl
  | cons w t ih =>
    rw [lastWrite, ih (fun w' hw' => h w' (List.mem_cons_of_mem _ hw'))]
    obtain ⟨k, hk, hne⟩ := h w List.mem_cons_self
    simp [hk, hne]

/-- Writes listed lane by lane: a lane sees its own. -/
theorem lastWrite_lanes (ls : List Nat) (hnd : ls.Nodup) (f : Nat → List RegWrite) (hf : ∀ l, ∀ w ∈ f l, w.lane = some l) (l : Nat) (r : Reg) :
    lastWrite (ls.flatMap f) l r = if l ∈ ls then lastWrite (f l) l r else none := by
  induction ls with
  | nil => rfl
  | cons k t ih =>
    obtain ⟨hk, hnd'⟩ := List.nodup_cons.1 hnd
    rw [List.flatMap_cons, lastWrite_append, ih hnd']
    by_cases h : l = k
    · subst h
      simp [hk]
    · have : lastWrite (f k) l r = none := lastWrite_other r (fun w hw => ⟨k, hf k w hw, fun h' => h h'.symm⟩)
      rw [this]
      simp [h]

theorem Group.applyAll_threads_length (ws : List RegWrite) (g : Group) : (g.applyAll ws).threads.length = g.threads.length := by
  induction ws generalizing g with
  | nil => rfl
  | cons w t ih => exact (ih (g.apply w)).trans (Group.apply_threads_length g w)

/-- Register writes change nothing of a group but its registers. -/
theorem Group.applyAll_same (ws : List RegWrite) (g : Group) :
    { g.applyAll ws with threads := g.threads, g := g.g } = g ∧ ∀ l, { (g.applyAll ws).thread l with v := (g.thread l).v } = g.thread l := by
  induction ws generalizing g with
  | nil => exact ⟨rfl, fun _ => rfl⟩
  | cons w t ih =>
    obtain ⟨h1, h2⟩ := ih (g.apply w)
    have hw : { g.apply w with threads := g.threads, g := g.g } = g ∧ ∀ l, { (g.apply w).thread l with v := (g.thread l).v } = g.thread l := by
      unfold Group.apply
      split
      · refine ⟨rfl, fun l => ?_⟩
        rw [Group.thread_modThread]
        split <;> rfl
      · exact ⟨rfl, fun _ => rfl⟩
    refine ⟨?_, fun l => ?_⟩
    · have e : (g.applyAll (w :: t)) = (g.apply w).applyAll t := rfl
      rw [e]
      have := congrArg (fun x : Group => { x with threads := g.threads, g := g.g }) h1
      exact this.trans hw.1
    · have e : (g.applyAll (w :: t)) = (g.apply w).applyAll t := rfl
      rw [e]
      have := congrArg (fun x : Thread => { x with v := (g.thread l).v }) (h2 l)
      exact this.trans (hw.2 l)

end Sys2Proof.Machine
end

