-- ==== Sys2Proof/Laws/Issue.lean ====
section
/-! SUPPORT. What the issue of one instruction can do: the choice of the next issue set keeps every register, and an instruction that
issues is performed by its own body. -/

namespace Sys2Proof.Machine

/-! ### What the choice of the next issue set keeps -/

/-- Two groups hold the same registers. -/
structure SameRegs (g g' : Group) : Prop where
  regs : ∀ l r, g'.reg l r = g.reg l r
  specials : g'.specials = g.specials
  budgets : ∀ l, (g'.thread l).febudget = (g.thread l).febudget
  length : g'.threads.length = g.threads.length

theorem SameRegs.refl (g : Group) : SameRegs g g := ⟨fun _ _ => rfl, rfl, fun _ => rfl, rfl⟩

theorem SameRegs.trans {a b c : Group} (h : SameRegs a b) (k : SameRegs b c) : SameRegs a c :=
  ⟨fun l r => (k.regs l r).trans (h.regs l r), k.specials.trans h.specials, fun l => (k.budgets l).trans (h.budgets l),
   k.length.trans h.length⟩

/-- A change of every thread that keeps its registers and budget. -/
theorem sameRegs_map (g g' : Group) (f : Thread → Thread) (hv : ∀ t, (f t).v = t.v) (hb : ∀ t, (f t).febudget = t.febudget)
    (ht : g'.threads = g.threads.map f) (hg : g'.g = g.g) (hs : g'.specials = g.specials) : SameRegs g g' := by
  have key : ∀ l, (g'.thread l).v = (g.thread l).v ∧ (g'.thread l).febudget = (g.thread l).febudget := by
    intro l
    simp only [Group.thread, ht, List.getD_eq_getElem?_getD, List.getElem?_map]
    cases g.threads[l]? with
    | none => exact ⟨rfl, rfl⟩
    | some t => exact ⟨hv t, hb t⟩
  refine ⟨fun l r => ?_, hs, fun l => (key l).2, by simp [ht]⟩
  cases r with
  | v n => simp [Group.reg, Thread.vreg, (key l).1]
  | g n => simp [Group.reg, Group.greg, hg]

theorem sameRegs_pick (g : Group) : SameRegs g g.pick := by
  unfold Group.pick
  simp only
  split <;> exact sameRegs_map _ _ id (fun _ => rfl) (fun _ => rfl) (by simp) rfl rfl

theorem sameRegs_release (g : Group) : SameRegs g { g with threads := releaseMeetings g.threads } := by
  refine sameRegs_map _ _ _ ?_ ?_ rfl rfl rfl <;>
  · intro t
    split
    · split <;> rfl
    · rfl

theorem sameRegs_unblock (g : Group) (id : Nat) : SameRegs g (g.unblock id) := by
  unfold Group.unblock
  split
  · exact SameRegs.refl g
  · refine sameRegs_map _ _ _ ?_ ?_ rfl rfl rfl <;>
    · intro t
      split <;> rfl

theorem sameRegs_foldl {β : Type} (f : Group → β → Group) (hf : ∀ g b, SameRegs g (f g b)) (bs : List β) (g : Group) :
    SameRegs g (bs.foldl f g) := by
  induction bs generalizing g with
  | nil => exact SameRegs.refl g
  | cons b t ih => exact (hf g b).trans (ih _)

theorem sameRegs_endYields (g : Group) : SameRegs g g.endYields := by
  unfold Group.endYields
  split
  · exact SameRegs.refl g
  · exact sameRegs_foldl (fun (x : Group) (e : Nat × Block) => x.unblock e.1) (fun g e => sameRegs_unblock g e.1) _ g

theorem sameRegs_choose (g : Group) : SameRegs g g.choose := by
  unfold Group.choose
  simp only
  split
  · exact (sameRegs_release g).trans ((sameRegs_endYields _).trans ((sameRegs_release _).trans (sameRegs_pick _)))
  · exact (sameRegs_release g).trans (sameRegs_pick _)

theorem sameRegs_rechoose (g : Group) : SameRegs g g.rechoose := by
  unfold Group.rechoose
  split
  · exact sameRegs_choose g
  · exact SameRegs.refl g

theorem sameRegs_passed (g : Group) (time : Nat) (next : DWord) (stall : Nat) : SameRegs g (g.passed time next stall) := by
  unfold Group.passed
  simp only
  refine SameRegs.trans ?_ (sameRegs_choose _)
  exact sameRegs_map _ _ id (fun _ => rfl) (fun _ => rfl) (by simp) rfl rfl

/-! ### What the choice of the next issue set leaves of threads and blocks -/

/-- The choice of an issue set keeps stacks, meetings, PCs and blocks, but that YIELDs may end and meetings be released (R15, R16, R25). -/
structure Chosen (g g' : Group) : Prop where
  calls : ∀ l, KeepsStack (g.thread l) (g'.thread l)
  pcs : ∀ l, (∀ e ∈ g.blocks, e.2.kind = .yield → (g.thread l).wait ≠ .block e.1) →
    (g'.thread l).pc = (g.thread l).pc ∧ (g'.thread l).wait = (g.thread l).wait
  blocks : ∀ k b, Tab.get? g.blocks k = some b → (∀ e ∈ g.blocks, e.2.kind = .yield → e.1 ≠ k) → Tab.get? g'.blocks k = some b
  fewer : ∀ e ∈ g'.blocks, e ∈ g.blocks

theorem KeepsStack.refl (a : Thread) : KeepsStack a a := ⟨rfl, rfl, rfl, rfl, rfl, .inl rfl⟩

theorem KeepsStack.trans {a b c : Thread} (h : KeepsStack a b) (k : KeepsStack b c) : KeepsStack a c := by
  refine ⟨k.live.trans h.live, k.stack.trans h.stack, k.spilled.trans h.spilled, k.depth.trans h.depth, k.record.trans h.record, ?_⟩
  rcases k.meet with hm | ⟨hd, hm⟩
  · rcases h.meet with hm' | ⟨hd', hm'⟩
    · exact .inl (hm.trans hm')
    · exact .inr ⟨hd', hm.trans hm'⟩
  · exact .inr ⟨h.depth.symm.trans hd, hm⟩

theorem Chosen.trans {a b c : Group} (h : Chosen a b) (k : Chosen b c) : Chosen a c := by
  refine ⟨fun l => (h.calls l).trans (k.calls l), fun l hl => ?_, fun n x hx hy => ?_, fun e he => h.fewer e (k.fewer e he)⟩
  · obtain ⟨h1, h2⟩ := h.pcs l hl
    obtain ⟨k1, k2⟩ := k.pcs l (fun e he hk => by rw [h2]; exact hl e (h.fewer e he) hk)
    exact ⟨k1.trans h1, k2.trans h2⟩
  · exact k.blocks n x (h.blocks n x hx hy) (fun e he => hy e (h.fewer e he))

/-- A change of every thread that keeps its stack, its PC and its wait, and no block. -/
theorem chosen_threads {g g' : Group} (hb : g'.blocks = g.blocks)
    (ht : ∀ l, KeepsStack (g.thread l) (g'.thread l) ∧ (g'.thread l).pc = (g.thread l).pc ∧ (g'.thread l).wait = (g.thread l).wait) :
    Chosen g g' :=
  ⟨fun l => (ht l).1, fun l _ => (ht l).2, fun k b h _ => by rw [hb]; exact h, fun e he => by rw [hb] at he; exact he⟩

theorem Chosen.refl (g : Group) : Chosen g g := chosen_threads rfl (fun _ => ⟨KeepsStack.refl _, rfl, rfl⟩)

/-- A map over the threads that leaves the default thread alone. -/
theorem thread_map {g g' : Group} (f : Thread → Thread) (h0 : f (Thread.start 0 false) = Thread.start 0 false)
    (ht : g'.threads = g.threads.map f) (l : Nat) : g'.thread l = f (g.thread l) := by
  simp only [Group.thread, ht, List.getD_eq_getElem?_getD, List.getElem?_map]
  cases g.threads[l]? with
  | none => exact h0.symm
  | some t => rfl

theorem chosen_release (g : Group) : Chosen g { g with threads := releaseMeetings g.threads } := by
  refine chosen_threads rfl (fun l => ?_)
  rw [thread_map (g := g) (g' := { g with threads := releaseMeetings g.threads })
    (fun t => if t.held && releases g.threads t.meet t.md then
      (if t.md = 0 then { t with meet := noMeeting } else { t with owes := true }) else t) (by simp [Thread.held, Thread.start]) rfl]
  split
  · split
    · rename_i h; exact ⟨⟨rfl, rfl, rfl, rfl, rfl, .inr ⟨h, rfl⟩⟩, rfl, rfl⟩
    · exact ⟨⟨rfl, rfl, rfl, rfl, rfl, .inl rfl⟩, rfl, rfl⟩
  · exact ⟨KeepsStack.refl _, rfl, rfl⟩

theorem chosen_pick (g : Group) : Chosen g g.pick := by
  have h : g.pick.threads = g.threads ∧ g.pick.blocks = g.blocks := by
    unfold Group.pick
    simp only
    split <;> exact ⟨rfl, rfl⟩
  refine chosen_threads h.2 (fun l => ?_)
  have : g.pick.thread l = g.thread l := by simp only [Group.thread, h.1]
  rw [this]
  exact ⟨KeepsStack.refl _, rfl, rfl⟩

/-- The end of a YIELD of the group. -/
theorem chosen_unblock {g x : Group} (h : Chosen g x) {e : Nat × Block} (he : e ∈ g.blocks) (hk : e.2.kind = .yield) : Chosen g (x.unblock e.1) := by
  unfold Group.unblock
  split
  · exact h
  · rename_i b hb
    have hth : ∀ l, ({ x with
        blocks := Tab.del x.blocks e.1
        threads := x.threads.map (fun t => if t.wait = .block e.1 then { t with wait := .run, pc := b.next } else t) } : Group).thread l
        = if (x.thread l).wait = .block e.1 then { x.thread l with wait := .run, pc := b.next } else x.thread l :=
      thread_map (g := x) (fun t => if t.wait = .block e.1 then { t with wait := .run, pc := b.next } else t) (by simp [Thread.start]) rfl
    refine ⟨fun l => ?_, fun l hl => ?_, fun k y hy hn => ?_, fun e' he' => h.fewer e' (Tab.mem_del he')⟩
    · refine (h.calls l).trans ?_
      rw [hth]
      split
      · exact ⟨rfl, rfl, rfl, rfl, rfl, .inl rfl⟩
      · exact KeepsStack.refl _
    · obtain ⟨h1, h2⟩ := h.pcs l hl
      have hne : (x.thread l).wait ≠ .block e.1 := by rw [h2]; exact hl e he hk
      rw [hth, if_neg hne]
      exact ⟨h1, h2⟩
    · have hne : k ≠ e.1 := fun hc => hn e he hk hc.symm
      exact (Tab.get?_del_ne x.blocks hne).trans (h.blocks k y hy hn)

theorem chosen_endYields (g : Group) : Chosen g g.endYields := by
  unfold Group.endYields
  split
  · exact Chosen.refl g
  · suffices H : ∀ (bs : List (Nat × Block)) (x : Group), (∀ e ∈ bs, e ∈ g.blocks ∧ e.2.kind = .yield) → Chosen g x →
        Chosen g (bs.foldl (fun x e => x.unblock e.1) x) from
      H _ g (fun e he => by
        obtain ⟨h1, h2⟩ := List.mem_filter.1 he
        exact ⟨h1, by simpa using h2⟩) (Chosen.refl g)
    intro bs
    induction bs with
    | nil => intro x _ hx; exact hx
    | cons e t ih =>
      intro x hb hx
      exact ih _ (fun e' he' => hb e' (List.mem_cons_of_mem _ he')) (chosen_unblock hx (hb e List.mem_cons_self).1 (hb e List.mem_cons_self).2)

theorem chosen_choose (g : Group) : Chosen g g.choose := by
  unfold Group.choose
  simp only
  split
  · exact (chosen_release g).trans ((chosen_endYields _).trans ((chosen_release _).trans (chosen_pick _)))
  · exact (chosen_release g).trans (chosen_pick _)

theorem chosen_passed (g : Group) (time : Nat) (next : DWord) (stall : Nat) : Chosen g (g.passed time next stall) := by
  unfold Group.passed
  simp only
  refine Chosen.trans ?_ (chosen_choose _)
  exact chosen_threads rfl (fun _ => ⟨KeepsStack.refl _, rfl, rfl⟩)

/-- Register writes change no PC, stack, meeting or block. -/
theorem chosen_applyAll (ws : List RegWrite) (g : Group) : Chosen g (g.applyAll ws) := by
  obtain ⟨h1, h2⟩ := Group.applyAll_same ws g
  have hb := congrArg Group.blocks h1
  refine chosen_threads hb (fun l => ?_)
  have e : ∀ {β : Type} (f : Thread → β), (∀ t v, f { t with v := v } = f t) → f ((g.applyAll ws).thread l) = f (g.thread l) :=
    fun f hf => (hf _ _).symm.trans (congrArg f (h2 l))
  exact ⟨⟨e Thread.live (fun _ _ => rfl), e Thread.stack (fun _ _ => rfl), e Thread.spilled (fun _ _ => rfl), e Thread.md (fun _ _ => rfl),
    e Thread.record (fun _ _ => rfl), .inl (e Thread.meet (fun _ _ => rfl))⟩, e Thread.pc (fun _ _ => rfl), e Thread.wait (fun _ _ => rfl)⟩

/-! ### The pops of an issue -/

/-- The pops owed keep every register. -/
theorem sameRegs_modThread (g : Group) (l : Nat) (t : Thread) (hv : t.v = (g.thread l).v) (hb : t.febudget = (g.thread l).febudget) :
    SameRegs g (g.modThread l (fun _ => t)) := by
  refine ⟨fun k r => ?_, rfl, fun k => ?_, by simp⟩
  · cases r with
    | g n => rfl
    | v n =>
      simp only [Group.reg, Group.thread_modThread]
      split
      · rename_i h; rw [h.1]; simp [Thread.vreg, hv]
      · rfl
  · rw [Group.thread_modThread]
    split
    · rename_i h; rw [h.1]; exact hb
    · rfl

/-- The thread that the top of the stack is taken from keeps its registers. -/
theorem topEntry_keeps {s : State} {g : Group} {l : Nat} {t : Thread} {e : StackEntry} {t' : Thread}
    (h : topEntry s g l t = .ok (some (e, t'))) : t'.v = t.v ∧ t'.febudget = t.febudget ∧ t'.wait = t.wait := by
  unfold topEntry at h
  cases hs : t.stack with
  | cons a b =>
    simp only [hs, Except.ok.injEq, Option.some.injEq, Prod.mk.injEq] at h
    obtain ⟨-, rfl⟩ := h
    exact ⟨rfl, rfl, rfl⟩
  | nil =>
    simp only [hs] at h
    split at h
    · simp at h
    · split at h
      · simp at h
      · split at h
        · simp at h
        · split at h
          · simp at h
          · simp only [Except.ok.injEq, Option.some.injEq, Prod.mk.injEq] at h
            obtain ⟨-, rfl⟩ := h
            exact ⟨rfl, rfl, rfl⟩

theorem popEntry_keeps {s : State} {g : Group} {l : Nat} {t t' : Thread} (h : popEntry s g l t = .done t') :
    t'.v = t.v ∧ t'.febudget = t.febudget ∧ t'.wait = t.wait := by
  unfold popEntry at h
  split at h
  · simp at h
  · simp only [PopOut.done.injEq] at h; subst h; exact ⟨rfl, rfl, rfl⟩
  · rename_i e t1 he
    have := topEntry_keeps he
    split at h
    · simp only [PopOut.done.injEq] at h; subst h; exact ⟨rfl, rfl, rfl⟩
    · split at h
      · simp at h
      · simp only [PopOut.done.injEq] at h; subst h; exact this

theorem popMeeting_keeps {s : State} {gid : Nat} {g : Group} {l : Nat} {t t' : Thread} (h : popMeeting s gid g l t = .done t') :
    t'.v = t.v ∧ t'.febudget = t.febudget ∧ t'.wait = t.wait := by
  unfold popMeeting at h
  split at h
  · exact popEntry_keeps h
  · split at h
    · simp at h
    · split at h
      · simp at h
      · split at h
        · simp at h
        · exact popEntry_keeps h

/-- A pop that an issue makes: its lane issues and owes it, and its thread keeps its registers. -/
theorem owedPops_done {s : State} {at_ : Site} {g : Group} {e : Nat × PopOut} (he : e ∈ owedPops s at_ g) {t : Thread} (ht : e.2 = .done t) :
    at_.lanes.has e.1 = true ∧ (g.thread e.1).owes = true ∧ t.v = (g.thread e.1).v ∧ t.febudget = (g.thread e.1).febudget
      ∧ t.wait = (g.thread e.1).wait := by
  unfold owedPops at he
  split at he
  · simp at he
  · obtain ⟨l, hm, hl⟩ := List.mem_filterMap.1 he
    simp only at hl
    split at hl
    · rename_i ho
      cases hl
      rw [Bool.and_eq_true] at ho
      exact ⟨(LaneSet.mem_toList _ _).1 hm, ho.1, popMeeting_keeps ht⟩
    · simp at hl

/-- The pops of an issue keep every register of the group. -/
theorem sameRegs_popped (s : State) (at_ : Site) (g : Group) : SameRegs g (poppedGroup s at_ g) := by
  have hmem : ∀ e ∈ owedPops s at_ g, ∀ t, e.2 = .done t → t.v = (g.thread e.1).v ∧ t.febudget = (g.thread e.1).febudget :=
    fun e he t ht => ⟨(owedPops_done he ht).2.2.1, (owedPops_done he ht).2.2.2.1⟩
  unfold poppedGroup
  generalize owedPops s at_ g = ps at hmem
  suffices H : ∀ (ps : List (Nat × PopOut)) (x : Group), SameRegs g x →
      (∀ e ∈ ps, ∀ t, e.2 = .done t → t.v = (g.thread e.1).v ∧ t.febudget = (g.thread e.1).febudget) →
      SameRegs g (ps.foldl Group.popDone x) from H ps g (SameRegs.refl g) hmem
  intro ps
  induction ps with
  | nil => intro x hx _; exact hx
  | cons e t ih =>
    intro x hx hm
    refine ih _ ?_ (fun e' he' => hm e' (List.mem_cons_of_mem _ he'))
    have h1 := hm e List.mem_cons_self
    unfold Group.popDone
    split
    · rename_i t' ht'
      obtain ⟨a, b⟩ := h1 t' ht'
      refine ⟨fun l r => ?_, hx.specials, fun l => ?_, by simp [hx.length]⟩
      · cases r with
        | g n => exact hx.regs l (.g n)
        | v n =>
          simp only [Group.reg, Group.thread_modThread]
          split
          · rename_i h; rw [h.1]; simp [Thread.vreg, a]
          · exact hx.regs l (.v n)
      · rw [Group.thread_modThread]
        split
        · rename_i h; rw [h.1]; exact b
        · exact hx.budgets l
    · exact hx

/-- The pops of an issue change only threads that issue and owe one, and let no thread wait. -/
theorem popped_threads (s : State) (at_ : Site) (g : Group) (l : Nat) :
    (at_.lanes.has l = false ∨ (g.thread l).owes = false → (poppedGroup s at_ g).thread l = g.thread l)
      ∧ ((poppedGroup s at_ g).thread l).wait = (g.thread l).wait := by
  suffices H : ∀ (ps : List (Nat × PopOut)) (x : Group), (∀ e ∈ ps, e ∈ owedPops s at_ g) →
      ((at_.lanes.has l = false ∨ (g.thread l).owes = false → x.thread l = g.thread l) ∧ (x.thread l).wait = (g.thread l).wait) →
      ((at_.lanes.has l = false ∨ (g.thread l).owes = false → (ps.foldl Group.popDone x).thread l = g.thread l)
        ∧ ((ps.foldl Group.popDone x).thread l).wait = (g.thread l).wait) from
    H _ g (fun _ h => h) ⟨fun _ => rfl, rfl⟩
  intro ps
  induction ps with
  | nil => intro x _ hx; exact hx
  | cons e t ih =>
    intro x hm hx
    refine ih _ (fun e' he' => hm e' (List.mem_cons_of_mem _ he')) ?_
    unfold Group.popDone
    split
    · rename_i t' ht'
      obtain ⟨h1, h2, -, -, h3⟩ := owedPops_done (hm e List.mem_cons_self) ht'
      rw [Group.thread_modThread]
      split
      · rename_i h
        rw [h.1]
        refine ⟨fun hc => ?_, h3⟩
        rw [h1, h2] at hc
        simp at hc
      · exact hx
    · exact hx

/-! ### The site of an issue -/

/-- The issuing group stands in the state, and its issuing lanes are lanes of it. -/
theorem siteOf_spec {s : State} {w : Word} {p : Prefix} {at_ : Site} {g : Group} (h : siteOf s w p = some (at_, g)) :
    Tab.get? s.groups at_.gid = some g ∧ at_.gid = s.turn ∧ at_.word = w ∧ at_.pfx = p ∧ g.frozen = false ∧ g.halted = false
      ∧ at_.pc = g.nextPc ∧ at_.next = at_.pc + (if p.isSome then 8#64 else 4#64) ∧ ∀ l, at_.lanes.has l = true → l < g.threads.length := by
  unfold siteOf at h
  cases hg : Tab.get? s.groups s.turn with
  | none => simp [hg] at h
  | some g0 =>
    simp only [hg] at h
    split at h
    · simp at h
    · split at h
      · simp at h
      · rename_i hc
        simp only [Option.some.injEq, Prod.mk.injEq] at h
        obtain ⟨rfl, rfl⟩ := h
        simp only [Bool.or_eq_true, not_or, Bool.not_eq_true] at hc
        refine ⟨hg, rfl, rfl, rfl, hc.1.1, hc.1.2, rfl, rfl, fun l hl => ?_⟩
        rw [LaneSet.has_and, Bool.and_eq_true] at hl
        exact LaneSet.has_below hl.2

/-! ### An instruction that issues -/

theorem pickCause_nil : pickCause [] = none := rfl

theorem shortValues_nil (lanes : List Nat) (free : Nat) : shortValues [] lanes free = ([], free) := rfl

/-- No comparator matches where nothing is touched. -/
theorem dataMatch_nil (s : State) (g : Group) : dataMatch s g [] = none := by
  have h : ∀ (ks : List Comparator) (p : Comparator → Bool) (n : Nat), listFindIdx (fun k => p k && ([] : List Touch).any k.touches) n ks = none := by
    intro ks p
    induction ks with
    | nil => intro n; rfl
    | cons a t ih => intro n; simp only [listFindIdx, List.any_nil, Bool.and_false, Bool.false_eq_true, if_false]; simpa using ih (n + 1)
  unfold dataMatch
  split
  · rfl
  · split
    · simp only [h]
    · rfl

theorem popDone_fields (g : Group) (e : Nat × PopOut) : { g.popDone e with threads := g.threads } = g := by
  unfold Group.popDone
  split <;> rfl

theorem popped_fields (s : State) (at_ : Site) (g : Group) : { poppedGroup s at_ g with threads := g.threads } = g := by
  unfold poppedGroup
  generalize owedPops s at_ g = ps
  suffices H : ∀ (ps : List (Nat × PopOut)) (x : Group), { x with threads := g.threads } = g →
      { ps.foldl Group.popDone x with threads := g.threads } = g from H ps g rfl
  intro ps
  induction ps with
  | nil => intro x hx; exact hx
  | cons e t ih =>
    intro x hx
    refine ih _ ?_
    have h1 := congrArg (fun y : Group => { y with threads := g.threads }) (popDone_fields x e)
    exact h1.trans hx

theorem popped_eq (s : State) (at_ : Site) (g : Group) : poppedGroup s at_ g = { g with threads := (poppedGroup s at_ g).threads } := by
  exact congrArg (fun y : Group => { y with threads := (poppedGroup s at_ g).threads }) (popped_fields s at_ g)

theorem pendingRegs_popped (s : State) (at_ : Site) (g : Group) (x : Group) :
    pendingRegs (s.setGroup at_.gid x) at_.gid (poppedGroup s at_ g) = pendingRegs s at_.gid g := by
  rw [popped_eq]; rfl

/-- No lane raises poisoned where no register that is read holds poison (R389). -/
theorem Form.badLanes_nil {f : Form} {s : State} {g : Group} {lanes : List Nat} (h : poisonedLanes s g lanes f.reads = []) :
    f.badLanes s g lanes = [] := by simp [Form.badLanes, h]

/-- In the G-set the whole issue set raises it (R153). -/
theorem Form.badLanes_gSet {f : Form} {s : State} {g : Group} {lanes : List Nat} (h : poisonedLanes s g lanes f.reads ≠ []) (hg : gSet f.word = true) :
    f.badLanes s g lanes = lanes := by simp [Form.badLanes, h, hg]

/-- An instruction that issues does what its body does, and the group then chooses its next issue set. -/
theorem issueForm_completes {f : Form} {p : Prefix} {body : Ctx → State → Res} {s s1 : State} {at_ : Site} {g : Group}
    (h : IssuesForm f p s at_ g) (hb : body (ctxForm f s at_ g) (issuedState s at_ g) = .ok s1) :
    issueForm f p body s = .next (finishIssue at_ s1) := by
  have hfails : (owedPops s at_ g).filterMap popFail = [] := by
    rw [List.filterMap_eq_nil_iff]
    intro e he
    obtain ⟨t, ht⟩ := h.pops e he
    simp [popFail, ht]
  have hbad : (owedPops s at_ g).any popDefective = false := by
    rw [List.any_eq_false]
    intro e he
    obtain ⟨t, ht⟩ := h.pops e he
    simp [popDefective, ht]
  have hwait : (owedPops s at_ g).any popWaits = false := by
    rw [List.any_eq_false]
    intro e he
    obtain ⟨t, ht⟩ := h.pops e he
    simp [popWaits, ht]
  have htouch : (owedPops s at_ g).filterMap popTouch = [] := by
    rw [List.filterMap_eq_nil_iff]
    intro e he
    obtain ⟨t, ht⟩ := h.pops e he
    simp [popTouch, ht]
  have hpend : (f.reads ++ f.writes).any
      (fun r => (pendingRegs (s.setGroup at_.gid (poppedGroup s at_ g)) at_.gid (poppedGroup s at_ g)).contains r) = false := by
    rw [pendingRegs_popped, List.any_eq_false]
    intro r hr hc
    exact h.notPending r hr (by simpa using hc)
  have hheld : loomHeld (s.setGroup at_.gid (poppedGroup s at_ g)) at_.gid (poppedGroup s at_ g).core = false := by
    rw [popped_eq]; exact h.notHeld
  have hdues : shortDues (poppedGroup s at_ g) f.reads = [] := by
    rw [popped_eq]; exact h.inTime
  have hsound : poisonedLanes (s.setGroup at_.gid (poppedGroup s at_ g)) (poppedGroup s at_ g) (LaneSet.toList at_.lanes) f.reads = [] := by
    rw [popped_eq]; exact h.sound
  have hs : siteOf s f.word p = some (at_, g) := h.site
  have hd : f.detail (shapeOf s g) = none := h.legal
  have key : issueAt f at_ g none body s = finishIssue at_ s1 := by
    unfold issueAt
    simp only [h.halt, h.comparator, h.fetching, hfails, pickCause_nil, hbad, hwait, htouch, dataMatch_nil, Bool.false_eq_true, if_false]
    change (if ((f.reads ++ f.writes).any (fun r =>
        (pendingRegs (s.setGroup at_.gid (poppedGroup s at_ g)) at_.gid (poppedGroup s at_ g)).contains r)
        || loomHeld (s.setGroup at_.gid (poppedGroup s at_ g)) at_.gid (poppedGroup s at_ g).core) = true then s else
      if ((poppedGroup s at_ g).stallchk && !(shortDues (poppedGroup s at_ g) f.reads).isEmpty) = true then _ else _) = _
    rw [hpend, hheld, hdues]
    have hsound' : f.badLanes (s.setGroup at_.gid ((owedPops s at_ g).foldl Group.popDone g)) ((owedPops s at_ g).foldl Group.popDone g)
        (LaneSet.toList at_.lanes) = [] := Form.badLanes_nil hsound
    have hdues' : shortDues ((owedPops s at_ g).foldl Group.popDone g) f.reads = [] := hdues
    simp only [hdues', List.isEmpty_nil, Bool.not_true, Bool.and_false, Bool.or_false, Bool.false_eq_true, if_false, shortValues_nil, hsound']
    have hb' : body { site := at_, g := (owedPops s at_ g).foldl Group.popDone g, lanes := LaneSet.toList at_.lanes, lat := f.lat, short := [] } (advance at_ (s.setGroup at_.gid (poppedGroup s at_ g))) = .ok s1 := hb
    split
    · rename_i s2 he
      have := hb'.symm.trans he
      cases this; rfl
    · rename_i he; exact absurd (hb'.symm.trans he) (by simp)
    · rename_i he; exact absurd (hb'.symm.trans he) (by simp)
    · rename_i he; exact absurd (hb'.symm.trans he) (by simp)
    · rename_i he; exact absurd (hb'.symm.trans he) (by simp)
  unfold issueForm
  rw [hs]
  simp only [hd, key]

theorem issue_completes {i : Instr} {p : Prefix} {body : Ctx → State → Res} {s s1 : State} {at_ : Site} {g : Group}
    (h : Issues i p s at_ g) (hb : body (ctxOf i s at_ g) (issuedState s at_ g) = .ok s1) :
    issue i p body s = .next (finishIssue at_ s1) := issueForm_completes h hb

end Sys2Proof.Machine
end

