-- ==== Sys2Proof/Laws/Frames.lean ====
section
/-! SUPPORT. What the end of an issue leaves alone, and the result of an instruction that writes registers: of fixed latency, and of
variable latency. -/

namespace Sys2Proof.Machine

theorem SameOutside.refl (gid : Nat) (s : State) : SameOutside gid s s := ⟨rfl, fun _ => rfl, fun _ _ => rfl⟩

theorem SameOutside.trans {gid : Nat} {a b c : State} (h : SameOutside gid a b) (k : SameOutside gid b c) : SameOutside gid a c := by
  refine ⟨?_, fun n => (k.cores n).trans (h.cores n), fun n hn => (k.groups n hn).trans (h.groups n hn)⟩
  have := congrArg (fun x : State => { x with groups := a.groups, cores := a.cores }) k.rest
  exact this.trans h.rest

theorem sameOutside_setGroup (s : State) (gid : Nat) (x : Group) : SameOutside gid s (s.setGroup gid x) := by
  refine ⟨rfl, fun _ => rfl, fun n hn => ?_⟩
  rw [State.setGroup_groups, Tab.get?_put_ne _ _ hn]

theorem sameOutside_modGroup (s : State) (gid : Nat) (f : Group → Group) : SameOutside gid s (s.modGroup gid f) := by
  refine ⟨rfl, fun _ => rfl, fun n hn => ?_⟩
  rw [State.modGroup_groups, Tab.get?_modify_ne _ _ hn]

theorem sameOutside_modDebug (s : State) (gid c : Nat) (f : Core → Core) (hf : ∀ k, { f k with debugSlots := [] } = { k with debugSlots := [] }) :
    SameOutside gid s (s.modCore c f) := by
  refine ⟨rfl, fun n => ?_, fun n _ => rfl⟩
  unfold State.core
  rw [State.modCore_cores]
  by_cases h : n = c
  · subst h
    rw [Tab.getD_put_self]
    exact hf _
  · rw [Tab.getD_put_ne _ _ _ h]

/-- A halt writes the halted mark of its group and debug registers. -/
theorem haltGroup_spec (gid reason comp : Nat) (lanes : LaneSet) (pc : DWord) (s : State) {g : Group} (hg : Tab.get? s.groups gid = some g) :
    SameOutside gid s (haltGroup gid reason comp lanes pc s)
      ∧ ∃ g', Tab.get? (haltGroup gid reason comp lanes pc s).groups gid = some g' ∧ SameRegs g g' ∧ Chosen g g' := by
  unfold haltGroup
  rw [hg]
  simp only
  cases g.place with
  | evicted c => exact ⟨SameOutside.refl _ _, g, hg, SameRegs.refl g, Chosen.refl g⟩
  | resident c q =>
    refine ⟨(sameOutside_setGroup s gid _).trans (sameOutside_modDebug _ gid c _ (fun k => rfl)), _, Tab.get?_put_self _ _ _, ?_, ?_⟩
    · exact sameRegs_map _ _ id (fun _ => rfl) (fun _ => rfl) (by simp) rfl rfl
    · exact chosen_threads rfl (fun _ => ⟨KeepsStack.refl _, rfl, rfl⟩)

theorem stepHalt_spec (gid : Nat) (s : State) {g : Group} (hg : Tab.get? s.groups gid = some g) :
    SameOutside gid s (stepHalt gid s) ∧ ∃ g', Tab.get? (stepHalt gid s).groups gid = some g' ∧ SameRegs g g' ∧ Chosen g g' := by
  unfold stepHalt
  rw [hg]
  simp only
  split
  · obtain ⟨ho, g', hg', hr⟩ := haltGroup_spec gid 3 0 g.cur g.nextPc s hg
    split
    · have hmap := Tab.get?_mapVal (haltGroup gid 3 0 g.cur g.nextPc s).groups (askTeamHalt g.team gid)
      refine ⟨ho.trans ⟨rfl, fun _ => rfl, fun n _ => ?_⟩, g', ?_, hr⟩
      · rw [hmap, Option.map_map]
        congr 1
        funext x
        simp only [Function.comp, askTeamHalt]
        split <;> rfl
      · rw [hmap, hg']
        simp [askTeamHalt]
    · exact ⟨ho, g', hg', hr⟩
  · exact ⟨SameOutside.refl _ _, g, hg, SameRegs.refl g, Chosen.refl g⟩

/-- The end of an issue keeps every register of the group, and everything outside it. -/
theorem finishIssue_spec (at_ : Site) (s : State) {g : Group} (hg : Tab.get? s.groups at_.gid = some g) :
    SameOutside at_.gid s (finishIssue at_ s)
      ∧ ∃ g', Tab.get? (finishIssue at_ s).groups at_.gid = some g' ∧ SameRegs g g' ∧ Chosen g g' := by
  unfold finishIssue
  rw [hg]
  simp only
  split
  · exact ⟨SameOutside.refl _ _, g, hg, SameRegs.refl g, Chosen.refl g⟩
  · obtain ⟨ho, g', hg', hr, hc⟩ := stepHalt_spec at_.gid
      (s.setGroup at_.gid (g.passed s.time at_.next (at_.word.extractLsb' 29 2).toNat)) (Tab.get?_put_self _ _ _)
    split
    · exact ⟨sameOutside_setGroup s _ _, _, Tab.get?_put_self _ _ _, sameRegs_passed _ _ _ _, chosen_passed _ _ _ _⟩
    · exact ⟨(sameOutside_setGroup s _ _).trans ho, g', hg', (sameRegs_passed _ _ _ _).trans hr, (chosen_passed _ _ _ _).trans hc⟩

/-- The issuing group in the state from which its instruction's own effect starts: pops made, the issuing threads past the instruction. -/
structure Issued (at_ : Site) (g g' : Group) : Prop where
  same : SameRegs g g'
  blocks : g'.blocks = g.blocks
  kept : ∀ l, at_.lanes.has l = false → g'.thread l = g.thread l
  past : ∀ l, at_.lanes.has l = true → (g'.thread l).pc = at_.next ∧ (g'.thread l).wait = (g.thread l).wait
    ∧ ((g.thread l).owes = false → KeepsStack (g.thread l) (g'.thread l))

/-- The state from which an instruction's own effect starts holds the registers of the state before the issue. -/
theorem issuedState_spec (s : State) (at_ : Site) (g : Group) (hlen : ∀ l, at_.lanes.has l = true → l < g.threads.length) :
    SameOutside at_.gid s (issuedState s at_ g) ∧ ∃ g', Tab.get? (issuedState s at_ g).groups at_.gid = some g' ∧ Issued at_ g g' := by
  unfold issuedState advance
  refine ⟨(sameOutside_setGroup s _ _).trans (sameOutside_modGroup _ _ _), (poppedGroup s at_ g).modLanes at_.lanes (fun _ t => { t with pc := at_.next }), ?_, ?_⟩
  · simp
  · have hp := sameRegs_popped s at_ g
    refine ⟨hp.trans ?_, ?_, fun l hl => ?_, fun l hl => ?_⟩
    · refine ⟨fun l r => Group.reg_modLanes _ _ (fun _ t => { t with pc := at_.next }) (fun _ _ => rfl) l r, rfl, fun l => ?_, by simp⟩
      rw [Group.thread_modLanes]
      split <;> rfl
    · have := congrArg Group.blocks (popped_fields s at_ g)
      exact this
    · rw [Group.thread_modLanes, if_neg (by simp [hl])]
      exact (popped_threads s at_ g l).1 (.inl hl)
    · rw [Group.thread_modLanes, if_pos ⟨hl, by rw [hp.length]; exact hlen l hl⟩]
      refine ⟨rfl, (popped_threads s at_ g l).2, fun ho => ?_⟩
      rw [(popped_threads s at_ g l).1 (.inr ho)]
      exact ⟨rfl, rfl, rfl, rfl, rfl, .inl rfl⟩

/-- The issuing threads go on behind the instruction, and the other threads stay. -/
theorem Issued.frame {at_ : Site} {s t : State} {g g1 g3 : Group} (h : Issued at_ g g1) (k : Chosen g1 g3)
    (hg : Tab.get? s.groups at_.gid = some g) (ht : Tab.get? t.groups at_.gid = some g3) :
    IssuersAt at_ (fun _ => at_.next) s t ∧ SameOthers at_ s t := by
  refine ⟨⟨g, g3, hg, ht, fun l hl => ?_⟩, g, g3, hg, ht, ⟨fun l hl => ?_, fun l hl hy => ?_, fun n b hb hn => ?_⟩⟩
  · obtain ⟨hpc, hw, hk⟩ := h.past l hl
    refine ⟨fun hr => ?_, fun ho => (hk ho).trans (k.calls l)⟩
    obtain ⟨h1, h2⟩ := k.pcs l (fun e _ _ => by rw [hw, hr]; exact Wait.noConfusion)
    exact ⟨h2.trans (hw.trans hr), h1.trans hpc⟩
  · have := k.calls l
    rwa [h.kept l hl] at this
  · have := k.pcs l
    rw [h.kept l hl, h.blocks] at this
    exact this hy
  · have := k.blocks n b
    rw [h.blocks] at this
    exact this hb hn

theorem sameRegs_state {gid : Nat} {s t : State} {g g' : Group} (hs : Tab.get? s.groups gid = some g) (ht : Tab.get? t.groups gid = some g')
    (h : SameRegs g g') (l : Nat) (r : Reg) : t.reg gid l r = s.reg gid l r := by
  simp only [State.reg, hs, ht, h.regs]

/-- What the context of an instruction reads is what the registers held. -/
theorem ctxOf_reg (i : Instr) (s : State) (at_ : Site) (g : Group) (l : Nat) (r : Reg) (hr : ∀ n, r = .v n ∨ r = .g n → True) :
    (ctxOf i s at_ g).reg l r = g.reg l r := by
  have : (ctxOf i s at_ g).reg l r = (poppedGroup s at_ g).reg l r := by cases r <;> rfl
  rw [this]
  exact (sameRegs_popped s at_ g).regs l r

theorem ctxOf_val (i : Instr) (s : State) (at_ : Site) (g : Group) (l : Nat) (x : BitVec 7) : (ctxOf i s at_ g).val l x = g.val l x :=
  ctxOf_reg i s at_ g l _ (fun _ _ => trivial)

theorem ctxOf_val64 (i : Instr) (s : State) (at_ : Site) (g : Group) (l : Nat) (x : BitVec 7) :
    (ctxOf i s at_ g).val64 l x = g.val64 l x := by
  have h1 := ctxOf_reg i s at_ g l (lreg (x.toNat + 1)) (fun _ _ => trivial)
  have h0 := ctxOf_reg i s at_ g l (lreg (x.toNat + 0)) (fun _ _ => trivial)
  unfold Ctx.val64 Ctx.valAt Group.val64
  rw [h1, h0]; rfl

theorem ctxOf_gv (i : Instr) (s : State) (at_ : Site) (g : Group) (x : BitVec 7) : (ctxOf i s at_ g).gv x = g.gval x :=
  ctxOf_reg i s at_ g 0 (.g x.toNat) (fun _ _ => trivial)

theorem ctxOf_gAt (i : Instr) (s : State) (at_ : Site) (g : Group) (n : Nat) : (ctxOf i s at_ g).gAt n = g.greg n :=
  ctxOf_reg i s at_ g 0 (.g n) (fun _ _ => trivial)

theorem ctxOf_g64 (i : Instr) (s : State) (at_ : Site) (g : Group) (n : Nat) : (ctxOf i s at_ g).g64 n = g.greg (n + 1) ++ g.greg n := by
  simp only [Ctx.g64, ctxOf_gAt]

theorem ctxOf_xval (i : Instr) (s : State) (at_ : Site) (g : Group) (l : Nat) (x : BitVec 7) : (ctxOf i s at_ g).xval l x = g.xval l x := by
  unfold Ctx.xval Group.xval
  split
  · exact ctxOf_gAt i s at_ g _
  · exact ctxOf_reg i s at_ g l _ (fun _ _ => trivial)

/-! ### Results -/

/-- An instruction of fixed latency that writes registers: the registers after it, and its frame. -/
theorem issue_writes {i : Instr} {p : Prefix} {body : Ctx → State → Res} {s : State} {at_ : Site} {g : Group} (ws : List RegWrite)
    (h : Issues i p s at_ g) (hlat : i.latency ≠ 0) (hws : ∀ w ∈ ws, ∀ k, w.lane = some k → at_.lanes.has k = true)
    (hb : ∀ st, body (ctxOf i s at_ g) st = .ok ((ctxOf i s at_ g).write ws st)) :
    ∃ t, issue i p body s = .next t ∧ IssueFrame at_ s t ∧ ∀ l r, t.reg at_.gid l r = (lastWrite ws l r).getD (s.reg at_.gid l r) := by
  obtain ⟨hg, -, -, -, -, -, -, -, hlen⟩ := siteOf_spec h.site
  obtain ⟨ho, g1, hg1, hi⟩ := issuedState_spec s at_ g hlen
  have hr1 := hi.same
  refine ⟨_, issue_completes h (hb _), ?_⟩
  obtain ⟨due, hw⟩ : ∃ due : Group → List Due, (ctxOf i s at_ g).write ws (issuedState s at_ g) = (issuedState s at_ g).modGroup at_.gid (fun x =>
      { x.applyAll ws with dues := due x }) := by
    unfold Ctx.write
    rw [if_neg (show ¬(ctxOf i s at_ g).lat = 0 from hlat)]
    exact ⟨_, rfl⟩
  rw [hw]
  have hg2 : Tab.get? ((issuedState s at_ g).modGroup at_.gid (fun x =>
      { x.applyAll ws with dues := due x })).groups at_.gid
      = some { g1.applyAll ws with dues := due g1 } := by
    rw [State.modGroup_groups, Tab.get?_modify_self, hg1]; rfl
  obtain ⟨ho2, g3, hg3, hr3, hc3⟩ := finishIssue_spec at_ _ hg2
  have hsame := Group.applyAll_same ws g1
  have hspec : (g1.applyAll ws).specials = g1.specials := by
    have := congrArg Group.specials hsame.1
    exact this
  have hc : Chosen g1 g3 := by
    refine (chosen_applyAll ws g1).trans (Chosen.trans ?_ hc3)
    exact chosen_threads rfl (fun _ => ⟨KeepsStack.refl _, rfl, rfl⟩)
  obtain ⟨hi1, hi2⟩ := hi.frame (s := s) hc hg hg3
  refine ⟨⟨ho.trans ((sameOutside_modGroup _ _ _).trans ho2), ⟨g, g3, hg, hg3, ?_, ?_⟩, hi1, hi2⟩, ?_⟩
  · exact hr3.specials.trans (hspec.trans hr1.specials)
  · intro l
    have h1 := hr3.budgets l
    have h2 := congrArg Thread.febudget (hsame.2 l)
    exact h1.trans (h2.trans (hr1.budgets l))
  · intro l r
    have h3 : (finishIssue at_ ((issuedState s at_ g).modGroup at_.gid (fun x =>
      { x.applyAll ws with dues := due x }))).reg at_.gid l r = g3.reg l r := by
      simp only [State.reg, hg3]
    rw [h3, hr3.regs]
    have h4 := Group.reg_applyAll ws g1 (fun w hw k hk => by rw [hr1.length]; exact hlen k (hws w hw k hk)) l r
    have h5 : ({ g1.applyAll ws with dues := due g1 } : Group).reg l r = (g1.applyAll ws).reg l r := by
      cases r <;> rfl
    rw [h5, h4, hr1.regs]
    simp only [State.reg, hg]

/-- An instruction of variable latency that writes registers: its result is in flight. -/
theorem issue_inFlight {i : Instr} {p : Prefix} {body : Ctx → State → Res} {s : State} {at_ : Site} {g : Group} (ws : List RegWrite)
    (h : Issues i p s at_ g) (hlat : i.latency = 0)
    (hb : ∀ st, body (ctxOf i s at_ g) st = .ok ((ctxOf i s at_ g).write ws st)) :
    ∃ t, issue i p body s = .next t ∧ InFlight at_ ws s t := by
  obtain ⟨hg, -, -, -, -, -, -, -, hlen⟩ := siteOf_spec h.site
  obtain ⟨ho, g1, hg1, hi⟩ := issuedState_spec s at_ g hlen
  have hr1 := hi.same
  refine ⟨_, issue_completes h (hb _), ?_⟩
  have hw : (ctxOf i s at_ g).write ws (issuedState s at_ g) = (issuedState s at_ g).addReq
      ((ctxOf i s at_ g).req (issuedState s at_ g) (dedupRegs (ws.map RegWrite.target)) (.value ws)) := by
    unfold Ctx.write
    rw [if_pos (show (ctxOf i s at_ g).lat = 0 from hlat)]
  rw [hw]
  have hg2 : Tab.get? ((issuedState s at_ g).addReq
      ((ctxOf i s at_ g).req (issuedState s at_ g) (dedupRegs (ws.map RegWrite.target)) (.value ws))).groups at_.gid = some g1 := hg1
  obtain ⟨ho2, g3, hg3, hr3, hc3⟩ := finishIssue_spec at_ _ hg2
  have hreqs : (issuedState s at_ g).reqs = s.reqs := rfl
  have huid : (issuedState s at_ g).uid = s.uid := rfl
  have hreq := congrArg State.reqs ho2.rest
  have hmem := congrArg State.mem ho2.rest
  have hr : ∀ n, Tab.get? (finishIssue at_ ((issuedState s at_ g).addReq
      ((ctxOf i s at_ g).req (issuedState s at_ g) (dedupRegs (ws.map RegWrite.target)) (.value ws)))).reqs n
      = Tab.get? (Tab.put s.reqs s.uid ((ctxOf i s at_ g).req (issuedState s at_ g) (dedupRegs (ws.map RegWrite.target)) (.value ws))) n := by
    intro n
    exact congrArg (fun x => Tab.get? x n) hreq
  obtain ⟨hi1, hi2⟩ := hi.frame (s := s) hc3 hg hg3
  refine ⟨⟨_, (hr s.uid).trans (Tab.get?_put_self _ _ _), rfl, rfl, rfl⟩, fun n hn => (hr n).trans (Tab.get?_put_ne _ _ hn), ?_, ?_, ?_, hi1, hi2⟩
  · exact hmem
  · intro l r
    rw [sameRegs_state hg hg3 (hr1.trans hr3)]; rfl
  · exact ⟨g, g3, hg, hg3, (hr1.trans hr3).specials, (hr1.trans hr3).budgets⟩

/-! ### Lists of writes as lane by lane values -/

theorem lastWrite_asWrites (l : Nat) (ws : List (Reg × Word)) (hnd : (ws.map (·.1)).Nodup) (r : Reg) :
    lastWrite (asWrites (some l) ws) l r = ws.lookup r := by
  induction ws with
  | nil => rfl
  | cons e t ih =>
    obtain ⟨q, x⟩ := e
    obtain ⟨h1, h2⟩ := List.nodup_cons.1 hnd
    rw [List.lookup_cons]
    have hi : lastWrite (List.map (asWrite (some l)) t) l r = t.lookup r := ih h2
    simp only [asWrites, List.map_cons, lastWrite, hi]
    have htarget : ∀ q' : Reg, (asWrite (some l) (q', x)).target = q' := fun q' => by cases q' <;> rfl
    by_cases hq : r = q
    · subst hq
      have : t.lookup r = none := by
        rw [List.lookup_eq_none_iff]
        intro p hp
        rw [bne_iff_ne]
        exact fun hc => h1 (List.mem_map.2 ⟨p, hp, hc.symm⟩)
      rw [this]
      cases r <;> simp [RegWrite.target, asWrite]
    · have hb : (r == q) = false := by simpa using hq
      rw [hb]
      cases t.lookup r with
      | some y => rfl
      | none => rw [htarget, if_neg (fun h => hq h.1.symm)]

/-- Results of a lane instruction of fixed latency. -/
theorem issue_lane_writes {i : Instr} {p : Prefix} {body : Ctx → State → Res} {s : State} {at_ : Site} {g : Group}
    (f : Nat → List (Reg × Word)) (h : Issues i p s at_ g) (hlat : i.latency ≠ 0) (hv : ∀ l, ∀ e ∈ f l, ∃ n, e.1 = .v n)
    (hnd : ∀ l, ((f l).map (·.1)).Nodup)
    (hb : ∀ st, body (ctxOf i s at_ g) st = .ok ((ctxOf i s at_ g).write
      ((LaneSet.toList at_.lanes).flatMap (fun l => asWrites (some l) (f l))) st)) :
    ∃ t, issue i p body s = .next t ∧ Writes at_.gid (laneWrites at_ f) s t ∧ IssueFrame at_ s t := by
  have hlane : ∀ l, ∀ w ∈ asWrites (some l) (f l), w.lane = some l := by
    intro l w hw
    obtain ⟨e, he, rfl⟩ := List.mem_map.1 hw
    obtain ⟨n, hn⟩ := hv l e he
    simp only [asWrite, hn]
  obtain ⟨t, ht, hf, hr⟩ := issue_writes _ h hlat (fun w hw k hk => by
    obtain ⟨l, hl, hw⟩ := List.mem_flatMap.1 hw
    rw [hlane l w hw] at hk
    cases hk
    exact (LaneSet.mem_toList _ _).1 hl) hb
  refine ⟨t, ht, fun l r => ?_, hf⟩
  rw [hr, lastWrite_lanes _ (LaneSet.toList_nodup _) _ hlane]
  unfold laneWrites
  by_cases hm : at_.lanes.has l = true
  · rw [if_pos ((LaneSet.mem_toList _ _).2 hm), if_pos hm, lastWrite_asWrites _ _ (hnd l)]
  · rw [if_neg (fun h => hm ((LaneSet.mem_toList _ _).1 h)), if_neg hm]; rfl

end Sys2Proof.Machine
end

