-- ==== Sys2Proof/Laws/Memory.lean ====
section
/-! SUPPORT. The laws of memory bytes: a read after a write, what a write leaves alone, and that every operation that writes memory
keeps its canonical form. -/

namespace Sys2Proof.Machine

/-! ### One byte -/

@[simp] theorem State.byte_setByte_self (s : State) (pa : Nat) (b : Byte) : (s.setByte pa b).byte pa = b := by
  simp [State.byte]

theorem State.byte_setByte_ne (s : State) {pa q : Nat} (b : Byte) (h : q ≠ pa) : (s.setByte pa b).byte q = s.byte q := by
  simp [State.byte, Sparse.get_set_ne _ _ _ h]

theorem memWf_setByte (s : State) (pa : Nat) (b : Byte) (h : memWf s.mem = true) : memWf (s.setByte pa b).mem = true :=
  Sparse.wf_set _ _ _ h

/-! ### Bytes -/

/-- Writing bytes changes the memory field alone. -/
theorem State.setBytes_eq (s : State) (pa : Nat) (bs : List Byte) : s.setBytes pa bs = { s with mem := (s.setBytes pa bs).mem } := by
  induction bs generalizing s pa with
  | nil => rfl
  | cons b t ih => rw [State.setBytes, ih]; rfl

/-- What a byte reads after bytes are written. -/
theorem State.byte_setBytes (s : State) (pa : Nat) (bs : List Byte) (q : Nat) :
    (s.setBytes pa bs).byte q = if pa ≤ q ∧ q < pa + bs.length then bs.getD (q - pa) 0#8 else s.byte q := by
  induction bs generalizing s pa with
  | nil => simp only [State.setBytes, List.length_nil]; rw [if_neg (by omega)]
  | cons b t ih =>
    rw [State.setBytes, ih]
    by_cases h1 : pa + 1 ≤ q ∧ q < pa + 1 + t.length
    · rw [if_pos h1, if_pos (by simp only [List.length_cons]; omega)]
      obtain ⟨k, hk⟩ : ∃ k, q - pa = k + 1 := ⟨q - pa - 1, by omega⟩
      have : q - (pa + 1) = k := by omega
      rw [hk, this]; simp
    · rw [if_neg h1]
      by_cases h2 : q = pa
      · subst h2
        rw [if_pos (by simp only [List.length_cons]; omega)]
        simp
      · rw [if_neg (by simp only [List.length_cons]; omega), State.byte_setByte_ne _ _ h2]

theorem State.byte_setBytes_out (s : State) (pa : Nat) (bs : List Byte) {q : Nat} (h : q < pa ∨ pa + bs.length ≤ q) :
    (s.setBytes pa bs).byte q = s.byte q := by
  rw [State.byte_setBytes, if_neg (by omega)]

/-- Reading the bytes just written gives them. -/
theorem State.bytes_setBytes_self (s : State) (pa : Nat) (bs : List Byte) : (s.setBytes pa bs).bytes pa bs.length = bs := by
  apply List.ext_getElem
  · simp [State.bytes]
  · intro k h1 h2
    simp only [State.bytes, List.getElem_map, List.getElem_range, State.byte_setBytes]
    rw [if_pos (by omega)]
    simp [h2]

theorem memWf_setBytes (s : State) (pa : Nat) (bs : List Byte) (h : memWf s.mem = true) : memWf (s.setBytes pa bs).mem = true := by
  induction bs generalizing s pa with
  | nil => exact h
  | cons b t ih => exact ih _ _ (memWf_setByte s pa b h)

/-! ### Little-endian values (R5) -/

@[simp] theorem leBytes_length (n v : Nat) : (leBytes n v).length = n := by simp [leBytes]

/-- The little-endian value of the bytes of a value that fits them. -/
theorem leNat_leBytes (n v : Nat) : leNat (leBytes n v) = v % 256 ^ n := by
  have key : ∀ (n k v : Nat), leNat ((List.range' k n).map (fun j => BitVec.ofNat 8 (v / 256 ^ j))) = v / 256 ^ k % 256 ^ n := by
    intro n
    induction n with
    | zero => intro k v; simp [leNat, Nat.mod_one]
    | succ n ih =>
      intro k v
      rw [List.range'_succ, List.map_cons, leNat, ih, BitVec.toNat_ofNat]
      have h1 : v / 256 ^ (k + 1) = v / 256 ^ k / 256 := by rw [Nat.pow_succ, Nat.div_div_eq_div_mul]
      rw [h1, Nat.pow_succ 256 n, Nat.mul_comm (256 ^ n) 256, Nat.mod_mul]
  have := key n 0 v
  simpa [leBytes, List.range_eq_range'] using this

/-- A value read back from where it was written. -/
theorem State.read_write_self (s : State) (pa n v : Nat) : (s.write pa n v).read pa n = v % 256 ^ n := by
  have h := State.bytes_setBytes_self s pa (leBytes n v)
  rw [leBytes_length] at h
  change leNat ((s.setBytes pa (leBytes n v)).bytes pa n) = _
  rw [h, leNat_leBytes]

theorem memWf_write (s : State) (pa n v : Nat) (h : memWf s.mem = true) : memWf (s.write pa n v).mem = true :=
  memWf_setBytes s pa _ h

/-! ### Operations that write memory -/

@[simp] theorem clearPoison_mem (pa n : Nat) (s : State) : (clearPoison pa n s).mem = s.mem := rfl

theorem memWf_poke (s : State) (pa : Nat) (bs : List Byte) (h : memWf s.mem = true) : memWf (s.poke pa bs).mem = true :=
  memWf_setBytes s pa bs h

/-- A poke writes its bytes and leaves every other byte alone. -/
theorem State.byte_poke (s : State) (pa : Nat) (bs : List Byte) (q : Nat) :
    (s.poke pa bs).byte q = if pa ≤ q ∧ q < pa + bs.length then bs.getD (q - pa) 0#8 else s.byte q :=
  State.byte_setBytes s pa bs q

theorem memWf_freeWatch (l : Nat) (w : Watch) (s : State) (h : memWf s.mem = true) : memWf (freeWatch l w s).mem = true := by
  unfold freeWatch
  split
  · exact memWf_write _ _ _ _ h
  · exact h

/-- A fold whose every step keeps the form keeps it. -/
theorem memWf_foldl {β : Type} (f : State → β → State) (hf : ∀ s b, memWf s.mem = true → memWf (f s b).mem = true) (bs : List β) (s : State)
    (h : memWf s.mem = true) : memWf (bs.foldl f s).mem = true := by
  induction bs generalizing s with
  | nil => exact h
  | cons b t ih => exact ih _ (hf s b h)

/-! ### WAITs that end, and the fault ring -/

@[simp] theorem noteRead_mem (gid : Nat) (ls : LaneSet) (ns : NatSet) (u : Nat) (s : State) : (noteRead gid ls ns u s).mem = s.mem := by simp [noteRead]

/-- What the end of a WAIT makes of its reads leaves memory alone. -/
@[simp] theorem waitReads_mem (gid core : Nat) (ls : LaneSet) (es : List WaitEntry) (s : State) : (waitReads gid core ls es s).mem = s.mem := by
  have key : ∀ (ws : List WaitEntry) (u : State), (ws.foldl (fun s e => dropAll core e.pa s) u).mem = u.mem := by
    intro ws
    induction ws with
    | nil => exact fun _ => rfl
    | cons w t ih => intro u; rw [List.foldl_cons, ih]; rfl
  unfold waitReads
  dsimp only
  split
  · rfl
  · rw [key]; simp [acquireDev, acquireAt, dropCopies]

theorem memWf_finishWait (gid id : Nat) (r : Word) (s : State) (h : memWf s.mem = true) : memWf (finishWait gid id r s).mem = true := by
  unfold finishWait
  repeat' split
  all_goals first
    | exact h
    | skip
  · simp only [waitReads_mem, State.modGroup_mem]
    exact memWf_foldl _ (fun s e hs => memWf_freeWatch _ _ s hs) _ _ h

theorem memWf_retryWait (gid id : Nat) (s s' : State) (h : memWf s.mem = true) (hr : retryWait gid id s = some s') : memWf s'.mem = true := by
  unfold retryWait at hr
  repeat' split at hr
  all_goals cases hr
  exact memWf_finishWait _ _ _ s h

theorem memWf_wakeWaits (pa : Nat) (s : State) (h : memWf s.mem = true) : memWf (wakeWaits pa s).mem = true := by
  have clear : ∀ (k : Nat) (u : State), memWf u.mem = true → memWf (clearWatch k u).mem = true := by
    intro k u hu; unfold clearWatch; split <;> exact hu
  refine clear _ _ (memWf_foldl _ (fun u x hu => ?_) _ _ h)
  have go : ∀ v, retryWait x.2.1 x.2.2.1 u = some v → memWf v.mem = true := fun v => memWf_retryWait _ _ u v hu
  unfold tryHeld
  repeat' split
  · cases hv : retryWait x.2.1 x.2.2.1 u with
    | none => exact hu
    | some v => exact go v hv
  · exact memWf_freeWatch _ _ u hu
  · exact hu
  · cases hv : retryWait x.2.1 x.2.2.1 u with
    | none => exact hu
    | some v => exact go v hv

theorem memWf_faultRecord (ctx : Nat) (rec : BitVec 512) (s : State) (h : memWf s.mem = true) :
    memWf (faultRecord ctx rec s).mem = true := by
  unfold faultRecord
  simp only
  split
  · simpa using h
  · split
    · refine memWf_wakeWaits _ _ (memWf_wakeWaits _ _ ?_)
      simp only [State.message_mem]
      exact memWf_write _ _ _ _ (memWf_write _ _ _ _ h)
    · exact memWf_wakeWaits _ _ (memWf_write _ _ _ _ h)

theorem memWf_launchRecord (code l arg addr : Nat) (s : State) (h : memWf s.mem = true) :
    memWf (launchRecord code l arg addr s).mem = true := memWf_faultRecord _ _ s h

theorem memWf_pokeMasked (s : State) (pa : Nat) (bs : List (Option Byte)) (h : memWf s.mem = true) : memWf (s.pokeMasked pa bs).mem = true := by
  unfold State.pokeMasked
  split
  · exact memWf_poke s pa _ h
  · refine memWf_foldl _ (fun s b hs => ?_) _ _ h
    split
    · exact memWf_setByte _ _ _ hs
    · exact hs

/-- A page copied into the replica pool keeps the form. -/
theorem memWf_copyPage (src dst n : Nat) (s : State) (h : memWf s.mem = true) : memWf (copyPage src dst n s).mem = true := by
  have key : ∀ (cs : List Host.Cell) (m : List Host.Cell), Sparse.wf memDefault m = true →
      Sparse.wf memDefault (cs.foldl (fun m c => Sparse.set memDefault m (dst + (c.1 - src)) c.2) m) = true := by
    intro cs
    induction cs with
    | nil => exact fun _ h => h
    | cons c t ih => exact fun m h => ih _ (Sparse.wf_set _ _ _ h)
  exact key _ _ (Sparse.wf_filter _ _ h)

theorem memWf_withdrawBlocks (g : Group) (s : State) (h : memWf s.mem = true) : memWf (withdrawBlocks g s).mem = true := by
  refine memWf_foldl _ (fun s e hs => ?_) _ _ h
  split
  · exact memWf_foldl _ (fun s w hs => memWf_freeWatch _ _ s hs) _ _ hs
  · exact hs

theorem memWf_withdrawFe (gid : Nat) (s : State) (h : memWf s.mem = true) : memWf (withdrawFe gid s).mem = true := by
  refine memWf_foldl _ (fun s e hs => ?_) _ _ h
  split
  · split
    · split
      · simpa using memWf_freeWatch _ _ s hs
      · exact hs
    · exact hs
  · exact hs

end Sys2Proof.Machine
end

