-- ==== Sys2Proof/Laws/PerInstr.lean ====
section
/-! SUPPORT. Per-instruction laws: how many words each constructor is encoded in. -/

namespace Sys2Proof.Laws.WordCount

/-- R33, R35, R58: an instruction is one word, an EXT pair the EXT word and its follower, and a step of the device has none. -/
def Statement (i : Instr) : Prop :=
  encode i = [] ∨ encode i = [wordOf i] ∨ ∃ s e w, i = .ext s e w ∧ encode i = [mkWord 1#1 s 1#2 0x3F#6 e, w]

theorem iadd (s : BitVec 2) (d a b : BitVec 7) : Statement (.iadd s d a b) := .inr (.inl rfl)
theorem isub (s : BitVec 2) (d a b : BitVec 7) : Statement (.isub s d a b) := .inr (.inl rfl)
theorem imul (s : BitVec 2) (d a b : BitVec 7) : Statement (.imul s d a b) := .inr (.inl rfl)
theorem imulhi (s : BitVec 2) (d a b : BitVec 7) : Statement (.imulhi s d a b) := .inr (.inl rfl)
theorem nmulhi (s : BitVec 2) (d a b : BitVec 7) : Statement (.nmulhi s d a b) := .inr (.inl rfl)
theorem imad (s : BitVec 2) (d a b : BitVec 7) : Statement (.imad s d a b) := .inr (.inl rfl)
theorem and (s : BitVec 2) (d a b : BitVec 7) : Statement (.and s d a b) := .inr (.inl rfl)
theorem or (s : BitVec 2) (d a b : BitVec 7) : Statement (.or s d a b) := .inr (.inl rfl)
theorem xor (s : BitVec 2) (d a b : BitVec 7) : Statement (.xor s d a b) := .inr (.inl rfl)
theorem andn (s : BitVec 2) (d a b : BitVec 7) : Statement (.andn s d a b) := .inr (.inl rfl)
theorem shl (s : BitVec 2) (d a b : BitVec 7) : Statement (.shl s d a b) := .inr (.inl rfl)
theorem shr (s : BitVec 2) (d a b : BitVec 7) : Statement (.shr s d a b) := .inr (.inl rfl)
theorem sar (s : BitVec 2) (d a b : BitVec 7) : Statement (.sar s d a b) := .inr (.inl rfl)
theorem rotl (s : BitVec 2) (d a b : BitVec 7) : Statement (.rotl s d a b) := .inr (.inl rfl)
theorem imin (s : BitVec 2) (d a b : BitVec 7) : Statement (.imin s d a b) := .inr (.inl rfl)
theorem imax (s : BitVec 2) (d a b : BitVec 7) : Statement (.imax s d a b) := .inr (.inl rfl)
theorem nmin (s : BitVec 2) (d a b : BitVec 7) : Statement (.nmin s d a b) := .inr (.inl rfl)
theorem nmax (s : BitVec 2) (d a b : BitVec 7) : Statement (.nmax s d a b) := .inr (.inl rfl)
theorem islt (s : BitVec 2) (d a b : BitVec 7) : Statement (.islt s d a b) := .inr (.inl rfl)
theorem isle (s : BitVec 2) (d a b : BitVec 7) : Statement (.isle s d a b) := .inr (.inl rfl)
theorem nslt (s : BitVec 2) (d a b : BitVec 7) : Statement (.nslt s d a b) := .inr (.inl rfl)
theorem nsle (s : BitVec 2) (d a b : BitVec 7) : Statement (.nsle s d a b) := .inr (.inl rfl)
theorem ieq (s : BitVec 2) (d a b : BitVec 7) : Statement (.ieq s d a b) := .inr (.inl rfl)
theorem ine (s : BitVec 2) (d a b : BitVec 7) : Statement (.ine s d a b) := .inr (.inl rfl)
theorem sel (s : BitVec 2) (d a b : BitVec 7) : Statement (.sel s d a b) := .inr (.inl rfl)
theorem fadd (s : BitVec 2) (d a b : BitVec 7) : Statement (.fadd s d a b) := .inr (.inl rfl)
theorem fsub (s : BitVec 2) (d a b : BitVec 7) : Statement (.fsub s d a b) := .inr (.inl rfl)
theorem fmul (s : BitVec 2) (d a b : BitVec 7) : Statement (.fmul s d a b) := .inr (.inl rfl)
theorem ffma (s : BitVec 2) (d a b : BitVec 7) : Statement (.ffma s d a b) := .inr (.inl rfl)
theorem fmin (s : BitVec 2) (d a b : BitVec 7) : Statement (.fmin s d a b) := .inr (.inl rfl)
theorem fmax (s : BitVec 2) (d a b : BitVec 7) : Statement (.fmax s d a b) := .inr (.inl rfl)
theorem fslt (s : BitVec 2) (d a b : BitVec 7) : Statement (.fslt s d a b) := .inr (.inl rfl)
theorem fsle (s : BitVec 2) (d a b : BitVec 7) : Statement (.fsle s d a b) := .inr (.inl rfl)
theorem fseq (s : BitVec 2) (d a b : BitVec 7) : Statement (.fseq s d a b) := .inr (.inl rfl)
theorem fsne (s : BitVec 2) (d a b : BitVec 7) : Statement (.fsne s d a b) := .inr (.inl rfl)
theorem fsun (s : BitVec 2) (d a b : BitVec 7) : Statement (.fsun s d a b) := .inr (.inl rfl)
theorem fldexp (s : BitVec 2) (d a b : BitVec 7) : Statement (.fldexp s d a b) := .inr (.inl rfl)
theorem badd2 (s : BitVec 2) (d a b : BitVec 7) : Statement (.badd2 s d a b) := .inr (.inl rfl)
theorem bmul2 (s : BitVec 2) (d a b : BitVec 7) : Statement (.bmul2 s d a b) := .inr (.inl rfl)
theorem bfma2 (s : BitVec 2) (d a b : BitVec 7) : Statement (.bfma2 s d a b) := .inr (.inl rfl)
theorem bdot2 (s : BitVec 2) (d a b : BitVec 7) : Statement (.bdot2 s d a b) := .inr (.inl rfl)
theorem iadd64 (s : BitVec 2) (d a b : BitVec 7) : Statement (.iadd64 s d a b) := .inr (.inl rfl)
theorem isub64 (s : BitVec 2) (d a b : BitVec 7) : Statement (.isub64 s d a b) := .inr (.inl rfl)
theorem imadw (s : BitVec 2) (d a b : BitVec 7) : Statement (.imadw s d a b) := .inr (.inl rfl)
theorem nmadw (s : BitVec 2) (d a b : BitVec 7) : Statement (.nmadw s d a b) := .inr (.inl rfl)
theorem shl64 (s : BitVec 2) (d a b : BitVec 7) : Statement (.shl64 s d a b) := .inr (.inl rfl)
theorem shr64 (s : BitVec 2) (d a b : BitVec 7) : Statement (.shr64 s d a b) := .inr (.inl rfl)
theorem shfl (s : BitVec 2) (d a b : BitVec 7) : Statement (.shfl s d a b) := .inr (.inl rfl)
theorem shflx (s : BitVec 2) (d a b : BitVec 7) : Statement (.shflx s d a b) := .inr (.inl rfl)
theorem shflu (s : BitVec 2) (d a b : BitVec 7) : Statement (.shflu s d a b) := .inr (.inl rfl)
theorem shfld (s : BitVec 2) (d a b : BitVec 7) : Statement (.shfld s d a b) := .inr (.inl rfl)
theorem iaddi (s : BitVec 2) (d a i : BitVec 7) : Statement (.iaddi s d a i) := .inr (.inl rfl)
theorem andi (s : BitVec 2) (d a i : BitVec 7) : Statement (.andi s d a i) := .inr (.inl rfl)
theorem ori (s : BitVec 2) (d a i : BitVec 7) : Statement (.ori s d a i) := .inr (.inl rfl)
theorem xori (s : BitVec 2) (d a i : BitVec 7) : Statement (.xori s d a i) := .inr (.inl rfl)
theorem shli (s : BitVec 2) (d a i : BitVec 7) : Statement (.shli s d a i) := .inr (.inl rfl)
theorem shri (s : BitVec 2) (d a i : BitVec 7) : Statement (.shri s d a i) := .inr (.inl rfl)
theorem sari (s : BitVec 2) (d a i : BitVec 7) : Statement (.sari s d a i) := .inr (.inl rfl)
theorem rotli (s : BitVec 2) (d a i : BitVec 7) : Statement (.rotli s d a i) := .inr (.inl rfl)
theorem islti (s : BitVec 2) (d a i : BitVec 7) : Statement (.islti s d a i) := .inr (.inl rfl)
theorem ieqi (s : BitVec 2) (d a i : BitVec 7) : Statement (.ieqi s d a i) := .inr (.inl rfl)
theorem shl64i (s : BitVec 2) (d a i : BitVec 7) : Statement (.shl64i s d a i) := .inr (.inl rfl)
theorem shr64i (s : BitVec 2) (d a i : BitVec 7) : Statement (.shr64i s d a i) := .inr (.inl rfl)
theorem add64i (s : BitVec 2) (d a i : BitVec 7) : Statement (.add64i s d a i) := .inr (.inl rfl)
theorem not (s : BitVec 2) (d a : BitVec 7) : Statement (.not s d a) := .inr (.inl rfl)
theorem neg (s : BitVec 2) (d a : BitVec 7) : Statement (.neg s d a) := .inr (.inl rfl)
theorem abs (s : BitVec 2) (d a : BitVec 7) : Statement (.abs s d a) := .inr (.inl rfl)
theorem clz (s : BitVec 2) (d a : BitVec 7) : Statement (.clz s d a) := .inr (.inl rfl)
theorem popc (s : BitVec 2) (d a : BitVec 7) : Statement (.popc s d a) := .inr (.inl rfl)
theorem brev (s : BitVec 2) (d a : BitVec 7) : Statement (.brev s d a) := .inr (.inl rfl)
theorem sext8 (s : BitVec 2) (d a : BitVec 7) : Statement (.sext8 s d a) := .inr (.inl rfl)
theorem sext16 (s : BitVec 2) (d a : BitVec 7) : Statement (.sext16 s d a) := .inr (.inl rfl)
theorem zext8 (s : BitVec 2) (d a : BitVec 7) : Statement (.zext8 s d a) := .inr (.inl rfl)
theorem zext16 (s : BitVec 2) (d a : BitVec 7) : Statement (.zext16 s d a) := .inr (.inl rfl)
theorem fneg (s : BitVec 2) (d a : BitVec 7) : Statement (.fneg s d a) := .inr (.inl rfl)
theorem fabs (s : BitVec 2) (d a : BitVec 7) : Statement (.fabs s d a) := .inr (.inl rfl)
theorem frcp (s : BitVec 2) (d a : BitVec 7) : Statement (.frcp s d a) := .inr (.inl rfl)
theorem frsq (s : BitVec 2) (d a : BitVec 7) : Statement (.frsq s d a) := .inr (.inl rfl)
theorem fsqrt (s : BitVec 2) (d a : BitVec 7) : Statement (.fsqrt s d a) := .inr (.inl rfl)
theorem fexp2 (s : BitVec 2) (d a : BitVec 7) : Statement (.fexp2 s d a) := .inr (.inl rfl)
theorem flog2 (s : BitVec 2) (d a : BitVec 7) : Statement (.flog2 s d a) := .inr (.inl rfl)
theorem fsin (s : BitVec 2) (d a : BitVec 7) : Statement (.fsin s d a) := .inr (.inl rfl)
theorem fcos (s : BitVec 2) (d a : BitVec 7) : Statement (.fcos s d a) := .inr (.inl rfl)
theorem ftanh (s : BitVec 2) (d a : BitVec 7) : Statement (.ftanh s d a) := .inr (.inl rfl)
theorem ferf (s : BitVec 2) (d a : BitVec 7) : Statement (.ferf s d a) := .inr (.inl rfl)
theorem ffloor (s : BitVec 2) (d a : BitVec 7) : Statement (.ffloor s d a) := .inr (.inl rfl)
theorem fceil (s : BitVec 2) (d a : BitVec 7) : Statement (.fceil s d a) := .inr (.inl rfl)
theorem ftrunc (s : BitVec 2) (d a : BitVec 7) : Statement (.ftrunc s d a) := .inr (.inl rfl)
theorem frint (s : BitVec 2) (d a : BitVec 7) : Statement (.frint s d a) := .inr (.inl rfl)
theorem cvtf (s : BitVec 2) (d a : BitVec 7) (f : BitVec 4) (r : BitVec 3) : Statement (.cvtf s d a f r) := .inr (.inl rfl)
theorem cvtt (s : BitVec 2) (d a : BitVec 7) (f : BitVec 4) : Statement (.cvtt s d a f) := .inr (.inl rfl)
theorem cvti (s : BitVec 2) (d a : BitVec 7) (k : BitVec 4) (r : BitVec 3) : Statement (.cvti s d a k r) := .inr (.inl rfl)
theorem pack (s : BitVec 2) (d a : BitVec 7) (w : BitVec 2) (e : BitVec 3) : Statement (.pack s d a w e) := .inr (.inl rfl)
theorem unpk (s : BitVec 2) (d a : BitVec 7) (w : BitVec 2) (e : BitVec 3) : Statement (.unpk s d a w e) := .inr (.inl rfl)
theorem qcvt (s : BitVec 2) (d a : BitVec 7) (f : BitVec 4) (r : BitVec 3) : Statement (.qcvt s d a f r) := .inr (.inl rfl)
theorem bmaxa (s : BitVec 2) (d a i : BitVec 7) : Statement (.bmaxa s d a i) := .inr (.inl rfl)
theorem scalef (s : BitVec 2) (d a : BitVec 7) (f : BitVec 4) : Statement (.scalef s d a f) := .inr (.inl rfl)
theorem rand (s : BitVec 2) (d a : BitVec 7) (e : BitVec 2) (k : BitVec 5) : Statement (.rand s d a e k) := .inr (.inl rfl)
theorem movi (s : BitVec 2) (d : BitVec 7) (i : BitVec 14) : Statement (.movi s d i) := .inr (.inl rfl)
theorem rds (s : BitVec 2) (d : BitVec 7) (i : BitVec 14) : Statement (.rds s d i) := .inr (.inl rfl)
theorem ld (s : BitVec 2) (d o : BitVec 7) (a : BitVec 4) (z : BitVec 3) : Statement (.ld s d o a z) := .inr (.inl rfl)
theorem lds (s : BitVec 2) (d o : BitVec 7) (a : BitVec 4) (z : BitVec 3) : Statement (.lds s d o a z) := .inr (.inl rfl)
theorem st (s : BitVec 2) (d o : BitVec 7) (a : BitVec 4) (z : BitVec 3) : Statement (.st s d o a z) := .inr (.inl rfl)
theorem ldk (s : BitVec 2) (d o : BitVec 7) (a : BitVec 4) (z : BitVec 3) : Statement (.ldk s d o a z) := .inr (.inl rfl)
theorem ldga (s : BitVec 2) (d o : BitVec 7) (a : BitVec 4) (z : BitVec 3) : Statement (.ldga s d o a z) := .inr (.inl rfl)
theorem pref (s : BitVec 2) (o : BitVec 7) (a : BitVec 4) (z : BitVec 3) : Statement (.pref s o a z) := .inr (.inl rfl)
theorem ldx (s : BitVec 2) (d o : BitVec 7) (a : BitVec 4) (z : BitVec 3) : Statement (.ldx s d o a z) := .inr (.inl rfl)
theorem stx (s : BitVec 2) (d o : BitVec 7) (a : BitVec 4) (z : BitVec 3) : Statement (.stx s d o a z) := .inr (.inl rfl)
theorem ldl (s : BitVec 2) (d o : BitVec 7) (a : BitVec 4) (z : BitVec 3) : Statement (.ldl s d o a z) := .inr (.inl rfl)
theorem stl (s : BitVec 2) (d o : BitVec 7) (a : BitVec 4) (z : BitVec 3) : Statement (.stl s d o a z) := .inr (.inl rfl)
theorem ldw (s : BitVec 2) (d o : BitVec 7) (a : BitVec 4) : Statement (.ldw s d o a) := .inr (.inl rfl)
theorem ldc (s : BitVec 2) (d o : BitVec 7) (a : BitVec 4) : Statement (.ldc s d o a) := .inr (.inl rfl)
theorem stf (s : BitVec 2) (d o : BitVec 7) (a : BitVec 4) : Statement (.stf s d o a) := .inr (.inl rfl)
theorem stfs (s : BitVec 2) (d o : BitVec 7) (a : BitVec 4) : Statement (.stfs s d o a) := .inr (.inl rfl)
theorem feset (s : BitVec 2) (d o : BitVec 7) (a : BitVec 4) : Statement (.feset s d o a) := .inr (.inl rfl)
theorem feget (s : BitVec 2) (d o : BitVec 7) (a : BitVec 4) : Statement (.feget s d o a) := .inr (.inl rfl)
theorem atadd (s : BitVec 2) (d o : BitVec 7) (a : BitVec 4) (z : BitVec 3) : Statement (.atadd s d o a z) := .inr (.inl rfl)
theorem atmin (s : BitVec 2) (d o : BitVec 7) (a : BitVec 4) (z : BitVec 3) : Statement (.atmin s d o a z) := .inr (.inl rfl)
theorem atmax (s : BitVec 2) (d o : BitVec 7) (a : BitVec 4) (z : BitVec 3) : Statement (.atmax s d o a z) := .inr (.inl rfl)
theorem atand (s : BitVec 2) (d o : BitVec 7) (a : BitVec 4) (z : BitVec 3) : Statement (.atand s d o a z) := .inr (.inl rfl)
theorem ator (s : BitVec 2) (d o : BitVec 7) (a : BitVec 4) (z : BitVec 3) : Statement (.ator s d o a z) := .inr (.inl rfl)
theorem atxor (s : BitVec 2) (d o : BitVec 7) (a : BitVec 4) (z : BitVec 3) : Statement (.atxor s d o a z) := .inr (.inl rfl)
theorem atxch (s : BitVec 2) (d o : BitVec 7) (a : BitVec 4) (z : BitVec 3) : Statement (.atxch s d o a z) := .inr (.inl rfl)
theorem atcas (s : BitVec 2) (d o : BitVec 7) (a : BitVec 4) (z : BitVec 3) : Statement (.atcas s d o a z) := .inr (.inl rfl)
theorem redadd (s : BitVec 2) (d o : BitVec 7) (a : BitVec 4) (z : BitVec 3) : Statement (.redadd s d o a z) := .inr (.inl rfl)
theorem redmin (s : BitVec 2) (d o : BitVec 7) (a : BitVec 4) (z : BitVec 3) : Statement (.redmin s d o a z) := .inr (.inl rfl)
theorem redmax (s : BitVec 2) (d o : BitVec 7) (a : BitVec 4) (z : BitVec 3) : Statement (.redmax s d o a z) := .inr (.inl rfl)
theorem redand (s : BitVec 2) (d o : BitVec 7) (a : BitVec 4) (z : BitVec 3) : Statement (.redand s d o a z) := .inr (.inl rfl)
theorem redor (s : BitVec 2) (d o : BitVec 7) (a : BitVec 4) (z : BitVec 3) : Statement (.redor s d o a z) := .inr (.inl rfl)
theorem redxor (s : BitVec 2) (d o : BitVec 7) (a : BitVec 4) (z : BitVec 3) : Statement (.redxor s d o a z) := .inr (.inl rfl)
theorem append (s : BitVec 2) (d o : BitVec 7) (a : BitVec 4) (z : BitVec 3) : Statement (.append s d o a z) := .inr (.inl rfl)
theorem appendt (s : BitVec 2) (d o : BitVec 7) (a : BitVec 4) (z : BitVec 3) : Statement (.appendt s d o a z) := .inr (.inl rfl)
theorem latadd (s : BitVec 2) (d o : BitVec 7) (a : BitVec 4) (z : BitVec 3) : Statement (.latadd s d o a z) := .inr (.inl rfl)
theorem latmin (s : BitVec 2) (d o : BitVec 7) (a : BitVec 4) (z : BitVec 3) : Statement (.latmin s d o a z) := .inr (.inl rfl)
theorem latmax (s : BitVec 2) (d o : BitVec 7) (a : BitVec 4) (z : BitVec 3) : Statement (.latmax s d o a z) := .inr (.inl rfl)
theorem latcas (s : BitVec 2) (d o : BitVec 7) (a : BitVec 4) (z : BitVec 3) : Statement (.latcas s d o a z) := .inr (.inl rfl)
theorem bra (s : BitVec 2) (i : BitVec 21) : Statement (.bra s i) := .inr (.inl rfl)
theorem bnz (s : BitVec 2) (c : BitVec 7) (i : BitVec 14) : Statement (.bnz s c i) := .inr (.inl rfl)
theorem bz (s : BitVec 2) (c : BitVec 7) (i : BitVec 14) : Statement (.bz s c i) := .inr (.inl rfl)
theorem call (s : BitVec 2) (i : BitVec 21) : Statement (.call s i) := .inr (.inl rfl)
theorem callr (s : BitVec 2) (a : BitVec 7) : Statement (.callr s a) := .inr (.inl rfl)
theorem ret (s : BitVec 2) : Statement (.ret s) := .inr (.inl rfl)
theorem jmpr (s : BitVec 2) (a : BitVec 7) : Statement (.jmpr s a) := .inr (.inl rfl)
theorem meet (s : BitVec 2) (i : BitVec 21) : Statement (.meet s i) := .inr (.inl rfl)
theorem exit (s : BitVec 2) : Statement (.exit s) := .inr (.inl rfl)
theorem trapl (s : BitVec 2) (i : BitVec 21) : Statement (.trapl s i) := .inr (.inl rfl)
theorem bkptl (s : BitVec 2) (i : BitVec 21) : Statement (.bkptl s i) := .inr (.inl rfl)
theorem nop (s : BitVec 2) : Statement (.nop s) := .inr (.inl rfl)
theorem gadd (s : BitVec 2) (d a b : BitVec 7) : Statement (.gadd s d a b) := .inr (.inl rfl)
theorem gsub (s : BitVec 2) (d a b : BitVec 7) : Statement (.gsub s d a b) := .inr (.inl rfl)
theorem gmul (s : BitVec 2) (d a b : BitVec 7) : Statement (.gmul s d a b) := .inr (.inl rfl)
theorem gmulhi (s : BitVec 2) (d a b : BitVec 7) : Statement (.gmulhi s d a b) := .inr (.inl rfl)
theorem gnmulhi (s : BitVec 2) (d a b : BitVec 7) : Statement (.gnmulhi s d a b) := .inr (.inl rfl)
theorem gand (s : BitVec 2) (d a b : BitVec 7) : Statement (.gand s d a b) := .inr (.inl rfl)
theorem gor (s : BitVec 2) (d a b : BitVec 7) : Statement (.gor s d a b) := .inr (.inl rfl)
theorem gxor (s : BitVec 2) (d a b : BitVec 7) : Statement (.gxor s d a b) := .inr (.inl rfl)
theorem gshl (s : BitVec 2) (d a b : BitVec 7) : Statement (.gshl s d a b) := .inr (.inl rfl)
theorem gshr (s : BitVec 2) (d a b : BitVec 7) : Statement (.gshr s d a b) := .inr (.inl rfl)
theorem gsar (s : BitVec 2) (d a b : BitVec 7) : Statement (.gsar s d a b) := .inr (.inl rfl)
theorem gmin (s : BitVec 2) (d a b : BitVec 7) : Statement (.gmin s d a b) := .inr (.inl rfl)
theorem gmax (s : BitVec 2) (d a b : BitVec 7) : Statement (.gmax s d a b) := .inr (.inl rfl)
theorem gnmin (s : BitVec 2) (d a b : BitVec 7) : Statement (.gnmin s d a b) := .inr (.inl rfl)
theorem gnmax (s : BitVec 2) (d a b : BitVec 7) : Statement (.gnmax s d a b) := .inr (.inl rfl)
theorem gslt (s : BitVec 2) (d a b : BitVec 7) : Statement (.gslt s d a b) := .inr (.inl rfl)
theorem gsle (s : BitVec 2) (d a b : BitVec 7) : Statement (.gsle s d a b) := .inr (.inl rfl)
theorem gnslt (s : BitVec 2) (d a b : BitVec 7) : Statement (.gnslt s d a b) := .inr (.inl rfl)
theorem gnsle (s : BitVec 2) (d a b : BitVec 7) : Statement (.gnsle s d a b) := .inr (.inl rfl)
theorem geq (s : BitVec 2) (d a b : BitVec 7) : Statement (.geq s d a b) := .inr (.inl rfl)
theorem gne (s : BitVec 2) (d a b : BitVec 7) : Statement (.gne s d a b) := .inr (.inl rfl)
theorem gsel (s : BitVec 2) (d a b : BitVec 7) : Statement (.gsel s d a b) := .inr (.inl rfl)
theorem gadd64 (s : BitVec 2) (d a b : BitVec 7) : Statement (.gadd64 s d a b) := .inr (.inl rfl)
theorem gsub64 (s : BitVec 2) (d a b : BitVec 7) : Statement (.gsub64 s d a b) := .inr (.inl rfl)
theorem gshl64 (s : BitVec 2) (d a b : BitVec 7) : Statement (.gshl64 s d a b) := .inr (.inl rfl)
theorem gshr64 (s : BitVec 2) (d a b : BitVec 7) : Statement (.gshr64 s d a b) := .inr (.inl rfl)
theorem gmadw (s : BitVec 2) (d a b : BitVec 7) : Statement (.gmadw s d a b) := .inr (.inl rfl)
theorem lballot (s : BitVec 2) (d a : BitVec 7) : Statement (.lballot s d a) := .inr (.inl rfl)
theorem lany (s : BitVec 2) (d a : BitVec 7) : Statement (.lany s d a) := .inr (.inl rfl)
theorem lall (s : BitVec 2) (d a : BitVec 7) : Statement (.lall s d a) := .inr (.inl rfl)
theorem lread (s : BitVec 2) (d a b : BitVec 7) : Statement (.lread s d a b) := .inr (.inl rfl)
theorem lwrite (s : BitVec 2) (d a b : BitVec 7) : Statement (.lwrite s d a b) := .inr (.inl rfl)
theorem lsum (s : BitVec 2) (d a : BitVec 7) : Statement (.lsum s d a) := .inr (.inl rfl)
theorem lfsum (s : BitVec 2) (d a : BitVec 7) : Statement (.lfsum s d a) := .inr (.inl rfl)
theorem lmax (s : BitVec 2) (d a : BitVec 7) : Statement (.lmax s d a) := .inr (.inl rfl)
theorem lmin (s : BitVec 2) (d a : BitVec 7) : Statement (.lmin s d a) := .inr (.inl rfl)
theorem lfmax (s : BitVec 2) (d a : BitVec 7) : Statement (.lfmax s d a) := .inr (.inl rfl)
theorem lpopc (s : BitVec 2) (d a : BitVec 7) : Statement (.lpopc s d a) := .inr (.inl rfl)
theorem lfirst (s : BitVec 2) (d a : BitVec 7) : Statement (.lfirst s d a) := .inr (.inl rfl)
theorem gfadd (s : BitVec 2) (d a b : BitVec 7) : Statement (.gfadd s d a b) := .inr (.inl rfl)
theorem gfmul (s : BitVec 2) (d a b : BitVec 7) : Statement (.gfmul s d a b) := .inr (.inl rfl)
theorem gffma (s : BitVec 2) (d a b : BitVec 7) : Statement (.gffma s d a b) := .inr (.inl rfl)
theorem gfmin (s : BitVec 2) (d a b : BitVec 7) : Statement (.gfmin s d a b) := .inr (.inl rfl)
theorem gfmax (s : BitVec 2) (d a b : BitVec 7) : Statement (.gfmax s d a b) := .inr (.inl rfl)
theorem gfslt (s : BitVec 2) (d a b : BitVec 7) : Statement (.gfslt s d a b) := .inr (.inl rfl)
theorem gmovi (s : BitVec 2) (d : BitVec 7) (i : BitVec 14) : Statement (.gmovi s d i) := .inr (.inl rfl)
theorem gaddi (s : BitVec 2) (d a i : BitVec 7) : Statement (.gaddi s d a i) := .inr (.inl rfl)
theorem gandi (s : BitVec 2) (d a i : BitVec 7) : Statement (.gandi s d a i) := .inr (.inl rfl)
theorem gori (s : BitVec 2) (d a i : BitVec 7) : Statement (.gori s d a i) := .inr (.inl rfl)
theorem gshli (s : BitVec 2) (d a i : BitVec 7) : Statement (.gshli s d a i) := .inr (.inl rfl)
theorem gshri (s : BitVec 2) (d a i : BitVec 7) : Statement (.gshri s d a i) := .inr (.inl rfl)
theorem glui (s : BitVec 2) (d : BitVec 7) (i : BitVec 14) : Statement (.glui s d i) := .inr (.inl rfl)
theorem grds (s : BitVec 2) (d : BitVec 7) (i : BitVec 14) : Statement (.grds s d i) := .inr (.inl rfl)
theorem gwrs (s : BitVec 2) (d : BitVec 7) (i : BitVec 14) : Statement (.gwrs s d i) := .inr (.inl rfl)
theorem ext (s : BitVec 2) (e : BitVec 21) (w : Word) : Statement (.ext s e w) := .inr (.inr ⟨_, _, _, rfl, rfl⟩)
theorem fence (s k : BitVec 2) (p : BitVec 3) (h : BitVec 4) : Statement (.fence s k p h) := .inr (.inl rfl)
theorem barWait (s : BitVec 2) (d a : BitVec 7) (n : BitVec 3) : Statement (.barWait s d a n) := .inr (.inl rfl)
theorem barArrive (s : BitVec 2) (d a : BitVec 7) (n : BitVec 3) : Statement (.barArrive s d a n) := .inr (.inl rfl)
theorem wait (s : BitVec 2) (d a b : BitVec 7) : Statement (.wait s d a b) := .inr (.inl rfl)
theorem yield (s : BitVec 2) : Statement (.yield s) := .inr (.inl rfl)
theorem gld (s : BitVec 2) (d : BitVec 7) (a : BitVec 4) (z : BitVec 3) (i : BitVec 7) : Statement (.gld s d a z i) := .inr (.inl rfl)
theorem gst (s : BitVec 2) (d : BitVec 7) (a : BitVec 4) (z : BitVec 3) (i : BitVec 7) : Statement (.gst s d a z i) := .inr (.inl rfl)
theorem gldk (s : BitVec 2) (d : BitVec 7) (a : BitVec 4) (z : BitVec 3) (i : BitVec 7) : Statement (.gldk s d a z i) := .inr (.inl rfl)
theorem gatom (s : BitVec 2) (d : BitVec 7) (a : BitVec 4) (z : BitVec 3) (p : BitVec 4) : Statement (.gatom s d a z p) := .inr (.inl rfl)
theorem cpy (s : BitVec 2) (d a : BitVec 7) : Statement (.cpy s d a) := .inr (.inl rfl)
theorem cpyq (s : BitVec 2) (d a : BitVec 7) : Statement (.cpyq s d a) := .inr (.inl rfl)
theorem cpystat (s : BitVec 2) (d a : BitVec 7) : Statement (.cpystat s d a) := .inr (.inl rfl)
theorem jpost (s : BitVec 2) (d a b : BitVec 7) : Statement (.jpost s d a b) := .inr (.inl rfl)
theorem sealPage (s : BitVec 2) (d a : BitVec 7) : Statement (.sealPage s d a) := .inr (.inl rfl)
theorem txbegin (s : BitVec 2) (d a : BitVec 7) (l : BitVec 3) : Statement (.txbegin s d a l) := .inr (.inl rfl)
theorem txcommit (s : BitVec 2) (d : BitVec 7) : Statement (.txcommit s d) := .inr (.inl rfl)
theorem txcommitForce (s : BitVec 2) (d : BitVec 7) : Statement (.txcommitForce s d) := .inr (.inl rfl)
theorem txabort (s : BitVec 2) : Statement (.txabort s) := .inr (.inl rfl)
theorem txstat (s : BitVec 2) (d : BitVec 7) (e : BitVec 2) : Statement (.txstat s d e) := .inr (.inl rfl)
theorem ttload (s : BitVec 2) (d a b : BitVec 7) : Statement (.ttload s d a b) := .inr (.inl rfl)
theorem ttset (s : BitVec 2) (f a b : BitVec 7) : Statement (.ttset s f a b) := .inr (.inl rfl)
theorem setpk (s : BitVec 2) (a b : BitVec 7) : Statement (.setpk s a b) := .inr (.inl rfl)
theorem getpk (s : BitVec 2) (d : BitVec 7) (e : BitVec 1) : Statement (.getpk s d e) := .inr (.inl rfl)
theorem rdtime (s : BitVec 2) (d : BitVec 7) : Statement (.rdtime s d) := .inr (.inl rfl)
theorem digest (s : BitVec 2) (d : BitVec 7) : Statement (.digest s d) := .inr (.inl rfl)
theorem digestFold (s : BitVec 2) (d a : BitVec 7) : Statement (.digestFold s d a) := .inr (.inl rfl)
theorem gbra (s : BitVec 2) (i : BitVec 21) : Statement (.gbra s i) := .inr (.inl rfl)
theorem gbnz (s : BitVec 2) (c : BitVec 7) (i : BitVec 14) : Statement (.gbnz s c i) := .inr (.inl rfl)
theorem gbz (s : BitVec 2) (c : BitVec 7) (i : BitVec 14) : Statement (.gbz s c i) := .inr (.inl rfl)
theorem gexit (s : BitVec 2) : Statement (.gexit s) := .inr (.inl rfl)
theorem trap (s : BitVec 2) (i : BitVec 21) : Statement (.trap s i) := .inr (.inl rfl)
theorem trapret (s : BitVec 2) : Statement (.trapret s) := .inr (.inl rfl)
theorem bkpt (s : BitVec 2) (i : BitVec 21) : Statement (.bkpt s i) := .inr (.inl rfl)
theorem gnop (s : BitVec 2) : Statement (.gnop s) := .inr (.inl rfl)
theorem mloadb (s : BitVec 2) (b : BitVec 5) (q : BitVec 4) (l : BitVec 1) : Statement (.mloadb s b q l) := .inr (.inl rfl)
theorem mloop (s : BitVec 2) (c : BitVec 3) (q : BitVec 4) (l : BitVec 1) (b n : BitVec 5) (z : BitVec 1) : Statement (.mloop s c q l b n z) := .inr (.inl rfl)
theorem mloopg (s : BitVec 2) (c : BitVec 3) (q : BitVec 4) (l : BitVec 1) (b n : BitVec 5) (z : BitVec 1) : Statement (.mloopg s c q l b n z) := .inr (.inl rfl)
theorem mfence (s : BitVec 2) (m : BitVec 8) (b h : BitVec 1) : Statement (.mfence s m b h) := .inr (.inl rfl)
theorem mzero (s : BitVec 2) (c : BitVec 3) : Statement (.mzero s c) := .inr (.inl rfl)
theorem mstore (s : BitVec 2) (c : BitVec 3) (q : BitVec 4) (r : BitVec 3) (t : BitVec 1) : Statement (.mstore s c q r t) := .inr (.inl rfl)
theorem mread (s : BitVec 2) (d : BitVec 7) (c : BitVec 3) (a : BitVec 7) : Statement (.mread s d c a) := .inr (.inl rfl)
theorem mwrite (s : BitVec 2) (d : BitVec 7) (c : BitVec 3) (a : BitVec 7) : Statement (.mwrite s d c a) := .inr (.inl rfl)
theorem mstat (s : BitVec 2) (d : BitVec 7) : Statement (.mstat s d) := .inr (.inl rfl)
theorem deviceQueueTake : Statement .deviceQueueTake := .inl rfl
theorem clusterQueueTake (cluster : Nat) : Statement (.clusterQueueTake cluster) := .inl rfl
theorem teamPlace (launch core : Nat) : Statement (.teamPlace launch core) := .inl rfl
theorem groupRestore (group core : Nat) : Statement (.groupRestore group core) := .inl rfl
theorem preemptionRequest (group : Nat) : Statement (.preemptionRequest group) := .inl rfl
theorem groupEvict (group : Nat) : Statement (.groupEvict group) := .inl rfl
theorem pendingWriteLands (req lease : Nat) : Statement (.pendingWriteLands req lease) := .inl rfl
theorem sliceStorePerform (req part : Nat) : Statement (.sliceStorePerform req part) := .inl rfl
theorem sliceAtomicPerform (req : Nat) : Statement (.sliceAtomicPerform req) := .inl rfl
theorem sliceAppendPerform (req : Nat) : Statement (.sliceAppendPerform req) := .inl rfl
theorem sliceSealPerform (req : Nat) : Statement (.sliceSealPerform req) := .inl rfl
theorem sliceFeAccess (req : Nat) : Statement (.sliceFeAccess req) := .inl rfl
theorem leaseExpiry (copy : Nat) : Statement (.leaseExpiry copy) := .inl rfl
theorem groupStarved (group : Nat) : Statement (.groupStarved group) := .inl rfl
theorem waitTimeout (group wait : Nat) : Statement (.waitTimeout group wait) := .inl rfl
theorem waitPoll (group wait : Nat) : Statement (.waitPoll group wait) := .inl rfl
theorem fePollTry (req : Nat) : Statement (.fePollTry req) := .inl rfl
theorem feTimeout (req : Nat) : Statement (.feTimeout req) := .inl rfl
theorem gatePoll (launch gate : Nat) : Statement (.gatePoll launch gate) := .inl rfl
theorem placementWaitExpiry (launch core : Nat) : Statement (.placementWaitExpiry launch core) := .inl rfl
theorem launchQuiet (launch : Nat) : Statement (.launchQuiet launch) := .inl rfl
theorem haltAtBoundary (core slot : Nat) : Statement (.haltAtBoundary core slot) := .inl rfl
theorem carterStart (cmd carter : Nat) : Statement (.carterStart cmd carter) := .inl rfl
theorem carterPayloadComplete (carter : Nat) : Statement (.carterPayloadComplete carter) := .inl rfl
theorem carterCompletionWord (carter : Nat) : Statement (.carterCompletionWord carter) := .inl rfl
theorem carterPoison (carter : Nat) : Statement (.carterPoison carter) := .inl rfl
theorem loomStepGrant (cmd k : Nat) : Statement (.loomStepGrant cmd k) := .inl rfl
theorem loomCommandRetire (cmd : Nat) : Statement (.loomCommandRetire cmd) := .inl rfl
theorem txPreemptExpiry (group : Nat) : Statement (.txPreemptExpiry group) := .inl rfl
theorem overflowInterval (core acc gain loss ovd : Nat) : Statement (.overflowInterval core acc gain loss ovd) := .inl rfl
theorem hardwarePrefetch (group : Nat) (access : OwnAccess) (va : DWord) (lease : Nat) : Statement (.hardwarePrefetch group access va lease) := .inl rfl
theorem replicaDrop (die page : Nat) : Statement (.replicaDrop die page) := .inl rfl
theorem peerRequestArrive (op : PeerOp) : Statement (.peerRequestArrive op) := .inl rfl
theorem peerTimeout (req : Nat) : Statement (.peerTimeout req) := .inl rfl
theorem myentRead (pa n : Nat) : Statement (.myentRead pa n) := .inl rfl
theorem myentPostedWrite (pa : Nat) (data : List Byte) : Statement (.myentPostedWrite pa data) := .inl rfl
theorem myentFetchAdd (pa : Nat) (add : DWord) : Statement (.myentFetchAdd pa add) := .inl rfl
theorem myentCompareAndSwap (pa : Nat) (cmp new : DWord) : Statement (.myentCompareAndSwap pa cmp new) := .inl rfl
theorem queueTailWrite (queue : Nat) (tail : Half) : Statement (.queueTailWrite queue tail) := .inl rfl
theorem queueEnable (queue : Nat) (flags : DWord) : Statement (.queueEnable queue flags) := .inl rfl
theorem kill (v : Word) : Statement (.kill v) := .inl rfl
theorem cartrel (v : Word) : Statement (.cartrel v) := .inl rfl
theorem resdone (v : Word) : Statement (.resdone v) := .inl rfl
theorem freepg (die : Nat) (v : DWord) : Statement (.freepg die v) := .inl rfl
theorem freePageDone (die : Nat) : Statement (.freePageDone die) := .inl rfl
theorem l2quota (die : Nat) (v : Word) : Statement (.l2quota die v) := .inl rfl
theorem assayclr (v : Word) : Statement (.assayclr v) := .inl rfl
theorem assayTableEmpty : Statement .assayTableEmpty := .inl rfl
theorem haltreq (core slot : Nat) (v : Word) : Statement (.haltreq core slot v) := .inl rfl
theorem groupResume (core slot : Nat) : Statement (.groupResume core slot) := .inl rfl
theorem frozenRelease (core slot : Nat) : Statement (.frozenRelease core slot) := .inl rfl
theorem clkctl (by_ : Agent) (cluster : Nat) (v : Word) : Statement (.clkctl by_ cluster v) := .inl rfl
theorem clockChangeApply (cluster : Nat) : Statement (.clockChangeApply cluster) := .inl rfl
theorem droopDetect (cluster : Nat) : Statement (.droopDetect cluster) := .inl rfl
theorem droopFloorRelease (cluster : Nat) : Statement (.droopFloorRelease cluster) := .inl rfl
theorem currentInterval (cluster average : Nat) : Statement (.currentInterval cluster average) := .inl rfl
theorem thermalLevelChange (cluster celsius : Nat) : Statement (.thermalLevelChange cluster celsius) := .inl rfl
theorem smhb (by_ : Agent) (die : Nat) (v : Word) : Statement (.smhb by_ die v) := .inl rfl
theorem smctl (by_ : Agent) (die : Nat) (v : Word) : Statement (.smctl by_ die v) := .inl rfl
theorem watchdogExpiry (die : Nat) : Statement (.watchdogExpiry die) := .inl rfl
theorem railStepUp (cluster : Nat) : Statement (.railStepUp cluster) := .inl rfl
theorem guardBandDown (cluster : Nat) : Statement (.guardBandDown cluster) := .inl rfl
theorem migreq (by_ : Agent) (die : Nat) (v : Word) : Statement (.migreq by_ die v) := .inl rfl
theorem ueSend (queue : Nat) : Statement (.ueSend queue) := .inl rfl
theorem ueTaggedSend (queue : Nat) : Statement (.ueTaggedSend queue) := .inl rfl
theorem uePut (queue : Nat) : Statement (.uePut queue) := .inl rfl
theorem ueGet (queue : Nat) : Statement (.ueGet queue) := .inl rfl
theorem uePostTaggedReceive (queue : Nat) : Statement (.uePostTaggedReceive queue) := .inl rfl
theorem uePostReceive (queue : Nat) : Statement (.uePostReceive queue) := .inl rfl
theorem uePacketArrive (packet : UePacket) : Statement (.uePacketArrive packet) := .inl rfl
theorem ueCardComplete (card : Nat) (outcome : UeOutcome) : Statement (.ueCardComplete card outcome) := .inl rfl
theorem correctedError (place : ErrorPlace) : Statement (.correctedError place) := .inl rfl
theorem uncorrectableError (place : ErrorPlace) : Statement (.uncorrectableError place) := .inl rfl
theorem patrolScrub : Statement .patrolScrub := .inl rfl
theorem reset : Statement .reset := .inl rfl
theorem stageAReady (fcode : Nat) (fwver : Word) : Statement (.stageAReady fcode fwver) := .inl rfl
theorem bootctl (v : DWord) : Statement (.bootctl v) := .inl rfl
theorem stageBComplete (fcode : Nat) (fwver : Word) : Statement (.stageBComplete fcode fwver) := .inl rfl
theorem attctl (v : Word) : Statement (.attctl v) := .inl rfl
theorem attestationReportReady : Statement .attestationReportReady := .inl rfl
theorem registerWrite (by_ : Agent) (pa : Nat) (data : List Byte) : Statement (.registerWrite by_ pa data) := .inl rfl
theorem reservedSlot (w : Word) : Statement (.reservedSlot w) := .inr (.inl rfl)
theorem loomStepRetire (cmd k : Nat) : Statement (.loomStepRetire cmd k) := .inl rfl
theorem peerAcknowledgement (req : Nat) : Statement (.peerAcknowledgement req) := .inl rfl
theorem hostAcknowledgement (req : Nat) : Statement (.hostAcknowledgement req) := .inl rfl
theorem linkLevelRetry : Statement .linkLevelRetry := .inl rfl

end Sys2Proof.Laws.WordCount
end

