-- ==== Sys2Proof/Laws/Waits.lean ====
section
/-! SUPPORT. What the end of a wait does to its group, and the frames of the small operations over waits, caches and requests, once for each. -/

namespace Sys2Proof.Machine

/-! ### A wait ends (R175, R218) -/

/-- With no handler open a blocked issue set goes on at once. -/
theorem Group.goOn_closed {g : Group} (h : g.handler = false) (id : Nat) : g.goOn id = g.unblock id := by
  simp [Group.goOn, h]

/-- With a handler open every thread stays where it is, and the block becomes one that TRAPRET ends. -/
theorem Group.goOn_open {g : Group} (h : g.handler = true) (id : Nat) :
    g.goOn id = { g with blocks := Tab.modify g.blocks id (fun b => { b with kind := .over }) } := by
  simp [Group.goOn, h]

/-- A thread of an issue set that goes on runs behind its instruction. -/
theorem Group.thread_unblock {g : Group} {id l : Nat} {b : Block} (hb : Tab.get? g.blocks id = some b) (hl : (g.thread l).wait = .block id)
    (hk : l < g.threads.length) : (g.unblock id).thread l = { g.thread l with wait := .run, pc := b.next } := by
  have hw : (g.threads[l]).wait = .block id := by simpa [Group.thread, List.getD_eq_getElem?_getD, hk] using hl
  simp [Group.unblock, hb, Group.thread, List.getD_eq_getElem?_getD, hk, hw]

/-- Whatever a wait's end does, it writes no register. -/
theorem sameRegs_goOn (g : Group) (id : Nat) : SameRegs g (g.goOn id) := by
  unfold Group.goOn
  split
  · exact ⟨fun _ _ => rfl, rfl, fun _ => rfl, rfl⟩
  · exact sameRegs_unblock g id

/-- With no handler open every thread that waited at a slice goes on. -/
theorem Group.passLanes_closed {g : Group} (h : g.handler = false) (id : Nat) (lanes : LaneSet) (next : DWord) :
    g.passLanes id lanes next = g.modLanes lanes (fun _ t => { t with wait := .run, pc := next }) := by
  have e : lanes &&& ~~~(0#64) = lanes := by rw [BitVec.not_zero, BitVec.and_allOnes]
  simp only [Group.passLanes, h, Bool.false_eq_true, if_false, if_true, e]

/-! ### Frames -/

/-- A copy that leaves a cache changes the copies and the count of free values. -/
theorem dropOne_eq (h : Holder) (s : State) : dropOne h s = { s with copies := (dropOne h s).copies, free := (dropOne h s).free } := rfl

theorem makeRoom_eq (h : Holder) (s : State) : makeRoom h s = { s with copies := (makeRoom h s).copies, free := (makeRoom h s).free } := by
  have go : ∀ (ks : List Nat) (t : State), ks.foldl (fun s _ => dropOne h s) t
      = { t with copies := (ks.foldl (fun s _ => dropOne h s) t).copies, free := (ks.foldl (fun s _ => dropOne h s) t).free } := by
    intro ks
    induction ks with
    | nil => intro t; rfl
    | cons k ks ih => intro t; rw [List.foldl_cons, ih]; rfl
  unfold makeRoom
  split
  · exact go _ s
  · rfl

/-- A cache with room keeps its copies. -/
theorem makeRoom_of_lt {h : Holder} {s : State} (hr : ∀ m, h.room s = some m → (copiesOf s h).length < m) : makeRoom h s = s := by
  unfold makeRoom
  split
  · rename_i n hn
    rw [Nat.sub_eq_zero_of_le (hr n hn)]; rfl
  · rfl

/-- Marking the words of an instruction changes the requests alone. -/
theorem markSure_eq (r : Req) (s : State) : markSure r s = { s with reqs := (markSure r s).reqs } := by
  unfold markSure
  generalize siblings s r = es
  induction es generalizing s with
  | nil => rfl
  | cons e es ih =>
    rw [List.foldl_cons, ih]
    split <;> rfl

/-- Where no instruction has passed its last check, an error finds every word as it stands (R100, R389). -/
theorem settleSure_of_none {hit : Nat → Bool} {s : State} (h : ∀ e ∈ s.reqs, e.2.sure = false) : settleSure hit s = s := by
  unfold settleSure
  have : ∀ (es : List (Nat × Req)) (t : State), (∀ e ∈ es, e.2.sure = false) →
      es.foldl (fun s e => if e.2.sure && e.2.kind.joint && e.2.kind.spans.any (fun x => hit (x.1 / 8)) then
        match e.2.kind with
        | .atomic op ty va pa ops reg => performAtomic e.1 e.2 op ty va pa ops reg s
        | .fe kind lane va pa data reg _ => feAtSlice e.1 e.2 kind lane va pa data reg s
        | _ => s
      else s) t = t := by
    intro es
    induction es with
    | nil => intro t _; rfl
    | cons e es ih =>
      intro t ht
      rw [List.foldl_cons, if_neg (by simp [ht e List.mem_cons_self])]
      exact ih t (fun e' he' => ht e' (List.mem_cons_of_mem _ he'))
  exact this s.reqs s h

end Sys2Proof.Machine
end

