-- ==== Sys2Proof/Tests/Slice0.lean ====
section
/-! SUPPORT. Tests of the model: ill-formed terms that WellFormed refuses, words of the spec that decode to their instructions, single steps on a small state, and
for every statement a state and operands that meet its hypotheses. -/

namespace Sys2Proof.Tests

open Sys2Proof Sys2Proof.Machine Sys2Proof.Machine.Says

set_option maxRecDepth 20000
set_option exponentiation.threshold 4096

/-! ### Small states -/

/-- One word in place of a program: core 0, group 1 of 16 threads at 0x1_0000, everything else as reset leaves it. -/
def wordAt (w : Word) : State := State.reset.withFetchWord 32 w.toNat

/-- The word of an instruction in place of a program, with the group changed. -/
def put (i : Instr) (f : Group → Group) : State := (wordAt (formOf i).word).modGroup 1 f

/-- One thread issues, 15 do not. -/
def oneLane (g : Group) : Group := { g with cur := 1#64 }
/-- A trap handler at 0x1_8000. -/
def vec (g : Group) : Group := { g with trapvec := 0x18000#64 }
/-- A0 holds 0x1_8000, an address of the extent, so each lane's address of [A0 + V0] is that one. -/
def base (g : Group) : Group := g.setG 32 0x18000#32

/-- The group at the turn. -/
def grp (s : State) : Group := (Tab.get? s.groups 1).getD (newGroup s 1 (wordLaunch s) 1 0 0 0 0 0 0 0)

/-- The site at which a form issues. -/
def siteOn (f : Form) (p : Prefix) (s : State) : Site :=
  match siteOf s f.word p with
  | some x => x.1
  | none => { gid := 0, lanes := 0#64, pc := 0#64, next := 0#64, word := 0#32, pfx := none }
def site (i : Instr) (p : Prefix) (s : State) : Site := siteOn (formOf i) p s

/-- The conditions of an issue, as a test that evaluates, where no pop is owed. -/
def issuesB (f : Form) (p : Prefix) (s : State) : Bool :=
  decide (siteOf s f.word p = some (siteOn f p s, grp s)) && (haltDue s (grp s)).isNone && (pcMatch s (grp s) (siteOn f p s).pc (siteOn f p s).lanes).isNone
    && !suspended s (siteOn f p s).gid (grp s) && (owedPops s (siteOn f p s) (grp s)).isEmpty && (f.detail (shapeOf s (grp s))).isNone
    && (f.reads ++ f.writes).all (fun r => !(pendingRegs s (siteOn f p s).gid (grp s)).contains r) && !loomHeld s (siteOn f p s).gid (grp s).core
    && (shortDues (grp s) f.reads).isEmpty && (poisonedLanes s (grp s) (LaneSet.toList (siteOn f p s).lanes) f.reads).isEmpty

theorem issuesForm_of {f : Form} {p : Prefix} {s : State} (h : issuesB f p s = true) : IssuesForm f p s (siteOn f p s) (grp s) := by
  simp only [issuesB, Bool.and_eq_true, decide_eq_true_eq, Option.isNone_iff_eq_none, Bool.not_eq_true', List.isEmpty_iff, List.all_eq_true] at h
  obtain ⟨⟨⟨⟨⟨⟨⟨⟨⟨h1, h2⟩, h3⟩, h4⟩, h5⟩, h6⟩, h7⟩, h8⟩, h9⟩, h10⟩ := h
  exact ⟨h1, h2, h3, h4, by simp [h5], h6, fun r hr => by simpa using h7 r hr, h8, h9, h10⟩

theorem issues_of {i : Instr} {p : Prefix} {s : State} (h : issuesB (formOf i) p s = true) : Issues i p s (site i p s) (grp s) := issuesForm_of h

/-- What holds of every lane below 64 that a mask has, holds of every lane that it has. -/
theorem lanes_all {m : LaneSet} {P : Nat → Prop} [DecidablePred P] (h : (List.range 64).all (fun l => !m.has l || decide (P l)) = true) :
    ∀ l, m.has l = true → P l := by
  intro l hl
  by_cases h64 : l < 64
  · have := List.all_eq_true.1 h l (List.mem_range.2 h64)
    simpa [hl] using this
  · exfalso
    simp only [LaneSet.has] at hl
    rw [BitVec.getLsbD_of_ge _ _ (by omega)] at hl
    exact Bool.noConfusion hl

theorem unwatched_of {s : State} {g : Group} (h : (s.launch g.launch).debug = false) : Unwatched s g := by
  intro ts
  unfold dataMatch
  split
  · rfl
  · simp [h]

theorem noWaiters_of {s : State} (h : s.reqs = []) (hb : s.groups.all (fun e => e.2.blocks.isEmpty) = true) : NoWaiters s := by
  intro sector
  unfold waitersOf
  simp only [h, List.filterMap_nil, List.nil_append]
  rw [List.flatMap_eq_nil_iff.2]
  · rfl
  · intro e he
    have := List.all_eq_true.1 hb e he
    rw [List.isEmpty_iff] at this
    rw [this]; rfl

theorem noWaiters_reset : NoWaiters State.reset := noWaiters_of rfl rfl

/-! ### Witnesses: lane and uniform results -/

/-- V1 of lane 3 is −1 and V2 of it 2. -/
def ops (g : Group) : Group := (g.modThread 3 (fun t => (t.setV 1 0xFFFFFFFF#32).setV 2 2#32)).setG 3 7#32

theorem witness_LaneIntegerResults :
    let i := Instr.iadd 0#2 0#7 1#7 2#7
    let s := put i ops
    (laneInteger i (grp s)).isSome = true ∧ Issues i none s (site i none s) (grp s) := ⟨by decide, issues_of (by decide)⟩

/-- The widest destination pair that a group of 112 V registers has. -/
theorem witness_LaneIntegerResults_pair :
    let i := Instr.nmadw 3#2 110#7 1#7 2#7
    let s := put i ops
    (lanePair i (grp s)).isSome = true ∧ Issues i none s (site i none s) (grp s) := ⟨by decide, issues_of (by decide)⟩

theorem witness_LaneIntegerResults_unary :
    let i := Instr.clz 0#2 111#7 1#7
    let s := put i ops
    (laneUnary i (grp s)).isSome = true ∧ Issues i none s (site i none s) (grp s) := ⟨by decide, issues_of (by decide)⟩

theorem witness_LaneImmediateResults :
    let i := Instr.iaddi 0#2 0#7 1#7 0x40#7
    let s := put i ops
    (laneImmediate i none (grp s)).isSome = true ∧ Issues i none s (site i none s) (grp s) := ⟨by decide, issues_of (by decide)⟩

/-- The largest shift count. -/
theorem witness_LaneImmediateResults_shift :
    let i := Instr.shl64i 0#2 4#7 2#7 63#7
    let s := put i ops
    (laneShiftImmediate i (grp s)).isSome = true ∧ Issues i none s (site i none s) (grp s) := ⟨by decide, issues_of (by decide)⟩

theorem witness_ExtPairResults :
    let i := Instr.movi 0#2 1#7 0x1678#14
    let e := some 0x48D1#21
    let s := put i ops
    decodeDefined (wordOf i) = some i ∧ (laneImmediate i e (grp s)).isSome = true ∧ Issues i e s (site i e s) (grp s) :=
  ⟨by decide, by decide, issues_of (by decide)⟩

theorem witness_ExtPairResults_uniform :
    let i := Instr.gmovi 0#2 6#7 0x0F41#14
    let e := some 0x268F0#21
    let s := put i ops
    decodeDefined (wordOf i) = some i ∧ (uniformImmediate i e (grp s)).isSome = true ∧ Issues i e s (site i e s) (grp s) :=
  ⟨by decide, by decide, issues_of (by decide)⟩

theorem witness_LaneFloatResults :
    let i := Instr.ffma 2#2 3#7 4#7 5#7
    let s := put i ops
    (laneFloat i (grp s)).isSome = true ∧ Issues i none s (site i none s) (grp s) := ⟨by decide, issues_of (by decide)⟩

theorem witness_LaneFloatResults_bf16 :
    let i := Instr.bdot2 0#2 3#7 4#7 5#7
    let s := put i ops
    (laneBf16 i (grp s)).isSome = true ∧ Issues i none s (site i none s) (grp s) := ⟨by decide, issues_of (by decide)⟩

theorem witness_LaneFloatResults_convert :
    let i := Instr.cvtf 0#2 6#7 2#7 6#4 4#3
    let s := put i ops
    (laneConvert i (grp s)).isSome = true ∧ Issues i none s (site i none s) (grp s) := ⟨by decide, issues_of (by decide)⟩

theorem witness_LaneFunctionResults :
    let i := Instr.shflx 0#2 7#7 3#7 20#7
    let s := put i ops
    (laneFunction i (site i none s) (grp s)).isSome = true ∧ Issues i none s (site i none s) (grp s) := ⟨by decide, issues_of (by decide)⟩

theorem witness_UniformResults :
    let i := Instr.gmulhi 0#2 4#7 3#7 3#7
    let s := put i ops
    (uniform32 i (grp s)).isSome = true ∧ Issues i none s (site i none s) (grp s) := ⟨by decide, issues_of (by decide)⟩

theorem witness_UniformResults_wide :
    let i := Instr.gmadw 0#2 62#7 3#7 3#7
    let s := put i ops
    (uniformWide i (grp s)).isSome = true ∧ Issues i none s (site i none s) (grp s) := ⟨by decide, issues_of (by decide)⟩

theorem witness_UniformResults_immediate :
    let i := Instr.gaddi 0#2 20#7 20#7 0x7D#7
    let s := put i ops
    (uniformImmediate i none (grp s)).isSome = true ∧ Issues i none s (site i none s) (grp s) := ⟨by decide, issues_of (by decide)⟩

theorem witness_UniformResults_fixed :
    let i := Instr.glui 0#2 20#7 0x3FFF#14
    let s := put i ops
    (uniformFixed i (grp s)).isSome = true ∧ Issues i none s (site i none s) (grp s) := ⟨by decide, issues_of (by decide)⟩

/-! ### Witnesses: special registers, control, traps -/

theorem witness_SpecialRegisters_rds :
    let i := Instr.rds 0#2 4#7 0x0020#14
    let s := put i ops
    (∀ l, (special s (grp s) l 0x0020).isSome = true) ∧ Issues i none s (site i none s) (grp s) := ⟨fun _ => rfl, issues_of (by decide)⟩

theorem witness_SpecialRegisters_grds :
    let i := Instr.grds 0#2 4#7 0x0036#14
    let s := put i ops
    (special s (grp s) ((LaneSet.toList (site i none s).lanes).headD 0) 0x0036).isSome = true ∧ Issues i none s (site i none s) (grp s) :=
  ⟨rfl, issues_of (by decide)⟩

theorem witness_SpecialRegisters_gwrs :
    let i := Instr.gwrs 0#2 4#7 0x0030#14
    let s := put i ops
    Issues i none s (site i none s) (grp s) := issues_of (by decide)

theorem witness_QcvtWritesAndCounts :
    let i := Instr.qcvt 0#2 4#7 5#7 10#4 0#3
    let s := put i ops
    Issues i none s (site i none s) (grp s) := issues_of (by decide)

theorem witness_BranchesSetPc :
    let i := Instr.bnz 0#2 4#7 0x3FFD#14
    let s := put i ops
    (branch i none (site i none s) (grp s)).isSome = true ∧ Issues i none s (site i none s) (grp s) := ⟨by decide, issues_of (by decide)⟩

theorem witness_BranchesSetPc_prefix :
    let i := Instr.gbra 0#2 4#21
    let e := some 1#21
    let s := put i ops
    (branch i e (site i e s) (grp s)).isSome = true ∧ decodeDefined (wordOf i) = some i ∧ Issues i e s (site i e s) (grp s) :=
  ⟨by decide, by decide, issues_of (by decide)⟩

/-- Every lane pushes its return address, nothing spills. -/
theorem witness_CallsAndMeetPush :
    let i := Instr.call 0#2 10#21
    let s := put i id
    let g := grp s
    let at_ := site i none s
    (pushes i none at_ g).isSome = true ∧ Issues i none s at_ g ∧ Unwatched s g ∧ fullLanes at_ (poppedGroup s at_ g) = []
      ∧ spillWaits s at_.gid (poppedGroup s at_ g) [] = false :=
  ⟨by decide, issues_of (by decide), unwatched_of (by decide), by decide, by decide⟩

theorem witness_CallsAndMeetPush_meet :
    let i := Instr.meet 0#2 10#21
    let s := put i id
    let at_ := site i none s
    (pushes i none at_ (grp s)).isSome = true ∧ Issues i none s at_ (grp s) ∧ Unwatched s (grp s) ∧ fullLanes at_ (poppedGroup s at_ (grp s)) = [] :=
  ⟨by decide, issues_of (by decide), unwatched_of (by decide), by decide⟩

/-- The stacks of lanes 0 and 1, which issue, are full on the chip, and lane 1 has spilled an entry before. -/
def fullStacks (g : Group) : Group :=
  { g with cur := 3#64, threads := listMapIdx (fun l t => { t with stack := List.replicate 4 (mkEntry false 0x10008#64), spilled := l }) 0 g.threads }

/-- Slots of 32 bytes in the extent, the first at 0x1_8000. -/
def withSlots (s : State) : State := s.modLaunch 1 (fun l => { l with card := l.card ||| BitVec.ofNat 1024 (0x18000 * 2 ^ 512 + 32 * 2 ^ 576) })

/-- Both lanes spill, lane 1 at the second place of its slot. -/
theorem witness_CallsAndMeetPush_spill :
    let i := Instr.call 0#2 10#21
    let s := withSlots (put i fullStacks)
    let g1 := poppedGroup s (site i none s) (grp s)
    let l := s.launch (grp s).launch
    let pa := fun l => if l = 0 then 0x18000 else 0x18028
    Issues i none s (site i none s) (grp s) ∧ Unwatched s (grp s) ∧ NoWaiters s ∧ fullLanes (site i none s) g1 = [0, 1]
      ∧ (∀ k ∈ [0, 1], (g1.thread k).spilled * 8 < l.stksz ∧ checkSpill s g1 .store (slotAddr l (grp s) k (g1.thread k).spilled) = .ok (pa k))
      ∧ spillWaits s (site i none s).gid g1 ([0, 1].map (fun k => (k, pa k))) = false :=
  ⟨issues_of (by decide), unwatched_of (by decide), noWaiters_of (by decide) (by decide), by decide⟩

theorem witness_CallsAndMeetPush_callr :
    let i := Instr.callr 0#2 2#7
    let s := put i id
    let u := put i (fun g => vec (ops g))
    (Issues i none s (site i none s) (grp s) ∧ Unwatched s (grp s) ∧ (∀ l, (site i none s).lanes.has l = true → ((grp s).val64 l 2#7).toNat % 4 = 0))
      ∧ (Issues i none u (site i none u) (grp u) ∧ Unwatched u (grp u) ∧ (site i none u).lanes.has 3 = true ∧ ((grp u).val64 3 2#7).toNat % 4 ≠ 0
        ∧ (∀ l, l < 3 → (site i none u).lanes.has l = true → ((grp u).val64 l 2#7).toNat % 4 = 0) ∧ (grp u).handler = false ∧ (grp u).trapvec ≠ 0#64) :=
  ⟨⟨issues_of (by decide), unwatched_of (by decide), lanes_all (by decide)⟩, issues_of (by decide), unwatched_of (by decide), by decide⟩

/-- Every thread holds a return entry. -/
def called (g : Group) : Group := { g with threads := g.threads.map (fun t => { t with stack := [mkEntry false 0x10008#64] }) }

/-- The top entry of a lane's stack is a return entry whose reserved bits are 0. -/
def returns (s : State) (g : Group) (l : Nat) : Bool :=
  match topEntry s g l (g.thread l) with
  | .ok (some (e, _)) => !e.getLsbD 63 && e.extractLsb' 56 7 == 0#7
  | _ => false

theorem witness_RetPops :
    let i := Instr.ret 0#2
    let s := put i called
    let at_ := site i none s
    Issues i none s at_ (grp s) ∧ Unwatched s (grp s)
      ∧ (∀ l, at_.lanes.has l = true → returns s (poppedGroup s at_ (grp s)) l = true) :=
  ⟨issues_of (by decide), unwatched_of (by decide), lanes_all (by decide)⟩

/-- The entries of lanes 0 and 1 are in their spill slots. -/
theorem witness_RetPops_refill :
    let i := Instr.ret 0#2
    let s := (withSlots (put i (fun g => { g with cur := 3#64, threads := g.threads.map (fun t => { t with spilled := 1 }) }))).write 0x18000 40
      (0x10008 * (1 + 2 ^ 256))
    let at_ := site i none s
    let g1 := poppedGroup s at_ (grp s)
    Issues i none s at_ (grp s) ∧ Unwatched s (grp s) ∧ (∀ l, at_.lanes.has l = true → returns s g1 l = true)
      ∧ (((LaneSet.toList at_.lanes).filterMap (fun l => refillTouch s g1 l (g1.thread l))).filterMap (refillPa s g1)) = [(0, 0x18000), (1, 0x18020)]
      ∧ spillWaits s at_.gid g1 [(0, 0x18000), (1, 0x18020)] = false :=
  ⟨issues_of (by decide), unwatched_of (by decide), lanes_all (by decide), by decide⟩

theorem witness_ExitEndsThreads :
    let i := Instr.exit 0#2
    let s := put i oneLane
    Issues i none s (site i none s) (grp s)
      ∧ ∃ l, l < (grp s).threads.length ∧ (site i none s).lanes.has l = false ∧ ((grp s).thread l).live = true :=
  ⟨issues_of (by decide), 15, by decide⟩

theorem witness_ExitEndsThreads_last :
    let i := Instr.gexit 0#2
    let s := put i id
    Issues i none s (site i none s) (grp s)
      ∧ ∀ l, l < (grp s).threads.length → (site i none s).lanes.has l = false → ((grp s).thread l).live = false :=
  ⟨issues_of (by decide), by decide⟩

/-- D of 112, the first V register that no group has. -/
theorem witness_IllegalWordTraps :
    let i := Instr.iadd 0#2 112#7 0#7 0#7
    let s := put i vec
    (encode i).length = 1 ∧ siteOf s (wordOf i) none = some (site i none s, grp s) ∧ haltDue s (grp s) = none
      ∧ pcMatch s (grp s) (site i none s).pc (site i none s).lanes = none ∧ suspended s 1 (grp s) = false ∧ owedPops s (site i none s) (grp s) = []
      ∧ illegalDetail (shapeOf s (grp s)) i = some 2 ∧ (grp s).handler = false ∧ (grp s).trapvec ≠ 0#64 := by decide

theorem witness_IllegalWordTraps_reserved :
    let w := 0x03200000#32
    let i := Instr.reservedSlot w
    let s := put i vec
    siteOf s w none = some (site i none s, grp s) ∧ haltDue s (grp s) = none ∧ pcMatch s (grp s) (site i none s).pc (site i none s).lanes = none
      ∧ suspended s 1 (grp s) = false ∧ owedPops s (site i none s) (grp s) = [] ∧ (grp s).handler = false ∧ (grp s).trapvec ≠ 0#64 := by decide

/-- A handler is open for every thread. -/
def handling (g : Group) : Group := { g with handler := true, trapvec := 0x18000#64, hset := 0xFFFF#64, trappc := 0x10004#64, entered := 0x0C }

theorem witness_TrapretResumes :
    let i := Instr.trapret 0#2
    let s := put i handling
    Issues i none s (site i none s) (grp s) := issues_of (by decide)

/-- Lanes 8 to 15 are not the handler's, and what they waited for has come. -/
theorem witness_TrapretResumes_over :
    let i := Instr.trapret 0#2
    let b : Block := { lanes := 0xFF00#64, next := 0x10008#64, kind := .over }
    let s := put i (fun g => { handling g with
      hset := 0xFF#64, cur := 0xFF#64, blocks := [(3, b)],
      threads := listMapIdx (fun l (t : Thread) => if l < 8 then t else { t with wait := .block 3 }) 0 g.threads })
    Issues i none s (site i none s) (grp s) ∧ Tab.get? (grp s).blocks 3 = some b ∧ b.kind = .over ∧ (∀ e ∈ (grp s).blocks, e.1 = 3 → e.2 = b)
      ∧ ((grp s).thread 15).wait = .block 3 ∧ (grp s).hset.has 15 = false :=
  ⟨issues_of (by decide), rfl, rfl, by decide, by decide, by decide⟩

theorem witness_ReadingsSendResults :
    let i := Instr.lfsum 0#2 6#7 73#7
    let s := put i ops
    (acrossLanes i (site i none s) (grp s)).isSome = true ∧ Issues i none s (site i none s) (grp s) := ⟨by decide, issues_of (by decide)⟩

theorem witness_ReadingsSendResults_status :
    let i := Instr.cpystat 0#2 6#7 8#7
    let s := put i ops
    (statusRead i s (grp s)).isSome = true ∧ Issues i none s (site i none s) (grp s) := ⟨by decide, issues_of (by decide)⟩

/-- The last lane of the group, and a lane that it has not. -/
theorem witness_ReadingsSendResults_lwrite :
    let i := Instr.lwrite 0#2 65#7 8#7 9#7
    let s := put i (fun g => g.setG 9 15#32)
    let s' := put i (fun g => g.setG 9 16#32)
    (Issues i none s (site i none s) (grp s) ∧ (site i none s).lanes.has ((grp s).gval 9#7).toNat = true)
      ∧ (Issues i none s' (site i none s') (grp s') ∧ (site i none s').lanes.has ((grp s').gval 9#7).toNat = false) :=
  ⟨⟨issues_of (by decide), by decide⟩, issues_of (by decide), by decide⟩

/-- A launch that asks for determinism. -/
def detLaunch (s : State) : State := s.modLaunch 1 (fun l => { l with card := l.card ||| BitVec.ofNat 1024 (2 ^ 80) })

theorem witness_DigestFoldAndSetpk :
    let i := Instr.digestFold 0#2 6#7 8#7
    let j := Instr.setpk 0#2 6#7 8#7
    let s := put i id
    (Issues i none s (site i none s) (grp s) ∧ (s.launch (grp s).launch).det = false)
      ∧ (Issues i none (detLaunch s) (site i none (detLaunch s)) (grp (detLaunch s)) ∧ ((detLaunch s).launch (grp (detLaunch s)).launch).det = true)
      ∧ Issues j none (put j id) (site j none (put j id)) (grp (put j id)) :=
  ⟨⟨issues_of (by decide), by decide⟩, ⟨issues_of (by decide), by decide⟩, issues_of (by decide)⟩

theorem witness_JmprJumpsOrTraps :
    let i := Instr.jmpr 0#2 2#7
    let s := put i id
    Issues i none s (site i none s) (grp s) ∧ ∀ l, (site i none s).lanes.has l = true → ((grp s).val64 l 2#7).toNat % 4 = 0 :=
  ⟨issues_of (by decide), lanes_all (by decide)⟩

/-- Lane 3 holds an address that is 2 off. -/
theorem witness_JmprJumpsOrTraps_misaligned :
    let i := Instr.jmpr 0#2 2#7
    let s := put i (fun g => vec (ops g))
    Issues i none s (site i none s) (grp s) ∧ (site i none s).lanes.has 3 = true ∧ ((grp s).val64 3 2#7).toNat % 4 ≠ 0
      ∧ (∀ l, l < 3 → (site i none s).lanes.has l = true → ((grp s).val64 l 2#7).toNat % 4 = 0) ∧ (grp s).handler = false ∧ (grp s).trapvec ≠ 0#64 :=
  ⟨issues_of (by decide), by decide⟩

theorem witness_TrapsEnterOrFreeze :
    let i := Instr.trapl 0#2 5#21
    let j := Instr.trap 0#2 5#21
    let s := put i vec
    let t := put j handling
    let u := put j id
    (isTrap i = true ∧ Issues i none s (site i none s) (grp s) ∧ (grp s).handler = false ∧ (grp s).trapvec ≠ 0#64)
      ∧ (isTrap j = true ∧ Issues j none t (site j none t) (grp t) ∧ (grp t).handler = true)
      ∧ (Issues j none u (site j none u) (grp u) ∧ (grp u).trapvec = 0#64) :=
  ⟨⟨rfl, issues_of (by decide), by decide⟩, ⟨rfl, issues_of (by decide), by decide⟩, issues_of (by decide), by decide⟩

theorem witness_NopsAndBreakpoints :
    let i := Instr.nop 0#2
    let j := Instr.bkpt 0#2 1#21
    let s := put i id
    let t := put j id
    let u := (put j id).modLaunch 1 (fun l => { l with debug := true })
    Issues i none s (site i none s) (grp s) ∧ (Issues j none t (site j none t) (grp t) ∧ (t.launch (grp t).launch).debug = false)
      ∧ (Issues j none u (site j none u) (grp u) ∧ (u.launch (grp u).launch).debug = true ∧ (grp u).place = .resident 0 0 ∧ 0 < (u.core 0).debugSlots.length) :=
  ⟨issues_of (by decide), ⟨issues_of (by decide), by decide⟩, issues_of (by decide), by decide⟩

/-! ### Witnesses: memory forms -/

/-- Another extent of the launch: 64 KiB from VA 0x4_0000. -/
def extent (pa : Nat) (append : Bool) (s : State) : State :=
  s.modLaunch 1 (fun l => { l with extents := l.extents ++ [{ va := 0x40000, pa := pa, len := 0x10000, append := append,
                                                               page := if append then 0x10000 else 0, qc := 3, key := 0, rd := true, wr := true, fetch := false }] })
/-- A0 holds 0x4_0000. -/
def far (g : Group) : Group := g.setG 32 0x40000#32
/-- An open transaction with nothing logged. -/
def tx0 : Tx := { id := 1, ladder := 0, tile := 0, rung := 0, top := 3, range := 0, cancel := 0, rtrip := false, ctrip := false, log := [], logBytes := [],
                  shadows := [] }
/-- The team has an open transaction, in a speculative launch. -/
def inTx (x : Tx) (s : State) : State :=
  (s.modTeam 1 (fun t => { t with tx := some x })).modLaunch 1 (fun l => { l with card := l.card ||| BitVec.ofNat 1024 (2 ^ 81), ladders := [7] })

/-- A load from local HBM in all 16 lanes, and from host memory in one. -/
theorem witness_LaneLoadsSend :
    let i := Instr.ld 0#2 9#7 7#7 0#4 2#3
    let s := put i base
    let t := extent (3 * 2 ^ 46) false (put i (fun g => oneLane (far g)))
    ((laneLoadOf i (grp s)).isSome = true ∧ Issues i none s (site i none s) (grp s) ∧ Unwatched s (grp s)
      ∧ (∀ l, (site i none s).lanes.has l = true → accessVa s (grp s) .load 4 4 ((grp s).ea l 0#4 7#7) = .ok 0x18000)
      ∧ clash s (ctxOf i s (site i none s) (grp s)) ((loadParts (site i none s) 4 false 9#7 (fun l => (grp s).ea l 0#4 7#7) (fun _ => 0x18000)).map
          (fun x => (x.pa, x.size))) = false ∧ servedAfar s 0 .gen 0x18000 = false)
    ∧ (Issues i none t (site i none t) (grp t)
      ∧ (∀ l, (site i none t).lanes.has l = true → accessVa t (grp t) .load 4 4 ((grp t).ea l 0#4 7#7) = .ok (3 * 2 ^ 46))
      ∧ (site i none t).lanes.has 0 = true ∧ servedAfar t 0 .gen (3 * 2 ^ 46) = true ∧ (grp t).handler = false ∧ Tab.get? (grp t).blocks (t.uid + 1) = none) :=
  ⟨⟨by decide, issues_of (by decide), unwatched_of (by decide), lanes_all (by decide), by decide, by decide⟩, issues_of (by decide),
    lanes_all (by decide), by decide, by decide, by decide, by decide⟩

/-- From host memory, in a handler: of one lane, and of the group. -/
theorem witness_LoadsSend_handler :
    let i := Instr.ld 0#2 9#7 7#7 0#4 2#3
    let j := Instr.gld 0#2 4#7 0#4 4#3 16#7
    let s := extent (3 * 2 ^ 46) false (put i (fun g => { oneLane (far g) with handler := true }))
    let t := extent (3 * 2 ^ 46) false (put j (fun g => { far g with handler := true }))
    (Issues i none s (site i none s) (grp s) ∧ (grp s).handler = true ∧ (laneLoadOf i (grp s)).isSome = true ∧ (site i none s).lanes.has 0 = true
      ∧ accessVa s (grp s) .load 4 4 ((grp s).ea 0 0#4 7#7) = .ok (3 * 2 ^ 46) ∧ servedAfar s (grp s).core .gen (3 * 2 ^ 46) = true)
    ∧ (Issues j none t (site j none t) (grp t) ∧ (grp t).handler = true ∧ (uniformLoadOf j none (grp t)).isSome = true
      ∧ accessVa t (grp t) .load 16 16 ((grp t).areg 0#4 + immS none 16#7) = .ok (3 * 2 ^ 46 + 16)
      ∧ servedAfar t (grp t).core .gen (3 * 2 ^ 46 + 16) = true) :=
  ⟨⟨issues_of (by decide), by decide⟩, issues_of (by decide), by decide⟩

/-- 16 bytes, the largest size. -/
theorem witness_UniformLoadsSend :
    let i := Instr.gld 0#2 4#7 0#4 4#3 16#7
    let s := put i base
    uniformLoadOf i none (grp s) = some (.gen, 16, 4#7, 0x18010#64) ∧ Issues i none s (site i none s) (grp s) ∧ Unwatched s (grp s)
      ∧ accessVa s (grp s) .load 16 16 0x18010#64 = .ok 0x18010 ∧ clash s (ctxOf i s (site i none s) (grp s)) [(0x18010, 16)] = false
      ∧ servedAfar s (grp s).core .gen 0x18010 = false :=
  ⟨by decide, issues_of (by decide), unwatched_of (by decide), by decide, by decide, by decide⟩

theorem witness_StoresSend :
    let i := Instr.st 0#2 9#7 7#7 0#4 2#3
    let s := put i base
    (laneStoreOf i (grp s)).isSome = true ∧ Issues i none s (site i none s) (grp s) ∧ Unwatched s (grp s) ∧ (s.team (grp s).team).tx = none
      ∧ (∀ l, (site i none s).lanes.has l = true → accessVa s (grp s) .store 4 4 ((grp s).ea l 0#4 7#7) = .ok 0x18000) ∧ s.reqs = [] :=
  ⟨by decide, issues_of (by decide), unwatched_of (by decide), by decide, lanes_all (by decide), by decide⟩

/-- Under a prefix, 16 KiB further on. -/
theorem witness_StoresSend_uniform :
    let i := Instr.gst 0#2 4#7 0#4 3#3 0#7
    let e := some 0x80#21
    let s := put i base
    (grp s).areg 0#4 + immS e 0#7 = 0x1C000#64 ∧ decodeDefined (wordOf i) = some i ∧ Issues i e s (site i e s) (grp s) ∧ Unwatched s (grp s)
      ∧ accessVa s (grp s) .store 8 8 0x1C000#64 = .ok 0x1C000 ∧ s.reqs = [] :=
  ⟨by decide, by decide, issues_of (by decide), unwatched_of (by decide), by decide, by decide⟩

theorem overflowFits_of {s : State} {core n : Nat} (h : ((s.residents core).map (fun e => e.2.blocks.length + feWaiting s e.1)).sum - 32 = 0)
    (hl : decide ((s.teams.map (fun e => match e.2.tx with
      | some t => Tab.getD t.logBytes core 0 + 4096 * t.shadows.countP (fun x => x.holder == core)
      | none => 0)).sum + n ≤ overflowHi s core) = true) : overflowFits s core n = true := by
  unfold overflowFits overflowUsed
  simp only [h, Nat.zero_mul, Nat.zero_add]
  exact hl

theorem witness_StoresAreLogged :
    let i := Instr.st 0#2 9#7 7#7 0#4 2#3
    let s := inTx tx0 (put i base)
    Issues i none s (site i none s) (grp s) ∧ Unwatched s (grp s) ∧ (∃ u, Tab.get? s.teams (grp s).team = some u ∧ u.tx = some tx0)
      ∧ (∀ l, (site i none s).lanes.has l = true → accessVa s (grp s) .store 4 4 ((grp s).ea l 0#4 7#7) = .ok 0x18000 ∧ aperture 0x18000 = 0)
      ∧ overflowFits (issuedState s (site i none s) (grp s)) (grp s).core (16 * (LaneSet.toList (site i none s).lanes).length) = true ∧ s.reqs = [] :=
  ⟨issues_of (by decide), unwatched_of (by decide), ⟨_, rfl, rfl⟩, lanes_all (by decide),
    overflowFits_of (by decide) (by decide), by decide⟩

/-- GST, STFS and REDOR in a transaction. -/
theorem witness_StoresAreLogged_forms :
    let i := Instr.gst 0#2 4#7 0#4 3#3 0#7
    let j := Instr.stfs 0#2 10#7 2#7 0#4
    let k := Instr.redor 0#2 12#7 7#7 0#4 0#3
    let s := inTx tx0 (put i base)
    let t := inTx tx0 (put j base)
    let u := inTx tx0 (put k base)
    (Issues i none s (site i none s) (grp s) ∧ (∃ x, Tab.get? s.teams (grp s).team = some x ∧ x.tx = some tx0)
      ∧ accessVa s (grp s) .store 8 8 ((grp s).areg 0#4 + immS none 0#7) = .ok 0x18000
      ∧ overflowFits (issuedState s (site i none s) (grp s)) (grp s).core (16 * (if (8 : Nat) = 16 then 2 else 1)) = true)
    ∧ (Issues j none t (site j none t) (grp t)
      ∧ (∀ l, (site j none t).lanes.has l = true → accessVa t (grp t) .slice 8 8 ((grp t).ea l 0#4 2#7) = .ok 0x18000)
      ∧ overflowFits (issuedState t (site j none t) (grp t)) (grp t).core (16 * (LaneSet.toList (site j none t).lanes).length) = true ∧ t.reqs = [])
    ∧ (Issues k none u (site k none u) (grp u) ∧ (reductionOf k (grp u)).isSome = true
      ∧ (∀ l, (site k none u).lanes.has l = true → accessVa u (grp u) .slice 4 4 ((grp u).ea l 0#4 7#7) = .ok 0x18000)
      ∧ overflowFits (issuedState u (site k none u) (grp u)) (grp u).core (16 * (LaneSet.toList (site k none u).lanes).length) = true) :=
  ⟨⟨issues_of (by decide), ⟨_, rfl, rfl⟩, by decide, overflowFits_of (by decide) (by decide)⟩,
   ⟨issues_of (by decide), lanes_all (by decide), overflowFits_of (by decide) (by decide), by decide⟩,
   issues_of (by decide), by decide, lanes_all (by decide), overflowFits_of (by decide) (by decide)⟩

/-- STL and LATADD in a transaction: the first write of their segment. -/
theorem witness_StoresAreLogged_local :
    let i := Instr.stl 0#2 9#7 7#7 0#4 2#3
    let j := Instr.latadd 0#2 9#7 7#7 0#4 0#3
    let s := inTx tx0 (put i id)
    let t := inTx tx0 (put j id)
    let x : LocalAt := { core := 0, lrf := false, off := 0 }
    (Issues i none s (site i none s) (grp s) ∧ (∀ l, (site i none s).lanes.has l = true → accessLocal s (grp s) true 4 4 ((grp s).la l 0#4 7#7) = .ok x)
      ∧ (freshSegments tx0 ((LaneSet.toList (site i none s).lanes).map (fun l => (l, x)))).length = 1
      ∧ overflowFits (issuedState s (site i none s) (grp s)) (grp s).core 4096 = true)
    ∧ (Issues j none t (site j none t) (grp t) ∧ t.poisoned x.pa 4 = false
      ∧ (∀ l, (site j none t).lanes.has l = true → accessLocal t (grp t) true 4 4 ((grp t).la l 0#4 7#7) = .ok x)
      ∧ overflowFits (issuedState t (site j none t) (grp t)) (grp t).core 4096 = true) :=
  ⟨⟨issues_of (by decide), lanes_all (by decide), by decide, overflowFits_of (by decide) (by decide)⟩,
   issues_of (by decide), by decide, lanes_all (by decide), overflowFits_of (by decide) (by decide)⟩

/-- Lanes whose line, of another die, may be brought, and lanes outside every extent. -/
theorem witness_PrefBringsCopies :
    let i := Instr.pref 0#2 7#7 0#4 2#3
    let s := extent (2 ^ 37) false (put i far)
    let t := put i far
    (Issues i none s (site i none s) (grp s) ∧ (site i none s).lanes.has 15 = true
      ∧ checkVa s (s.launch (grp s).launch) (grp s).keyperm .load 0 ((grp s).ea 15 0#4 7#7) 1 = .ok (2 ^ 37)
      ∧ (holdersFor (grp s).core (2 ^ 37))[(2#3).toNat]? = some (.guest 0) ∧ copyAt s (.guest 0) .gen (2 ^ 37 / 128) = none ∧ aperture (2 ^ 37) ≤ 1
      ∧ peerAnswers s (2 ^ 37) = true ∧ s.poisoned (2 ^ 37 - 2 ^ 37 % 128) 128 = false
      ∧ (∀ m, (Holder.guest 0).room s = some m → False)
      ∧ (∀ m, (Holder.l1 0).room s = some m → (copiesOf s (.l1 0)).length + (LaneSet.toList (site i none s).lanes).length ≤ m))
    ∧ (Issues i none t (site i none t) (grp t) ∧ (site i none t).lanes.has 0 = true
      ∧ (failOf (checkVa t (t.launch (grp t).launch) (grp t).keyperm .load 0 ((grp t).ea 0 0#4 7#7) 1)).isSome = true) :=
  ⟨⟨issues_of (by decide), by decide, by decide, by decide, by decide, by decide, by decide, by decide, fun m h => (by cases h), fun m h => (by cases h; decide)⟩,
   issues_of (by decide), by decide, by decide⟩

theorem witness_LocalStoreAccesses :
    let i := Instr.stl 0#2 9#7 7#7 0#4 2#3
    let j := Instr.ldl 0#2 9#7 7#7 0#4 2#3
    let s := put i id
    let t := put j id
    ((localOf i (grp s)).isSome = true ∧ Issues i none s (site i none s) (grp s) ∧ Unwatched s (grp s) ∧ (s.team (grp s).team).tx = none
      ∧ (∀ l, (site i none s).lanes.has l = true → (failOf (accessLocal s (grp s) true 4 4 ((grp s).la l 0#4 7#7))).isNone = true))
    ∧ (Issues j none t (site j none t) (grp t)
      ∧ (∀ l, (site j none t).lanes.has l = true → (failOf (accessLocal t (grp t) false 4 4 ((grp t).la l 0#4 7#7))).isNone = true)) :=
  ⟨⟨by decide, issues_of (by decide), unwatched_of (by decide), by decide, lanes_all (by decide)⟩, issues_of (by decide), lanes_all (by decide)⟩

theorem witness_LocalStoreAccesses_atomic :
    let i := Instr.latadd 0#2 9#7 7#7 0#4 0#3
    let s := put i id
    (localAtomOf i).isSome = true ∧ Issues i none s (site i none s) (grp s) ∧ Unwatched s (grp s) ∧ s.poison = []
      ∧ (∀ l, (site i none s).lanes.has l = true → (failOf (accessLocal s (grp s) true 4 4 ((grp s).la l 0#4 7#7))).isNone = true) :=
  ⟨by decide, issues_of (by decide), unwatched_of (by decide), by decide, lanes_all (by decide)⟩

/-- An atomic and a reduction. -/
theorem witness_AtomicsSendPerWord :
    let i := Instr.atadd 0#2 12#7 7#7 0#4 4#3
    let j := Instr.redor 0#2 12#7 7#7 0#4 0#3
    let s := put i base
    let t := put j base
    ((atomicOf i (grp s)).isSome = true ∧ Issues i none s (site i none s) (grp s) ∧ Unwatched s (grp s) ∧ (s.team (grp s).team).tx = none
      ∧ (∀ l, (site i none s).lanes.has l = true → accessVa s (grp s) .atomic 4 4 ((grp s).ea l 0#4 7#7) = .ok 0x18000) ∧ s.reqs = [])
    ∧ ((reductionOf j (grp t)).isSome = true ∧ Issues j none t (site j none t) (grp t)
      ∧ (∀ l, (site j none t).lanes.has l = true → accessVa t (grp t) .slice 4 4 ((grp t).ea l 0#4 7#7) = .ok 0x18000)) :=
  ⟨⟨by decide, issues_of (by decide), unwatched_of (by decide), by decide, lanes_all (by decide), by decide⟩, by decide, issues_of (by decide),
    lanes_all (by decide)⟩

theorem clash_none {s : State} (h : s.reqs = []) (c : Ctx) (ps : List (Nat × Nat)) : clash s c ps = false := by simp [clash, h]

theorem witness_AppendsSendPerPage :
    let i := Instr.append 0#2 8#7 3#7 0#4 3#3
    let s := extent 0x40000 true (put i far)
    (appendOf i (grp s)).isSome = true ∧ Issues i none s (site i none s) (grp s) ∧ Unwatched s (grp s) ∧ (s.team (grp s).team).tx = none
      ∧ (∀ l, (site i none s).lanes.has l = true → accessVa s (grp s) .append 8 8 ((grp s).ea l 0#4 3#7) = .ok 0x40000)
      ∧ (∀ ps, clash s (ctxOf i s (site i none s) (grp s)) ps = false) :=
  ⟨by decide, issues_of (by decide), unwatched_of (by decide), by decide, lanes_all (by decide), clash_none (by decide) _⟩

theorem witness_AppendsSendPerPage_transaction :
    let i := Instr.appendt 0#2 8#7 3#7 0#4 3#3
    let s := inTx tx0 (extent 0x40000 true (put i (fun g => vec (far g))))
    (appendOf i (grp s)).isSome = true ∧ Issues i none s (site i none s) (grp s) ∧ (s.team (grp s).team).tx = some tx0
      ∧ (∀ l, (site i none s).lanes.has l = true → accessVa s (grp s) .append 8 8 ((grp s).ea l 0#4 3#7) = .ok 0x40000)
      ∧ (grp s).handler = false ∧ (grp s).trapvec ≠ 0#64 ∧ (site i none s).lanes.has 0 = true :=
  ⟨by decide, issues_of (by decide), by decide, lanes_all (by decide), by decide⟩

theorem witness_GatomAndSealSend :
    let i := Instr.gatom 0#2 4#7 0#4 1#3 0#4
    let j := Instr.sealPage 0#2 14#7 32#7
    let s := put i base
    let t := extent 0x40000 true (put j far)
    (Issues i none s (site i none s) (grp s) ∧ Unwatched s (grp s) ∧ (s.team (grp s).team).tx = none
      ∧ (∃ pa, accessVa s (grp s) .atomic (typeSize 1#3) (typeSize 1#3) ((grp s).areg 0#4) = .ok pa) ∧ s.reqs = [])
    ∧ (Issues j none t (site j none t) (grp t) ∧ Unwatched t (grp t) ∧ accessVa t (grp t) .append 1 1 ((grp t).gval64 32#7) = .ok 0x40000
      ∧ (ctxOf j t (site j none t) (grp t)).mayRelease (issuedState t (site j none t) (grp t)) 4 = true) :=
  ⟨⟨issues_of (by decide), unwatched_of (by decide), by decide, ⟨0x18000, by decide⟩, by decide⟩, issues_of (by decide), unwatched_of (by decide),
    by decide, by decide⟩

/-- An APPEND of a sealed page, and one of a page that is not sealed, inside a transaction. -/
theorem witness_AppendsSendPerPage_sealed :
    let i := Instr.append 0#2 8#7 3#7 0#4 3#3
    let s := inTx tx0 (extent 0x40000 true (put i (fun g => vec (far g))))
    let t := (s.modDie 0 (fun d => { d with tailtab := 0x8000#64 })).setBytes 0x8020 (leBytes 8 (2 ^ 31))
    (Issues i none s (site i none s) (grp s) ∧ s.sealed 0x40000 = false ∧ (grp s).handler = false ∧ (grp s).trapvec ≠ 0#64)
    ∧ (Issues i none t (site i none t) (grp t) ∧ Unwatched t (grp t) ∧ (t.team (grp t).team).tx = some tx0
      ∧ (∀ l, (site i none t).lanes.has l = true → accessVa t (grp t) .append 8 8 ((grp t).ea l 0#4 3#7) = .ok 0x40000)
      ∧ t.sealed 0x40000 = true ∧ (grp t).handler = false ∧ (grp t).trapvec ≠ 0#64 ∧ (site i none t).lanes.has 0 = true) :=
  ⟨⟨issues_of (by decide), by decide, by decide, by decide⟩, issues_of (by decide), unwatched_of (by decide), by decide, lanes_all (by decide), by decide⟩

/-- A release of threads with nothing in flight may complete at every scope. -/
theorem mayRelease_of {c : Ctx} {s : State} (hr : s.reqs = []) (he : earlyDone s c.site.gid c.mask 3 = true) (hm : loomsDone s c.site.gid c.mask = true) :
    ∀ scope, c.mayRelease s scope = true := by
  intro scope
  have h1 : earlyDone s c.site.gid c.mask scope = true := by
    unfold earlyDone at he ⊢
    split
    · rfl
    · rename_i g hg
      simp only [hr, hg, Tab.get?, List.all_eq_true, Bool.and_eq_true, Bool.or_eq_true, decide_eq_true_eq] at he ⊢
      exact fun l hl => ⟨Or.inr ((he l hl).1.resolve_left (by decide)), fun _ _ => trivial⟩
  unfold Ctx.mayRelease readsReturned storesDone requestsOf
  rw [hr, h1, hm]
  simp

/-- One thread waits for its word; all 16 fill theirs. -/
theorem witness_FullEmptySend :
    let i := Instr.ldc 0#2 10#7 2#7 0#4
    let j := Instr.stfs 0#2 10#7 2#7 0#4
    let s := put i (fun g => oneLane (base g))
    let t := put j base
    ((feOf i (grp s)).isSome = true ∧ Issues i none s (site i none s) (grp s) ∧ Unwatched s (grp s) ∧ (s.team (grp s).team).tx = none
      ∧ (∀ l, (site i none s).lanes.has l = true → accessVa s (grp s) .atomic 8 8 ((grp s).ea l 0#4 2#7) = .ok 0x18000) ∧ s.reqs = []
      ∧ (ctxOf i s (site i none s) (grp s)).mayAcquire (issuedState s (site i none s) (grp s)) = true
      ∧ (∀ scope, (ctxOf i s (site i none s) (grp s)).mayRelease (issuedState s (site i none s) (grp s)) scope = true))
    ∧ (Issues j none t (site j none t) (grp t)
      ∧ (∀ l, (site j none t).lanes.has l = true → accessVa t (grp t) .slice 8 8 ((grp t).ea l 0#4 2#7) = .ok 0x18000)) := by
  refine ⟨⟨by decide, issues_of (by decide), unwatched_of (by decide), by decide, lanes_all (by decide), by decide, by decide, mayRelease_of (by decide) (by decide)
    (by decide)⟩, issues_of (by decide), lanes_all (by decide)⟩

/-! ### Witnesses: fences, waits, engines -/

theorem witness_FenceCompletes :
    let i := Instr.fence 0#2 2#2 5#3 15#4
    let s := put i base
    Issues i none s (site i none s) (grp s) ∧ fenceReady 2#2 5 15#4 (ctxOf i s (site i none s) (grp s)) (issuedState s (site i none s) (grp s)) = true :=
  ⟨issues_of (by decide), by decide⟩

/-- 64 bytes at the start of the scratchpad. -/
def block (n : Nat) (s : State) : State := (leBytes 64 n).zipIdx.foldl (fun s e => setLocal 0 e.2 e.1 s) s
/-- Where a 64-byte block of the scratchpad lies. -/
def blockAt (i : Instr) (s : State) : LocalAt :=
  match localBlock s (ctxOf i s (site i none s) (grp s)) 0 64 with
  | .ok x => x
  | .error _ => { core := 768, lrf := false, off := 0 }

/-- ALL of one entry, kind 4: the time is at least 5 ticks, or at least 0; G9 is the timeout. -/
def timeWait (ticks : Nat) : Nat := 4 * 2 ^ 56 + 3 * 2 ^ 59 + ticks * 2 ^ 64

theorem parseWait_kinds {n : Nat} {P : Nat → Prop} [DecidablePred P] (h : (List.range 4).all (fun k => decide (P (parseWait n k).kind)) = true) :
    ∀ k, k < 4 → P (parseWait n k).kind := fun k hk => by simpa using List.all_eq_true.1 h k (List.mem_range.2 hk)

theorem waitAccepted_of {s : State} {g : Group} {n : Nat} (h : waitBad n = false)
    (hk : (List.range 4).all (fun k => decide ((parseWait n k).kind ≠ 5 ∧ (parseWait n k).ofMemory = false)) = true) (hc : s.cmds = []) :
    WaitAccepted s g n (fun _ => 0) where
  loom := Or.inr fun k hk' => by
    have := List.all_eq_true.1 hk k (List.mem_range.2 hk')
    simp only [decide_eq_true_eq] at this
    exact this.1
  form := h
  words := fun k hk' => by
    have := List.all_eq_true.1 hk k (List.mem_range.2 hk')
    simp only [decide_eq_true_eq] at this
    rw [if_neg (by simp [this.2])]
  tickets := fun k _ _ e he => by simp [hc] at he

/-- A condition that holds; one that does not, with a timeout of 0 and of 1. -/
theorem witness_WaitTestsOrBlocks :
    let i := Instr.wait 0#2 7#7 8#7 9#7
    let s := block (timeWait 0) (put i id)
    let t := block (timeWait 5) (put i id)
    let u := block (timeWait 5) (put i (fun g => g.setG 9 1#32))
    (Issues i none s (site i none s) (grp s) ∧ Unwatched s (grp s) ∧ localBlock s (ctxOf i s (site i none s) (grp s)) ((grp s).gval 8#7).toNat 64 = .ok (blockAt i s)
      ∧ leNat (localBytes s (blockAt i s) 64) = timeWait 0 ∧ WaitAccepted s (grp s) (timeWait 0) (fun _ => 0)
      ∧ (waitEntries (timeWait 0) (fun _ => 0)).any WaitEntry.ofMemory = false
      ∧ waitResult s (grp s) (waitEntries (timeWait 0) (fun _ => 0)) false = some 4#32)
    ∧ (Issues i none t (site i none t) (grp t) ∧ Unwatched t (grp t) ∧ leNat (localBytes t (blockAt i t) 64) = timeWait 5
      ∧ waitResult t (grp t) (waitEntries (timeWait 5) (fun _ => 0)) false = none ∧ (grp t).gval 9#7 = 0#32)
    ∧ (Issues i none u (site i none u) (grp u) ∧ Unwatched u (grp u) ∧ WaitAccepted u (grp u) (timeWait 5) (fun _ => 0) ∧ (grp u).gval 9#7 ≠ 0#32 ∧ (grp u).handler = false
      ∧ (grp u).blocks = []) :=
  ⟨⟨issues_of (by decide), unwatched_of (by decide), by decide, by decide, waitAccepted_of (by decide) (by decide) (by decide), by decide, by decide⟩,
   ⟨issues_of (by decide), unwatched_of (by decide), by decide, by decide, by decide⟩,
   issues_of (by decide), unwatched_of (by decide), waitAccepted_of (by decide) (by decide) (by decide), by decide, by decide, by decide⟩

theorem witness_YieldLetsOthersRun :
    let i := Instr.yield 0#2
    let s := put i oneLane
    let t := put i id
    (Issues i none s (site i none s) (grp s) ∧ (grp s).handler = false ∧ Tab.get? (grp s).blocks s.uid = none
      ∧ ∃ l, l < (grp s).threads.length ∧ (site i none s).lanes.has l = false ∧ ((grp s).thread l).live = true ∧ ((grp s).thread l).meet = noMeeting
        ∧ ((grp s).thread l).wait = .run)
    ∧ (Issues i none t (site i none t) (grp t) ∧ (grp t).preempt = none
      ∧ ∀ l, l < (grp t).threads.length → (site i none t).lanes.has l = false → ((grp t).thread l).wait ≠ .run) :=
  ⟨⟨issues_of (by decide), by decide, by decide, 1, by decide⟩, issues_of (by decide), by decide, by decide⟩

/-- SRC 0x1_8000, DST 0x1_8100, LEN 8. -/
def cpyBlock : Nat := 0x18000 + 0x18100 * 2 ^ 64 + 8 * 2 ^ 128

theorem witness_CopiesAndCardsPost :
    let i := Instr.cpy 0#2 10#7 11#7
    let s := block cpyBlock (put i id)
    let b := BitVec.ofNat 512 cpyBlock
    Issues i none s (site i none s) (grp s) ∧ Unwatched s (grp s) ∧ localBlock s (ctxOf i s (site i none s) (grp s)) ((grp s).gval 11#7).toNat 64 = .ok (blockAt i s)
      ∧ BitVec.ofNat 512 (leNat (localBytes s (blockAt i s) 64)) = b ∧ cpyBad b = false ∧ cpySrc b % 8 = 0 ∧ cpyDst b % 8 = 0
      ∧ srcWin b = false ∧ dstWin b = false
      ∧ checkRange s (s.launch (grp s).launch) (grp s).keyperm .load (cpySrc b) (cpyLen b) = .ok [{ va := 0x18000, pa := 0x18000, len := 8 }]
      ∧ checkRange s (s.launch (grp s).launch) (grp s).keyperm .store (cpyDst b) (cpyLen b) = .ok [{ va := 0x18100, pa := 0x18100, len := 8 }]
      ∧ checkCompw s (ctxOf i s (site i none s) (grp s)) b = .ok 0 ∧ s.cmds.countP (fun e => e.2.team == (grp s).team) < 64 :=
  ⟨issues_of (by decide), unwatched_of (by decide), by decide, by decide, by decide, by decide, by decide, by decide, by decide, by decide, by decide, by decide, by decide⟩

/-- A tensor by its base, stride, rows, columns, element, scaling, scales and scale stride. -/
def tensor (base stride rows cols elem scaling scales sstride : Nat) : Tensor :=
  BitVec.ofNat 512 (base + scales * 2 ^ 128 + rows * 2 ^ 256 + cols * 2 ^ 288 + stride * 2 ^ 320 + sstride * 2 ^ 352 + elem * 2 ^ 384 + scaling * 2 ^ 388
    + 2 ^ 391)

/-- Tensors in the team's table, in a launch that uses the Loom. -/
def loomed (ts : Tab Tensor) (s : State) : State :=
  (s.modTeam 1 (fun t => { t with tensors := ts })).modLaunch 1 (fun l => { l with card := l.card ||| BitVec.ofNat 1024 (0x18000 * 2 ^ 256) })

/-- A row of 32 binary32 values into a row of 32 MXFP8 codes. -/
def quantTensors : Tab Tensor := [(0, tensor 0x18000 128 1 32 15 0 0 0), (1, tensor 0x18200 32 1 32 2 1 0x18300 1)]
def cpyqBlock : Nat := 32 * 2 ^ 64 + 1 * 2 ^ 328

theorem witness_CopiesAndCardsPost_quant :
    let i := Instr.cpyq 0#2 10#7 11#7
    let s := block cpyqBlock (loomed quantTensors (put i id))
    let b := BitVec.ofNat 512 cpyqBlock
    Issues i none s (site i none s) (grp s) ∧ Unwatched s (grp s) ∧ localBlock s (ctxOf i s (site i none s) (grp s)) ((grp s).gval 11#7).toNat 64 = .ok (blockAt i s)
      ∧ BitVec.ofNat 512 (leNat (localBytes s (blockAt i s) 64)) = b ∧ cpyqBad (ctxOf i s (site i none s) (grp s)) s b = false
      ∧ (failOf (cpyqCommand (ctxOf i s (site i none s) (grp s)) s b)).isNone = true ∧ s.cmds.countP (fun e => e.2.team == (grp s).team) < 64 :=
  ⟨issues_of (by decide), unwatched_of (by decide), by decide, by decide, by decide, by decide, by decide⟩

/-- A card at G32:33 for the cluster's own queue, which is empty; for one that is full; and a target with a reserved bit. -/
theorem witness_CopiesAndCardsPost_jpost :
    let i := Instr.jpost 0#2 10#7 32#7 9#7
    let s := put i base
    let t := (put i base).modCluster 0 (fun c => { c with queue := List.replicate 8 { ClusterEntry.empty with valid := true } })
    let u := put i (fun g => (base g).setG 9 4#32)
    (Issues i none s (site i none s) (grp s) ∧ Unwatched s (grp s) ∧ ((grp s).gval64 32#7).toNat % 8 = 0
      ∧ checkRange s (s.launch (grp s).launch) (grp s).keyperm .load ((grp s).gval64 32#7).toNat 128 = .ok [{ va := 0x18000, pa := 0x18000, len := 128 }]
      ∧ (s.team (grp s).team).tx = none ∧ (ctxOf i s (site i none s) (grp s)).mayRelease (issuedState s (site i none s) (grp s)) 4 = true
      ∧ (grp s).gval 9#7 = 0#32 ∧ ∃ e, (s.cluster (clusterOf (grp s).core)).queue[7]? = some e ∧ e.valid = false)
    ∧ (Issues i none t (site i none t) (grp t) ∧ ∀ e, e ∈ (t.cluster (clusterOf (grp t).core)).queue → e.valid = true)
    ∧ (Issues i none u (site i none u) (grp u) ∧ bitsAt ((grp u).gval 9#7) 2 6 ≠ 0) :=
  ⟨⟨issues_of (by decide), unwatched_of (by decide), by decide, by decide, by decide, by decide, by decide, ⟨ClusterEntry.empty, by decide, rfl⟩⟩,
   ⟨issues_of (by decide), by decide⟩, issues_of (by decide), by decide⟩

/-! ### Witnesses: transactions, tensors, Loom commands -/

theorem witness_TxbeginOpens :
    let i := Instr.txbegin 0#2 20#7 21#7 0#3
    let s := (inTx tx0 (put i id)).modTeam 1 (fun t => { t with tx := none })
    Issues i none s (site i none s) (grp s) ∧ ladderValid ((s.launch (grp s).launch).ladders.getD 0 0) = true ∧ ((grp s).gval 21#7).toNat < 2 ^ 24
      ∧ (grp s).gid = 0 ∧ ∃ u, Tab.get? s.teams (grp s).team = some u ∧ u.tx = none :=
  ⟨issues_of (by decide), by decide, by decide, by decide, _, rfl, by decide⟩

/-- A trip one rung below the top, and one at the top. -/
theorem witness_TxcommitTrips :
    let i := Instr.txcommit 0#2 20#7
    let x := { tx0 with rung := 2, rtrip := true }
    let y := { tx0 with rung := 3, ctrip := true }
    let s := inTx x (put i id)
    let t := inTx y (put i vec)
    (Issues i none s (site i none s) (grp s) ∧ (∃ u, Tab.get? s.teams (grp s).team = some u ∧ u.tx = some x) ∧ (grp s).gid = 0
      ∧ (x.rtrip || x.ctrip) = true ∧ txBusy s (grp s).team x = false ∧ x.rung < x.top ∧ ∃ l, Tab.get? s.launches 1 = some l ∧ l.fail = none)
    ∧ (Issues i none t (site i none t) (grp t) ∧ (∃ u, Tab.get? t.teams (grp t).team = some u ∧ u.tx = some y) ∧ y.top ≤ y.rung
      ∧ (grp t).handler = false ∧ (grp t).trapvec ≠ 0#64) :=
  ⟨⟨issues_of (by decide), ⟨_, rfl, rfl⟩, by decide, by decide, by decide, by decide, _, rfl, by decide⟩,
   issues_of (by decide), ⟨_, rfl, rfl⟩, by decide, by decide, by decide⟩

/-- One entry, the last of the table, from memory that holds zeros. -/
theorem witness_TensorTableEntries :
    let i := Instr.ttload 0#2 8#7 32#7 9#7
    let s := loomed [] (put i (fun g => ((base g).setG 8 255#32).setG 9 1#32))
    Issues i none s (site i none s) (grp s) ∧ Unwatched s (grp s) ∧ 0 < ((grp s).gval 9#7).toNat
      ∧ ((grp s).gval 8#7).toNat + ((grp s).gval 9#7).toNat ≤ 256 ∧ ((grp s).gval64 32#7).toNat % 64 = 0
      ∧ checkRange s (s.launch (grp s).launch) (grp s).keyperm .load ((grp s).gval64 32#7).toNat 64 = .ok [{ va := 0x18000, pa := 0x18000, len := 64 }]
      ∧ piecesLocked s (grp s).core [{ va := 0x18000, pa := 0x18000, len := 64 }] = none ∧ s.unreadable 0x18000 64 = false ∧ (s.team (grp s).team).tx = none ∧ s.reqs = []
      ∧ tValid (BitVec.ofNat 512 (leNat (piecesBytes s (grp s).core [{ va := 0x18000, pa := 0x18000, len := 64 }]))) = false :=
  ⟨issues_of (by decide), unwatched_of (by decide), by decide, by decide, by decide, by decide, by decide, by decide, by decide, by decide, by decide⟩

theorem witness_TensorTableEntries_set :
    let i := Instr.ttset 0#2 0#7 8#7 10#7
    let e := tensor 0x18000 128 64 64 1 0 0 0
    let s := loomed [(0, e)] (put i (fun g => g.setG 10 0x1C000#32))
    let t := loomed [] (put i id)
    (Issues i none s (site i none s) (grp s) ∧ ((grp s).gval 8#7).toNat ≤ 255 ∧ (s.team (grp s).team).tx = none
      ∧ Tab.get? (s.team (grp s).team).tensors 0 = some e ∧ tensorBad (setTensorField e 0 ((grp s).gval64 10#7)) = false)
    ∧ (Issues i none t (site i none t) (grp t) ∧ Tab.get? (t.team (grp t).team).tensors ((grp t).gval 8#7).toNat = none) :=
  ⟨⟨issues_of (by decide), by decide, by decide, by decide, by decide⟩, issues_of (by decide), by decide⟩

theorem witness_AccumulatorCommandsPost :
    let i := Instr.mzero 0#2 7#3
    let j := Instr.mread 0#2 69#7 2#3 9#7
    let k := Instr.mwrite 0#2 69#7 2#3 9#7
    let s := loomed [] (put i id)
    let t := loomed [] (put j (fun g => g.setG 9 4095#32))
    let u := loomed [] ((wordAt (wordOf k)).modGroup 1 (fun g => g.setG 9 4095#32))
    (Issues i none s (site i none s) (grp s) ∧ LoomOpen s (grp s))
    ∧ (Issues j none t (site j none t) (grp t) ∧ LoomOpen t (grp t) ∧ ((grp t).gval 9#7).toNat < 2 ^ 12)
    ∧ (IssuesForm (mwriteForm 0#2 69#7 2#3 9#7) none u (siteOn (mwriteForm 0#2 69#7 2#3 9#7) none u) (grp u) ∧ LoomOpen u (grp u)
      ∧ ((grp u).gval 9#7).toNat < 2 ^ 12) :=
  ⟨⟨issues_of (by decide), by decide, by decide⟩, ⟨issues_of (by decide), ⟨by decide, by decide⟩, by decide⟩,
   issuesForm_of (by decide), ⟨by decide, by decide⟩, by decide⟩

/-- A Loom command of core 0 that has done nothing yet. -/
def loomOf (op : LoomOp) : Loom :=
  { launch := 1, team := 1, group := 1, lanes := 0xFFFF#64, core := 0, prio := 0, op := op, after := [], tag := none, ordered := false, granted := [],
    nextStep := 0, src := [], dst := [], tx := none, out := none, performed := [], complete := 0 }
/-- The machine has one Loom command, number 2. -/
def withLoom (x : Loom) (s : State) : State := { s with looms := [(2, x)], uid := 3 }

theorem witness_LoomFenceAndStatus :
    let i := Instr.mfence 0#2 0x04#8 1#1 1#1
    let j := Instr.mstat 0#2 6#7
    let s := loomed [] (put i id)
    let t := withLoom (loomOf (.zero 2)) s
    let u := loomed [] (wordAt (wordOf j))
    (Issues i none s (site i none s) (grp s) ∧ LoomOpen s (grp s) ∧ s.looms = [])
    ∧ (Issues i none t (site i none t) (grp t) ∧ LoomOpen t (grp t) ∧ (2, loomOf (.zero 2)) ∈ t.looms ∧ (loomOf (.zero 2)).core = (grp t).core
      ∧ (loomOf (.zero 2)).op.accumulator = some 2 ∧ (0x04#8).getLsbD 2 = true)
    ∧ (IssuesForm (mstatForm 0#2 6#7) none u (siteOn (mstatForm 0#2 6#7) none u) (grp u) ∧ (u.launch (grp u).launch).ttab ≠ 0) :=
  ⟨⟨issues_of (by decide), ⟨by decide, by decide⟩, by decide⟩,
   ⟨issues_of (by decide), ⟨by decide, by decide⟩, by decide, by decide, by decide, by decide⟩, issuesForm_of (by decide), by decide⟩

/-- A team of two groups, of which one has come; and the last arrival of a team of one. -/
theorem witness_BarriersCountArrivals :
    let i := Instr.barArrive 0#2 5#7 6#7 2#3
    let j := Instr.barWait 0#2 5#7 6#7 7#3
    let two := fun (s : State) => s.modLaunch 1 (fun l => { l with card := l.card ||| BitVec.ofNat 1024 (2 ^ 113) })
    let s := two (put i id)
    let t := two (put j id)
    let u := put j id
    (Issues i none s (site i none s) (grp s) ∧ (∃ x, Tab.get? s.teams (grp s).team = some x ∧ 2 < x.bars.length)
      ∧ (barOf s (grp s) 2).arrived + 1 ≠ expected s (grp s) 6#7 2 ∧ (ctxOf i s (site i none s) (grp s)).mayArrive (issuedState s (site i none s) (grp s)) = true)
    ∧ (Issues j none t (site j none t) (grp t) ∧ (barOf t (grp t) 7).arrived + 1 ≠ expected t (grp t) 6#7 7 ∧ (grp t).handler = false
      ∧ Tab.get? (grp t).blocks t.uid = none ∧ (ctxOf j t (site j none t) (grp t)).mayArrive (issuedState t (site j none t) (grp t)) = true)
    ∧ (Issues j none u (site j none u) (grp u) ∧ (∃ x, Tab.get? u.teams (grp u).team = some x ∧ 7 < x.bars.length)
      ∧ (barOf u (grp u) 7).arrived + 1 = expected u (grp u) 6#7 7
      ∧ (ctxOf j u (site j none u) (grp u)).mayArrive (issuedState u (site j none u) (grp u)) = true) :=
  ⟨⟨issues_of (by decide), ⟨_, rfl, by decide⟩, by decide, by decide⟩, ⟨issues_of (by decide), by decide, by decide, by decide, by decide⟩,
   issues_of (by decide), ⟨_, rfl, by decide⟩, by decide, by decide⟩

/-- Group 2 of the team waits at barrier 7, which awaits one more arrival. -/
def waited (halted open_ : Bool) (s : State) : State :=
  let s := s.modTeam 1 (fun t => { t with bars := listModify t.bars 7 (fun b => { b with arrived := 1, expect := 2, highWait := some 1 }) })
  { s with groups := s.groups ++ [(2, { grp s with
      gid := 1, place := .resident 0 1, cur := 0#64, halted := halted, handler := open_,
      blocks := [(3, { lanes := 0xFFFF#64, next := 0x10004#64, kind := .bar 7 0#31 9 })],
      threads := (grp s).threads.map (fun t => { t with wait := .block 3 }) })] }

/-- The last arrival, where a group waits that is halted, that runs, or whose handler is open. -/
theorem witness_BarriersCountArrivals_waiters :
    let j := Instr.barArrive 0#2 5#7 6#7 7#3
    ∀ h ∈ [(true, false), (false, false), (false, true)], let s := waited h.1 h.2 (put j id)
      Issues j none s (site j none s) (grp s) ∧ (∃ x, Tab.get? s.teams (grp s).team = some x ∧ 7 < x.bars.length)
      ∧ (barOf s (grp s) 7).arrived + 1 = expected s (grp s) 6#7 7
      ∧ (ctxOf j s (site j none s) (grp s)).mayArrive (issuedState s (site j none s) (grp s)) = true
      ∧ ∃ g1 b, Tab.get? s.groups 2 = some g1 ∧ g1.team = (grp s).team ∧ g1.halted = h.1 ∧ g1.handler = h.2 ∧ Tab.get? g1.blocks 3 = some b
        ∧ b.kind = .bar 7 (barOf s (grp s) 7).phase 9 ∧ b.woken = none ∧ (s.groups.countP (fun e => e.1 == 2)) = 1
        ∧ g1.blocks.all (fun e => e.1 == 3) = true ∧ (g1.thread 15).wait = .block 3 := by
  intro j h hh
  simp only [List.mem_cons, List.not_mem_nil, or_false] at hh
  rcases hh with rfl | rfl | rfl
  all_goals exact ⟨issues_of (by decide), ⟨_, rfl, by decide⟩, by decide, by decide, _, _, rfl, rfl, rfl, rfl, rfl, rfl, rfl, by decide, rfl, rfl⟩

/-- A WAIT that would block, a YIELD and a BAR that would wait, in a handler. -/
theorem witness_handlerBlocks :
    let i := Instr.wait 0#2 7#7 8#7 9#7
    let j := Instr.yield 0#2
    let k := Instr.barWait 0#2 5#7 6#7 7#3
    let s := block (timeWait 5) (put i (fun g => { (g.setG 9 1#32) with handler := true, trapvec := 0x18000#64, hset := 0xFFFF#64 }))
    let t := put j handling
    let u := (put k handling).modLaunch 1 (fun l => { l with card := l.card ||| BitVec.ofNat 1024 (2 ^ 113) })
    (Issues i none s (site i none s) (grp s) ∧ Unwatched s (grp s) ∧ localBlock s (ctxOf i s (site i none s) (grp s)) ((grp s).gval 8#7).toNat 64 = .ok (blockAt i s)
      ∧ leNat (localBytes s (blockAt i s) 64) = timeWait 5 ∧ WaitAccepted s (grp s) (timeWait 5) (fun _ => 0)
      ∧ waitResult s (grp s) (waitEntries (timeWait 5) (fun _ => 0)) false = none ∧ (grp s).gval 9#7 ≠ 0#32 ∧ (grp s).handler = true)
    ∧ (Issues j none t (site j none t) (grp t) ∧ (grp t).handler = true)
    ∧ (Issues k none u (site k none u) (grp u) ∧ (barOf u (grp u) 7).arrived + 1 ≠ expected u (grp u) 6#7 7 ∧ (grp u).handler = true) :=
  ⟨⟨issues_of (by decide), unwatched_of (by decide), by decide, by decide, waitAccepted_of (by decide) (by decide) (by decide), by decide, by decide, by decide⟩,
   ⟨issues_of (by decide), by decide⟩, issues_of (by decide), by decide, by decide⟩

/-- Whole segments of the scratchpad and of a lent register file, shadowed. -/
theorem witness_TransactionsClose_shadows :
    ShadowsDistinct { tx0 with shadows := [⟨0, 0, false, 0, List.replicate 4096 1#8, [3, 511]⟩, ⟨0, 1, true, 0x3F000, List.replicate 4096 2#8, []⟩] } :=
  ⟨by simp, by simp [segmentPa]⟩

theorem noInnerWaits_of {s : State} (hb : s.groups.all (fun e => e.2.blocks.isEmpty) = true) : NoInnerWaits s := by
  intro e he b hbl
  have := List.all_eq_true.1 hb e he
  rw [List.isEmpty_iff] at this
  simp [this] at hbl

theorem witness_TransactionsClose :
    let i := Instr.txcommit 0#2 20#7
    let j := Instr.txcommitForce 0#2 20#7
    let k := Instr.txabort 0#2
    let x := { tx0 with rtrip := true }
    let s := inTx tx0 (put i id)
    let t := inTx x (put j (fun g => { handling g with entered := 0x0B }))
    let u := inTx x (put k id)
    (Issues i none s (site i none s) (grp s) ∧ (∃ u, Tab.get? s.teams (grp s).team = some u ∧ u.tx = some tx0) ∧ (grp s).gid = 0
      ∧ (tx0.rtrip || tx0.ctrip) = false ∧ txBusy s (grp s).team tx0 = false ∧ teamReleased s (grp s).team = true
      ∧ (ctxOf i s (site i none s) (grp s)).mayRelease (issuedState s (site i none s) (grp s)) 4 = true)
    ∧ (Issues j none t (site j none t) (grp t) ∧ (∃ u, Tab.get? t.teams (grp t).team = some u ∧ u.tx = some x) ∧ (grp t).handler = true
      ∧ (grp t).entered = 0x0B ∧ txBusy t (grp t).team x = false ∧ teamReleased t (grp t).team = true
      ∧ (ctxOf j t (site j none t) (grp t)).mayRelease (issuedState t (site j none t) (grp t)) 4 = true)
    ∧ (Issues k none u (site k none u) (grp u) ∧ (∃ v, Tab.get? u.teams (grp u).team = some v ∧ v.tx = some x) ∧ u.reqs = [] ∧ (grp u).gid = 0
      ∧ ShadowsDistinct x ∧ NoInnerWaits u) :=
  ⟨⟨issues_of (by decide), ⟨_, rfl, rfl⟩, by decide, by decide, by decide, by decide, by decide⟩,
   ⟨issues_of (by decide), ⟨_, rfl, rfl⟩, by decide, by decide, by decide, by decide, by decide⟩, issues_of (by decide), ⟨_, rfl, rfl⟩, by decide, by decide, ⟨by simp [tx0], by simp [tx0]⟩, noInnerWaits_of (by decide)⟩

/-- A quad at G0: tensor 0, row 0, column 0. -/
def panels : Tab Tensor := [(0, tensor 0x18000 128 64 64 1 0 0 0), (1, tensor 0x1C000 256 64 64 15 0 0 0)]
/-- The launch's guard band is up. -/
def railed (s : State) : State := s.modCluster 0 (fun c => { c with railup := true })

theorem witness_PanelCommandsPost :
    let i := Instr.mloadb 0#2 3#5 0#4 0#1
    let j := Instr.mloop 0#2 2#3 0#4 0#1 0#5 0#5 1#1
    let s := loomed panels (put i id)
    let t := railed (loomed panels (put j id))
    let y := tensor 0x18000 128 64 64 1 0 0 0
    (Issues i none s (site i none s) (grp s) ∧ Unwatched s (grp s) ∧ LoomOpen s (grp s)
      ∧ resolveTensor s (ctxOf i s (site i none s) (grp s)) (quadOf (grp s) 0#4) false false loomOperand = .ok y
      ∧ panelFail s (ctxOf i s (site i none s) (grp s)) .load (panelRanges y 0 0 64).flatten = none)
    ∧ (Issues j none t (site j none t) (grp t) ∧ Unwatched t (grp t) ∧ LoomOpen t (grp t) ∧ (t.cluster (clusterOf (grp t).core)).railup = true
      ∧ resolveTensor t (ctxOf j t (site j none t) (grp t)) (quadOf (grp t) 0#4) false true loomOperand = .ok y
      ∧ panelFail t (ctxOf j t (site j none t) (grp t)) .load (panelRanges y 0 0 64).flatten = none) :=
  ⟨⟨issues_of (by decide), unwatched_of (by decide), ⟨by decide, by decide⟩, by decide, by decide⟩, issues_of (by decide), unwatched_of (by decide), ⟨by decide, by decide⟩, by decide, by decide, by decide⟩

theorem witness_PanelCommandsPost_store :
    let i := Instr.mstore 0#2 2#3 0#4 0#3 0#1
    let j := Instr.mloopg 0#2 2#3 0#4 0#1 0#5 0#5 1#1
    let s := loomed panels (put i (fun g => g.setG 0 1#32))
    let t := railed (loomed panels (put j id))
    let y := tensor 0x1C000 256 64 64 15 0 0 0
    let z := tensor 0x18000 128 64 64 1 0 0 0
    (Issues i none s (site i none s) (grp s) ∧ Unwatched s (grp s) ∧ LoomOpen s (grp s) ∧ (s.team (grp s).team).tx = none
      ∧ resolveTensor s (ctxOf i s (site i none s) (grp s)) (quadOf (grp s) 0#4) false false (mstoreTarget false) = .ok y
      ∧ panelFail s (ctxOf i s (site i none s) (grp s)) .store (panelRanges y 0 0 64).flatten = none)
    ∧ (Issues j none t (site j none t) (grp t) ∧ Unwatched t (grp t) ∧ LoomOpen t (grp t) ∧ (t.cluster (clusterOf (grp t).core)).railup = true
      ∧ Tab.get? (t.core (grp t).core).tags (bitsAt (quadOf (grp t) 0#4).last 0 8) = none ∧ bitsAt (quadOf (grp t) 0#4).last 26 6 = 0
      ∧ resolveTensor t (ctxOf j t (site j none t) (grp t)) (quadOf (grp t) 0#4) false true loomOperand = .ok z
      ∧ panelFail t (ctxOf j t (site j none t) (grp t)) .load (panelRanges z 0 0 64).flatten = none) :=
  ⟨⟨issues_of (by decide), unwatched_of (by decide), ⟨by decide, by decide⟩, by decide, by decide, by decide⟩, issues_of (by decide), unwatched_of (by decide), ⟨by decide, by decide⟩, by decide, by decide,
    by decide, by decide, by decide⟩

/-! ### Witnesses: results, slices, waits -/

/-- A group that runs, and nothing else at work. -/
def idle : State := put (.nop 0#2) id
/-- Request 5 of the group. -/
def req (k : ReqKind) : Req :=
  { group := 1, launch := 1, team := 1, lanes := 0xFFFF#64, core := 0, time := 0, pc := 0x10000#64, word := 0#32, pfx := none, dest := [], notBefore := 0,
    hostAck := false, peerAck := false, kind := k }
def sent (k : ReqKind) (s : State) : State := { s with reqs := [(5, req k)], uid := 6 }

theorem noWaiters_of_kinds {s : State}
    (h : s.reqs.all (fun e => match e.2.kind with
      | .fe _ _ _ _ _ _ w => (w.rank e.2.launch).isNone
      | _ => true) = true)
    (hb : s.groups.all (fun e => e.2.blocks.isEmpty) = true) : NoWaiters s := by
  intro sector
  unfold waitersOf
  rw [List.filterMap_eq_nil_iff.2, List.flatMap_eq_nil_iff.2]
  · rfl
  · intro e he
    have := List.all_eq_true.1 hb e he
    rw [List.isEmpty_iff] at this
    rw [this]; rfl
  · intro e he
    have := List.all_eq_true.1 h e he
    revert this
    cases e.2.kind with
    | fe k l va pa d r w =>
      intro hw
      rw [Option.isNone_iff_eq_none] at hw
      simp only [hw, Option.map_none, ite_self]
    | _ => intro _; rfl

theorem witness_ResultsLand :
    let s := sent (.value [{ lane := some 2, reg := 9, val := 7#32 }]) idle
    let x : LoadPart := { lane := some 2, reg := 9, va := 0x18000#64, pa := 0x18000, size := 4, signed := false }
    let t := sent (.load .gen [x]) idle
    (Tab.get? s.reqs 5 = some (req (.value [{ lane := some 2, reg := 9, val := 7#32 }])) ∧ (Tab.get? s.groups 1).isSome = true)
    ∧ (loadReady t 5 (req (.load .gen [x])) [x] = true ∧ partPoisoned t (req (.load .gen [x])) .gen x = false ∧ (Tab.get? t.groups 1).isSome = true)
    ∧ (heldByHalt s 5 1 = false ∧ heldByHalt t 5 1 = false)
    ∧ ((∀ k, k < x.size → aperture (x.pa + k) = 0 ∧ supplier t 0 .gen (x.pa + k) = none ∧ replicaOf t 0 (x.pa + k) = x.pa + k
        ∧ withStores t (clusterOf 0) (x.pa + k) (t.byte (x.pa + k)) = t.byte (x.pa + k)) ∧ (t.team 1).tx = none)
    ∧ NoWaiters t := ⟨by decide, by decide, by decide, by decide, noWaiters_of_kinds (by decide) (by decide)⟩

/-- A sealed page of another die, whose bytes may go into the pool. -/
theorem witness_ResultsLand_replica :
    let x : LoadPart := { lane := some 2, reg := 9, va := 0x40000#64, pa := 2 ^ 37, size := 4, signed := false }
    let t := ((sent (.load .gen [x]) (extent (2 ^ 37) true idle)).setBytes 0x1000000 (leBytes 8 (2 ^ 31))).modDie 0
      (fun d => { d with replbase := 2#64, replsize := 1#64 })
    let u := t.modDie 1 (fun d => { d with tailtab := 0x1000000#64 })
    loadReady u 5 (req (.load .gen [x])) [x] = true ∧ partPoisoned u (req (.load .gen [x])) .gen x = false ∧ u.mode.getLsbD 3 = false
      ∧ (u.die (dieOf 0)).replbase = 2#64 ∧ u.sealed (2 ^ 37) = true ∧ NoWaiters u :=
  ⟨by decide, by decide, by decide, by decide, by decide, noWaiters_of_kinds (by decide) (by decide)⟩

/-- A store to the first word of a sector, and to its last. -/
theorem witness_SlicesPerformWrites :
    let ps : List StorePart := [{ lane := some 0, va := 0x18000#64, pa := 0x18000, bytes := [1#8] },
      { lane := some 1, va := 0x18038#64, pa := 0x18038, bytes := leBytes 8 7 }]
    let s := sent (.store ps) idle
    let es : List LogEntry := [{ core := 0, group := 1, lane := none, pa := 0x18000, va := 0x18000#64, op := .write (leBytes 8 7) }]
    let t := sent (.commit es 20 0#32) idle
    let at_ := ReqKind.atomic .add 0#3 0x18000#64 0x18000 [{ lane := some 0, x := 1#64, new := 0#64 }, { lane := some 1, x := 2#64, new := 0#64 }] (some 9)
    let u := sent at_ idle
    ((∀ k, k < 2 → ∃ x, ps[k]? = some x ∧ partReady s 5 (req (.store ps)) ps k x = true ∧ aperture x.pa ≠ 2) ∧ NoWaiters s)
    ∧ (storesAhead t (clusterOf 0) 5 [(0x18000 - 0x18000 % 8, 8)] = false ∧ peerAnswers t 0x18000 = true ∧ aperture 0x18000 ≠ 2 ∧ NoWaiters t)
    ∧ (peerAnswers u 0x18000 = true ∧ storesAhead u (clusterOf 0) 5 [(0x18000, typeSize 0#3)] = false ∧ u.poisoned 0x18000 (typeSize 0#3) = false
      ∧ atomicPoisoned u (req at_) = [] ∧ NoWaiters u) :=
  ⟨⟨fun k hk => match k, hk with
      | 0, _ => ⟨_, rfl, by decide, by decide⟩
      | 1, _ => ⟨_, rfl, by decide, by decide⟩, noWaiters_of_kinds (by decide) (by decide)⟩,
   ⟨by decide, by decide, by decide, noWaiters_of_kinds (by decide) (by decide)⟩,
   by decide, by decide, by decide, by decide, noWaiters_of_kinds (by decide) (by decide)⟩

/-- The group waits for the answers to an APPEND, whose tail words lie at 0x8000. -/
def appending (s : State) : State :=
  (s.modGroup 1 (fun g => { g with append := some (AppendJob.mk 1 0xFFFF#64 0x10000#64 0x10004#64 0#32 none []) })).modDie 0 (fun d => { d with tailtab := 0x8000#64 })
/-- The page at 0x4_0000 is sealed. -/
def shut (s : State) : State := s.setBytes (0x8020) (leBytes 8 (2 ^ 31))

theorem witness_SlicesAppendAndSeal :
    let recs : List AppendRec := [{ lane := 0, va := 0x40000#64, bytes := [1#8, 2#8, 3#8, 4#8] }, { lane := 1, va := 0x40000#64, bytes := [5#8, 6#8, 7#8, 8#8] }]
    let s := appending (sent (.append true 0x40000 0x10000 4 recs 9) idle)
    let t := shut s
    let u := sent (.seal 0x40000 20) idle
    (s.sealed 0x40000 = false ∧ (∀ x ∈ recs, x.bytes.length = 4) ∧ NoWaiters s ∧ s.tailPa 0x40000 + 8 ≤ 0x40000
      ∧ (∃ g, Tab.get? s.groups 1 = some g ∧ ∃ j, g.append = some j ∧ j.sealed = []))
    ∧ (t.sealed 0x40000 = true ∧ ∃ g, Tab.get? t.groups 1 = some g ∧ ∃ j, g.append = some j ∧ j.sealed = [])
    ∧ (Tab.get? u.reqs 5 = some (req (.seal 0x40000 20)) ∧ NoWaiters u) :=
  ⟨⟨by decide, by decide, noWaiters_of_kinds (by decide) (by decide), by decide, _, rfl, _, rfl, by decide⟩,
   ⟨by decide, _, rfl, _, rfl, by decide⟩, by decide, noWaiters_of_kinds (by decide) (by decide)⟩

/-- An APPEND whose last page answers that it is sealed. -/
theorem witness_SlicesAppendAndSeal_sealed :
    let recs : List AppendRec := [{ lane := 0, va := 0x40000#64, bytes := [1#8, 2#8, 3#8, 4#8] }, { lane := 63, va := 0x40000#64, bytes := [5#8, 6#8, 7#8, 8#8] }]
    let s := (shut (appending (sent (.append false 0x40000 0x10000 4 recs 9) idle))).modGroup 1 vec
    s.sealed 0x40000 = true ∧ recs.Pairwise (fun a b => a.lane < b.lane) ∧ (∀ y ∈ recs, y.lane < 64)
      ∧ ∃ g, Tab.get? s.groups 1 = some g ∧ g.frozen = false ∧ g.handler = false ∧ g.trapvec ≠ 0#64 ∧ ∃ j, g.append = some j ∧ j.sealed = [] ∧ j.left ≤ 1 :=
  ⟨by decide, by decide, by decide, _, rfl, by decide, by decide, by decide, _, rfl, by decide⟩

/-- Performed at the slice, and at a try; held by a monitor; tried again; and an STFS. -/
theorem witness_SlicesPerformFullEmpty :
    let k := fun (f : FeKind) (w : Watch) => ReqKind.fe f 2 0x18000#64 0x18000 7#64 9 w
    let s := sent (k .stf .flying) idle
    let t := sent (k .stf (.polled 0)) idle
    let u := sent (k .ldw .flying) idle
    let v := sent (k .ldw (.polled 0)) idle
    let ls : List FillLane := [{ lane := 0, va := 0x18000#64, pa := 0x18000, data := 1#64 }, { lane := 1, va := 0x18008#64, pa := 0x18008, data := 2#64 }]
    let w := sent (.stfs ls) idle
    (feQueued s 5 (req (k .stf .flying)) 2 0x18000 = false ∧ peerAnswers s 0x18000 = true ∧ feReady s .stf 0x18000 = true
      ∧ feBehind s 5 (req (k .stf .flying)) 2 0x18000 = false ∧ fePoisoned s (req (k .stf .flying)) .stf 2 0x18000#64 0x18000 = [] ∧ 5 < s.uid ∧ 0 ≠ peerCore ∧ NoWaiters s)
    ∧ (feReady t .stf 0x18000 = true ∧ feBehind t 5 (req (k .stf (.polled 0))) 2 0x18000 = false ∧ NoWaiters t)
    ∧ (feQueued u 5 (req (k .ldw .flying)) 2 0x18000 = false ∧ feReady u .ldw 0x18000 = false ∧ monitorsAt u (homeSlice 0x18000) < 192
      ∧ NatSet.mem u.watched (0x18000 / 64) = false ∧ (Tab.get? u.groups 1).isSome = true)
    ∧ feReady v .ldw 0x18000 = false
    ∧ ((∀ x ∈ ls, peerAnswers w x.pa = true) ∧ storesAhead w 0 5 (ls.map (fun x => (x.pa, 8))) = false ∧ doubleFills w ls = []
      ∧ (ls.map (fun x => x.lane)).Nodup ∧ (∀ x ∈ ls, x.pa % 8 = 0) ∧ NoWaiters w) :=
  ⟨⟨by decide, by decide, by decide, by decide, by decide, by decide, by decide, noWaiters_of_kinds (by decide) (by decide)⟩,
   ⟨by decide, by decide, noWaiters_of_kinds (by decide) (by decide)⟩, ⟨by decide, by decide, by decide, by decide, by decide⟩, by decide,
   by decide, by decide, by decide, by decide, by decide, noWaiters_of_kinds (by decide) (by decide)⟩

/-- A WAIT of lane 0, number 3, for a device time. -/
def waitEntry (ticks : Nat) : WaitEntry :=
  { kind := 4, addr := 0#64, cmp := 3, size8 := true, value := BitVec.ofNat 64 ticks, pa := 0, watch := .polled 0 }
def waiting (b : Block) (s : State) : State :=
  s.modGroup 1 (fun g => ({ g with blocks := [(3, b)] }).modThread 0 (fun t => { t with wait := .block 3 }))
def gated (l : Launch) : Launch :=
  { l with phase := .gated, gates := [{ pa := 0x18000, resolved := false, watch := .polled 0 }, { pa := 0x18008, resolved := true, watch := .flying }] }

theorem witness_WaitsEnd :
    let b := fun (n : Nat) => Block.mk 1#64 0x10004#64 (.wait [waitEntry n] false (some 0) 9) none
    let s := waiting (b 5) idle
    let t := waiting (b 0) idle
    let u := idle.modLaunch 1 gated
    let v : State := { u with full := [0x18000 / 8] }
    let k := ReqKind.fe .ldw 2 0x18000#64 0x18000 7#64 9 .flying
    let w : State := { sent k (put (.nop 0#2) (fun g => { vec g with traplanes := 0#64 })) with time := 100000000000 }
    (∃ g, Tab.get? s.groups 1 = some g ∧ Tab.get? g.blocks 3 = some (b 5) ∧ mayTake s g = true ∧ [waitEntry 5].any (fun e => e.due s.time) = true
      ∧ waitResult s g [waitEntry 5] false = none ∧ (g.thread 0).wait = .block 3)
    ∧ (∃ g, Tab.get? t.groups 1 = some g ∧ (waitResult t g [waitEntry 0] false).isSome = true)
    ∧ ((u.launch 1).gates[0]? = some { pa := 0x18000, resolved := false, watch := .polled 0 } ∧ u.isFull 0x18000 = false)
    ∧ (v.isFull 0x18000 = true ∧ (∀ x, (v.launch 1).gates[1]? = some x → x.resolved = true) ∧ (v.launch 1).phase = .gated)
    ∧ (∃ g, Tab.get? w.groups 1 = some g ∧ mayTake w g = true ∧ budgetOver w g (req k) 2 = true ∧ g.handler = false ∧ g.trapvec ≠ 0#64
      ∧ 2 < g.threads.length) :=
  ⟨⟨_, rfl, by decide, by decide, by decide, by decide, by decide⟩, ⟨_, rfl, by decide⟩, by decide, ⟨by decide, by decide, by decide⟩, _, rfl, by decide,
   by decide, by decide, by decide, by decide⟩

/-! ### Witnesses: the dispatcher, groups, carters, Looms -/

/-- Queue 0 is enabled, with one entry. -/
def queued (s : State) : State := s.modQueue 0 (fun q => { q with en := true, log2n := 4, prio := 1, tail := 1#16 })
/-- The cluster's queue holds a card. -/
def clusterQueued (s : State) : State :=
  s.modCluster 0 (fun c => { c with queue := listModify c.queue 0 (fun _ => { ClusterEntry.empty with valid := true, card := 0x18000#64, ctx := 0x1000 }) })
/-- The launch's one team has not been placed; it was, and every group of it has ended. -/
def unplaced (l : Launch) : Launch := { l with nextTeam := 0 }
def emptied (s : State) : State := { (s.modLaunch 1 (fun l => { l with quietSince := some 0 })) with groups := [], time := 640 }

theorem witness_DispatcherTakesAndPlaces :
    let s := queued idle
    let t := clusterQueued idle
    let u := idle.modLaunch 1 unplaced
    let v := emptied idle
    (nextQueue s = some 0 ∧ s.boot.stage = 3 ∧ queuePrio s 0 = some 1)
    ∧ (∃ e, clusterFirst t 0 = some (0, e) ∧ t.boot.stage = 3 ∧ nextQueue t = some 64 ∧ queuePrio t 64 = some (clusterPrio t e))
    ∧ (placeable u 1 8 = true ∧ nearEnough u 1 8 = true ∧ evictedFirst u 1 = false ∧ (∀ e ∈ u.launches, e.1 = 1) ∧ (u.launch 1).replays = []
      ∧ (u.launch 1).det = false)
    ∧ (∃ l, Tab.get? v.launches 1 = some l ∧ l.quietSince = some 0 ∧ quiet v 1 = true ∧ 0 + 64 * refTick ≤ v.time ∧ launchReleased v 1 = true
      ∧ l.det = false ∧ (∀ pa, l.compPa v = some pa → aperture pa ≠ 2) ∧ NoWaiters v ∧ NoParks v ∧ l.fail.getD 0 < 2 ^ 8) :=
  ⟨by decide, ⟨_, rfl, by decide, by decide, by decide⟩, ⟨by decide, by decide, by decide, by decide, by decide, by decide⟩, _, rfl, by decide, by decide,
    by decide, by decide, by decide, by decide, noWaiters_of rfl (by decide), ⟨fun e he => (by cases he), fun e he => (by cases he)⟩, by decide⟩

/-- Every thread of the group waits at a YIELD; the group has been asked to go. -/
def yielding (g : Group) : Group :=
  { g with blocks := [(3, { lanes := 0xFFFF#64, next := 0x10004#64, kind := .yield })], threads := g.threads.map (fun t => { t with wait := .block 3 }),
           preempt := some { since := 0 } }
/-- Halted, with the wake of a BAR recorded. -/
def awoken (g : Group) : Group :=
  { g with halted := true, blocks := [(3, { lanes := 0xFFFF#64, next := 0x10004#64, kind := .bar 7 0#31 9, woken := some 1#32 })],
           threads := g.threads.map (fun t => { t with wait := .block 3 }) }
def debugged (s : State) : State := s.modCore 0 (fun k => { k with debugSlots := listModify k.debugSlots 0 (fun d => { d with haltreq := true }) })

theorem witness_GroupsLeaveAndReturn :
    let s := put (.nop 0#2) yielding
    let t := inTx tx0 s
    let u := put (.nop 0#2) (fun g => { g with place := .evicted 0 })
    let v : State := { inTx tx0 (put (.nop 0#2) (fun g => { g with preempt := some { since := 0 } })) with time := 100000 }
    let w : State := { idle with time := 100000 }
    let x := debugged idle
    (∃ g, Tab.get? idle.groups 1 = some g ∧ g.frozen = false ∧ g.resident = true ∧ g.preempt = none)
    ∧ (∃ g, Tab.get? s.groups 1 = some g ∧ g.resident = true ∧ g.preempt.isSome = true ∧ g.handler = false ∧ g.halted = false ∧ g.frozen = false
      ∧ s.blocked 1 g = true ∧ (s.team g.team).tx = none ∧ fencedForEviction s 1 g = true)
    ∧ (∃ g, Tab.get? t.groups 1 = some g ∧ t.blocked 1 g = true ∧ (t.team g.team).tx.isSome = true)
    ∧ mayRestore u 1 0 = true
    ∧ (∃ g l, Tab.get? v.groups 1 = some g ∧ g.preempt = some { since := 0 } ∧ (v.team g.team).tx = some tx0 ∧ Tab.get? v.launches 1 = some l ∧ l.det = false
      ∧ 0 + 10000 * refTick ≤ v.time ∧ l.fail = none)
    ∧ (∃ g, Tab.get? w.groups 1 = some g ∧ (ready w 1 g true || ready w 1 g false) = true
      ∧ 512 * 20 ≤ g.readyClocks + (w.time - g.readySince) * (w.cluster (clusterOf g.core)).feeff)
    ∧ (∃ g, x.slotGroup 0 0 = some (1, g) ∧ g.place = .resident 0 0 ∧ haltDue x g = some 6 ∧ 0 < (x.core 0).debugSlots.length ∧ debugAnswers x 0 0 = true)
    ∧ (∃ g, (put (.nop 0#2) (fun g => { g with halted := true })).slotGroup 0 0 = some (1, g) ∧ g.halted = true ∧ g.blocks = [])
    ∧ (∃ g b, (put (.nop 0#2) awoken).slotGroup 0 0 = some (1, g) ∧ g.halted = true ∧ g.blocks = [(3, b)] ∧ b.kind = .bar 7 0#31 9 ∧ b.woken = some 1#32)
    ∧ (∃ g, (put (.nop 0#2) (fun g => { g with frozen := true })).slotGroup 0 0 = some (1, g) ∧ g.frozen = true) :=
  ⟨⟨_, rfl, by decide, by decide, by decide⟩, ⟨_, rfl, by decide, by decide, by decide, by decide, by decide, by decide, by decide, by decide⟩,
   ⟨_, rfl, by decide, by decide⟩, by decide, ⟨_, _, rfl, by decide, by decide, rfl, by decide, by decide, by decide⟩, ⟨_, rfl, by decide, by decide⟩,
   ⟨_, rfl, by decide, by decide, by decide, by decide⟩, ⟨_, rfl, by decide, by decide⟩, ⟨_, _, rfl, rfl, rfl, rfl, rfl⟩, _, rfl, by decide⟩

/-- A CPY of two words from 0x1_8000 to 0x1_8100, its completion word at 0x1_8200. -/
def copy (state : Nat) (performed : NatSet) : Cmd :=
  { launch := 1, team := 1, group := 1, gid := 0, core := 0, die := 0, ticket := 0#32, quant := false,
    block := BitVec.ofNat 512 (0x18000 + 0x18100 * 2 ^ 64 + 16 * 2 ^ 128 + 2 ^ 167), src := [{ va := 0x18000, pa := 0x18000, len := 16 }],
    dst := [{ va := 0x18100, pa := 0x18100, len := 16 }], compw := 0x18200, state := state, poison := false, clamp := 0, carter := none, out := [],
    performed := performed, complete := 0, hostAck := false, peerAck := false, compDue := false, srcT := 0#512, dstT := 0#512 }
def copying (c : Cmd) (s : State) : State := { s with cmds := [(4, c)], carters := [(0, { cmd := some 4, frozen := false })], uid := 5 }
/-- The same without a completion word. -/
def silent (c : Cmd) : Cmd := { c with block := BitVec.ofNat 512 (0x18000 + 0x18100 * 2 ^ 64 + 16 * 2 ^ 128) }

theorem witness_CartersAndLoomsWork :
    let s : State := { idle with cmds := [(4, copy 0 [])], uid := 5 }
    let t := copying (copy 1 []) idle
    let u := copying (copy 1 [0, 1]) idle
    let v := copying (silent (copy 1 [0, 1])) idle
    let w := copying { copy 2 [0, 1] with compDue := true } idle
    let x : State := { t with poison := [0x18000 / 8] }
    ((s.carter 7).cmd = none ∧ (s.carter 7).frozen = false ∧ 7 / 8 = (copy 0 []).die ∧ cmdStartable s 4 (copy 0 []) = true
      ∧ ∀ e ∈ s.cmds, ¬ e.1 < 4)
    ∧ (∀ i, i < 2 → ∃ a b, i < (copy 1 []).count ∧ NatSet.mem (copy 1 []).performed i = false ∧ pieceAt (copy 1 []).src (8 * i) = some a
      ∧ pieceAt (copy 1 []).dst (8 * i) = some b ∧ readsPoison t a.2 8 = false ∧ peerAnswers t b.2 = true ∧ aperture b.2 ≠ 2 ∧ NoWaiters t)
    ∧ ((u.carter 0).cmd = some 4 ∧ (copy 1 [0, 1]).performed.length = (copy 1 [0, 1]).count ∧ (Tab.get? u.teams 1).isSome = true
      ∧ compF (copy 1 [0, 1]).block = true)
    ∧ ((silent (copy 1 [0, 1])).performed.length = (silent (copy 1 [0, 1])).count ∧ (Tab.get? v.teams 1).isSome = true
      ∧ compF (silent (copy 1 [0, 1])).block = false)
    ∧ ((w.carter 0).cmd = some 4 ∧ cmdScope (copy 2 [0, 1]).block ≠ 5 ∧ peerAnswers w 0x18200 = true ∧ aperture 0x18200 ≤ 1 ∧ NoWaiters w)
    ∧ ((x.carter 0).cmd = some 4 ∧ cmdPoison x (copy 1 []) = some 0x18000) :=
  ⟨by decide, fun i hi => match i, hi with
      | 0, _ => ⟨_, _, by decide, by decide, rfl, rfl, by decide, by decide, by decide, noWaiters_of rfl (by decide)⟩
      | 1, _ => ⟨_, _, by decide, by decide, rfl, rfl, by decide, by decide, by decide, noWaiters_of rfl (by decide)⟩,
   by decide, by decide, ⟨by decide, by decide, by decide, by decide, noWaiters_of rfl (by decide)⟩, by decide⟩

/-- A transaction that has deferred a command, behind one that it has not. -/
theorem witness_TransactionsClose_deferred :
    let i := Instr.txcommit 0#2 20#7
    let k := Instr.txabort 0#2
    let defer := fun (s : State) => { inTx tx0 s with cmds := [(3, copy 3 []), (4, copy 4 []), (5, copy 4 [])], uid := 6 }
    let s := defer (put i id)
    let t := defer (put k id)
    (Issues i none s (site i none s) (grp s) ∧ txBusy s (grp s).team tx0 = false ∧ teamReleased s (grp s).team = true
      ∧ (ctxOf i s (site i none s) (grp s)).mayRelease (issuedState s (site i none s) (grp s)) 4 = true ∧ Tab.sorted s.cmds = true
      ∧ (∀ e ∈ s.cmds, e.1 < s.uid) ∧ s.cmds.map (deferredBy (grp s).team) = [false, true, true])
    ∧ (Issues k none t (site k none t) (grp t) ∧ t.reqs = [] ∧ t.cmds.map (deferredBy (grp t).team) = [false, true, true] ∧ NoInnerWaits t) :=
  ⟨⟨issues_of (by decide), by decide, by decide, by decide, by decide, by decide, by decide⟩, issues_of (by decide), by decide, by decide, noInnerWaits_of (by decide)⟩

/-- A step with one sum, of 1. -/
def oneStep : LoomStep := { int := false, poison := false, sums := [.fin false 1 1 0], extreme := 0, cancel := 0 }

theorem witness_CartersAndLoomsWork_loom :
    let y := tensor 0x18000 128 64 64 1 0 0 0
    let l := loomOf (.loop 2 0 1 true y 0 0)
    let m := { l with granted := [(0, oneStep)] }
    let t := withLoom m idle
    let done := { l with nextStep := 1 }
    (Tab.get? m.granted m.nextStep = some oneStep ∧ shapeTurn t 2 m = true ∧ (t.cluster (clusterOf 0)).thermal < 2
      ∧ oneStep.sums[0]? = some (.fin false 1 1 0) ∧ ∃ w, (accWords t 0 2)[0]? = some w)
    ∧ done.added = true
    ∧ (∀ op ∈ [LoomOp.zero 2, .write 2 0 0 [(0, 5#32), (1, 6#32)], .loadb 31 y 0 0, .read 7 0 0 9], loomStarts (withLoom (loomOf op) idle) 2 (loomOf op) = true)
    ∧ (pendingAdds (withLoom (loomOf (.read 7 0 0 9)) idle) 2 0 7 = [] ∧ ∃ g, Tab.get? idle.groups 1 = some g ∧ (g.thread 15).live = true
      ∧ 15 < g.threads.length)
    ∧ accPoison idle 0 2 = [] ∧ accPoison idle 0 7 = [] :=
  ⟨⟨by decide, by decide, by decide, by decide, _, by rfl⟩, by decide, by decide, ⟨by decide, _, rfl, by decide, by decide⟩, by decide⟩

/-- Two commands whose steps name slot 3: the younger one of the higher PRIO was fetched first; and a slot that a granted step holds. -/
theorem witness_CartersAndLoomsWork_grant :
    let y := tensor 0x18000 128 64 64 1 0 0 0
    let a := loomOf (.loop 2 0 4 true y 0 0)
    let b := { loomOf (.loop 4 3 1 true y 0 0) with prio := 1, fetched := [(0, 0)] }
    let s : State := { idle with looms := [(2, a), (3, b)], uid := 4 }
    let s1 := s.modLoom 2 (fun l => { l with fetched := Tab.put l.fetched 3 0 })
    let held : State := { idle with looms := [(2, a), (3, { b with fetched := [], granted := [(0, oneStep)] })], uid := 4 }
    (a.nextStep ≤ 3 ∧ Tab.get? a.granted 3 = none ∧ loomStarts s 2 a = true ∧ loomRuns s a.core = true ∧ slotTaken s a.core (0 + 3) = false
      ∧ Tab.sorted s.looms = true ∧ (∀ e ∈ s.looms, Tab.sorted e.2.fetched = true)
      ∧ ((readySteps s1 (slotPlace a.core 3)).map (fun r => (r.cmd, r.k, r.passed, r.of.prio)) = [(2, 3, 0, 0), (3, 0, 0, 1)]))
    ∧ (slotTaken held a.core (0 + 3) = true ∧ loomStarts held 2 a = true ∧ loomRuns held a.core = true) := by decide

/-- The one of the higher PRIO goes first; one that 16 grants have passed over goes before it. -/
theorem witness_CartersAndLoomsWork_order :
    let y := tensor 0x18000 128 64 64 1 0 0 0
    let r := fun (cmd k passed prio : Nat) => (ReadyStep.mk cmd k passed { loomOf (.loop 2 0 4 true y 0 0) with prio := prio })
    grantedFirst (r 3 0 0 1) (r 2 3 0 0) ∧ grantedFirst (r 2 3 16 0) (r 3 0 0 1) ∧ grantedFirst (r 2 0 17 0) (r 2 1 16 0) := by
  refine ⟨Or.inr ⟨by simp, Or.inl (by decide)⟩, Or.inl ⟨by decide, by decide⟩, Or.inr ⟨by simp, Or.inr ⟨rfl, Or.inr ⟨rfl, by decide⟩⟩⟩⟩
/-! ### Witnesses: the outside world, power, errors -/

/-- A load of a word that lies in a peer which is not there. -/
def farPart : LoadPart := { lane := some 2, reg := 9, va := 0x40000#64, pa := 2 ^ 46 + 2 ^ 40, size := 4, signed := false }
def farAdd : ReqKind := .atomic .add 0#3 0x40000#64 (2 ^ 46 + 2 ^ 40) [{ lane := some 0, x := 1#64, new := 0#64 }] none

/-- Reads of 64 bytes and of an address that the host does not reach; a write, an add and peer requests at 0x1_8000; a command in flight; requests to an absent
peer. -/
theorem witness_HostAndPeersReach :
    let s := idle
    let c := copying (copy 1 []) idle
    let t := sent (.load .gen [farPart]) idle
    let u := sent farAdd idle
    ((∀ k, k < 64 → hostReaches s (0x18000 + k) = true) ∧ ∃ k, k < 1 ∧ hostReaches s (3 * 2 ^ 46 + k) = false)
    ∧ ((∀ k, k < 9 → s.populated (0x18000 + k) = true) ∧ NoWaiters s ∧ 0x18000 % 8 = 0 ∧ aperture 0x18000 = 0 ∧ s.poisoned 0x18000 8 = false)
    ∧ ((hostOp (.myentFetchAdd 0x18000 1#64)).isSome = true ∧ (hostOp (.myentCompareAndSwap 0x18000 0#64 1#64)).isSome = true)
    ∧ (feReady s .stf 0x18000 = true ∧ feReady s .ldw 0x18000 = false ∧ s.isFull 0x18000 = false)
    ∧ (Tab.get? c.cmds 4 = some (copy 1 []) ∧ Tab.sorted c.reqs = true)
    ∧ (unanswered t 0 farPart.pa = true ∧ ∃ g, Tab.get? t.groups 1 = some g ∧ g.frozen = false ∧ g.resident = true)
    ∧ (Tab.get? u.reqs 5 = some (req farAdd) ∧ (req farAdd).sure = false ∧ unanswered u 0 (2 ^ 46 + 2 ^ 40) = true ∧ NoWaiters u) :=
  ⟨by decide, ⟨by decide, noWaiters_of rfl (by decide), by decide, by decide, by decide⟩, by decide, by decide, by decide, ⟨by decide, _, rfl, by decide, by decide⟩, by decide, by decide, by decide,
   noWaiters_of_kinds (by decide) (by decide)⟩

/-- A context descriptor at 0x4_0000: CTXID 1, 2^4 events. -/
def context (s : State) : State := (s.setBytes 0x40010 [1#8]).setBytes 0x40020 [4#8]

theorem witness_DeviceRegisters :
    let s := queued idle
    let t := (context idle).modQueue 63 (fun q => { q with ctx := 0x40000#64 })
    let u : State := { idle with killBusy := true }
    let c : State := { idle with cmds := [(4, { copy 3 [] with poison := true })], carters := [(31, { cmd := some 4, frozen := true })] }
    let r := idle.modLaunch 1 (fun l => { l with phase := .residency })
    let f := idle.modDie 0 (fun d => { d with freeBusy := true, freepg := 0x40000#64 })
    idle.boot.stage = 3
    ∧ ((s.queue 0).en = true ∧ (t.queue 63).en = false ∧ ctxSound t (t.queue 63).ctx.toNat = true)
    ∧ (u.killBusy = true ∧ idle.killBusy = false ∧ Tab.get? idle.launches 0 = none ∧ ∃ l, Tab.get? idle.launches 1 = some l ∧ l.phase ≠ .ended)
    ∧ ((c.carter 31).frozen = true ∧ (c.carter 31).cmd = some 4 ∧ (Tab.get? c.cmds 4).isSome = true ∧ (Tab.get? c.teams 1).isSome = true)
    ∧ (∀ l, Tab.get? idle.launches 1 = some l → l.phase ≠ .residency)
    ∧ (∃ l, Tab.get? r.launches 1 = some l ∧ l.phase = .residency)
    ∧ (pageAnswers idle 0 = true ∧ (idle.die 0).freeBusy = false ∧ 0x40000 % 0x10000 = 0 ∧ aperture 0x40000 = 0 ∧ idle.populated 0x40000 = true
      ∧ homeDie 0x40000 = 0)
    ∧ ((f.die 0).freeBusy = true ∧ pageLeased f 0x40000 0x10000 = false ∧ NoWaiters f) :=
  ⟨by decide, by decide, ⟨by decide, by decide, by decide, _, rfl, by decide⟩, by decide, fun l hl => by cases hl; decide, ⟨_, rfl, by decide⟩, by decide, by decide, by decide, noWaiters_of rfl (by decide)⟩

/-- The last comparator of each kind, a counter, and MODE; a write of the Smithy beyond its registers. -/
theorem witness_DeviceRegisters_writes :
    (windowRegister 0x43170 5#64).isSome = true ∧ (windowRegister 0x43278 5#64).isSome = true ∧ (windowRegister 0x44020 5#64).isSome = true
    ∧ (dieRegister 0x128 3 5#64 idle).isSome = true ∧ (dieRegister 0x100 0 0x1F#64 idle).isSome = true ∧ Agent.host ≠ .smithy ∧ idle.boot.stage = 3
    ∧ (2 ^ 47 + 0x40000000 + 0x80) % 8 = 0 ∧ (0x80 < 0x4000 ∧ 0x80 < 0x0C0) := by decide

/-- CLIMIT 160 as reset leaves it, with averages above, between and below; CLIMIT 0. -/
theorem witness_PowerAndHeat :
    let d := idle.modCluster 191 (fun x => { x with droop := some 0 })
    let b := { idle.modCluster 191 (fun x => { x with below := 9 }) with time := 1000 }
    let z := { idle.modCluster 191 (fun x => { x with clkctl := 0x158#32 }) with time := 1000 }
    let w : State := { idle with time := 10000000 }
    let q := idle.modCluster 191 (fun x => { x with railreq := true })
    let r : State := { idle.modCluster 191 (fun x => { x with railup := true }) with time := 50000 }
    (powerWriter idle .host = false ∧ powerWriter idle .smithy = true ∧ clkctlOk 0x00A00158#32 = true ∧ clkctlOk 0#32 = false)
    ∧ (d.cluster 191).droop = some 0
    ∧ (bitsAt (b.cluster 191).clkctl 16 8 = 160 ∧ (b.cluster 191).below = 9 ∧ 10 * 143 < 9 * 160 ∧ 160 < 161 ∧ 9 * 160 ≤ 10 * 150
      ∧ (b.cluster 191).curInterval + 1 = b.time / 1000 ∧ bitsAt (z.cluster 191).clkctl 16 8 = 0 ∧ (z.cluster 191).curInterval < z.time / 1000
      ∧ idle.time / 1000 ≤ (idle.cluster 191).curInterval)
    ∧ (w.boot.stage = 3 ∧ (w.die 3).smhbTime + 10000000 ≤ w.time)
    ∧ (q.cluster 191).railreq = true
    ∧ ((r.cluster 191).railup = true ∧ stepsRunning r 191 = false ∧ (r.cluster 191).lastStep + 50000 ≤ r.time) := by decide

/-- A launch with HC 3 whose one group waits at a YIELD. -/
def lit : State := (put (.nop 0#2) yielding).modLaunch 1 (fun l => { l with card := l.card ||| BitVec.ofNat 1024 (3 * 2 ^ 72) })

/-- Core 0 to core 3; and from a core that has no such team. -/
theorem witness_PowerAndHeat_migration :
    let v : Word := 0xC00#32
    let s0 := lit.modDie 0 (fun x => { x with migreq := v &&& 0x000FFFFF#32 })
    ((lit.die 0).migBusy = false ∧ migrant s0 0 (bitsAt v 0 10) = some 1 ∧ mayMigrate s0 1 = true
      ∧ (List.range 192).find? (fun k => (bitsAt v 10 10 == 0x3FF || bitsAt v 10 10 == 192 * 0 + k) && migrateTo s0 1 0 (192 * 0 + k)) = some 3
      ∧ fencedToMove s0 1 = true ∧ fencedToMove { s0 with reqs := [(5, req (.store [{ lane := none, va := 0x18000#64, pa := 0x18000, bytes := [1#8] }]))] } 1 = false)
    ∧ migrant idle 0 0 = none := by decide

/-- A card in the engine's queue 7, its bytes at 0x1_8000: OP, LADDR 0x1_8100, LEN, COMPW 0x1_8200. -/
def ueCardAt (op len : Nat) (s : State) : State :=
  let c := op + 0x18100 * 2 ^ 128 + len * 2 ^ 192 + 0x18200 * 2 ^ 448
  { s.setBytes 0x18000 (leBytes 128 c) with engine := { s.engine with queues := [[], [], [], [], [], [], [], [{ order := 0, launch := 1, card := 0x18000#64 }]] } }
/-- The context's endpoint table, at 0x2_0000, with endpoint 0 valid. -/
def endpoints (s : State) : State := (s.setBytes 0x38 (leBytes 8 0x20000)).setBytes 0x20014 [1#8]
/-- A posted receive of 8 bytes at 0x1_8100. -/
def posted (op : Nat) : UeCard :=
  { queue := 7, launch := 1, card := BitVec.ofNat 1024 (op + 8 * 2 ^ 192), buf := [{ va := 0x18100, pa := 0x18100, len := 8 }], compw := 0x18200, received := 0,
    truncated := false, filled := false, complete := 0, hostAck := false, peerAck := false }
def withUe (k : UeCard) : State := { idle with engine := { idle.engine with cards := [(4, k)] }, uid := 5 }

theorem witness_EngineCards :
    let s := fun (op : Nat) => endpoints (ueCardAt op 8 idle)
    let t := fun (op : Nat) => ueCardAt op 0 idle
    (∀ op ∈ [0, 1, 2, 3, 4, 5], let c := ueCard (s op) ((s op).launch 1) 0x18000
      (s op).engine.queues[7]? = some [{ order := 0, launch := 1, card := 0x18000#64 }] ∧ ueWaits (s op) 0 ((s op).launch 1) c = false ∧ ueOp c = op ∧ ueBad c = false
      ∧ ueBuffer (s op) ((s op).launch 1) c = some [{ va := 0x18100, pa := 0x18100, len := 8 }] ∧ ueCompletion (s op) ((s op).launch 1) c = some 0x18200
      ∧ (ueReceives c = true ∨ endpointValid (s op) ((s op).launch 1) (ueEp c) = true))
    ∧ (∀ op ∈ [0, 1, 2, 3, 4, 5, 6, 7], let c := ueCard (t op) ((t op).launch 1) 0x18000
      ueWaits (t op) 0 ((t op).launch 1) c = false ∧ ueOp c = op ∧ ueBad c = true ∧ ueCompletion (t op) ((t op).launch 1) c = some 0x18200 ∧ aperture 0x18200 = 0) := by decide

/-- No endpoint is valid; and a buffer that lies in no extent. -/
theorem witness_EngineCards_fails :
    let s := fun (op : Nat) => ueCardAt op 8 idle
    let u := fun (op : Nat) => ueCardAt op 0x20000 idle
    (∀ op ∈ [0, 1, 2, 3], let c := ueCard (s op) ((s op).launch 1) 0x18000
      ueWaits (s op) 0 ((s op).launch 1) c = false ∧ ueOp c = op ∧ ueBad c = false ∧ (ueBuffer (s op) ((s op).launch 1) c).isSome = true ∧ endpointValid (s op) ((s op).launch 1) (ueEp c) = false
      ∧ ueCompletion (s op) ((s op).launch 1) c = some 0x18200)
    ∧ (∀ op ∈ [0, 1, 2, 3, 4, 5], let c := ueCard (u op) ((u op).launch 1) 0x18000
      ueWaits (u op) 0 ((u op).launch 1) c = false ∧ ueOp c = op ∧ ueBad c = false ∧ ueBuffer (u op) ((u op).launch 1) c = none ∧ ueCompletion (u op) ((u op).launch 1) c = some 0x18200) := by decide

theorem witness_EngineCards_arrive :
    let u := withUe (posted 5)
    let v := withUe (posted 4)
    let w := withUe { posted 3 with received := 4 }
    (u.engine.cards.find? (fun e => !e.2.filled && ueOp e.2.card == 5) = some (4, posted 5) ∧ NoWaiters u)
    ∧ v.engine.cards.find? (fun e => !e.2.filled && (ueOp e.2.card == 4 && ueTag e.2.card == 0#64)) = some (4, posted 4)
    ∧ (Tab.get? w.engine.cards 4 = some { posted 3 with received := 4 } ∧ ueOp (posted 3).card = 3)
    ∧ ((∀ p ∈ (posted 5).buf, ∀ a, p.pa ≤ a → a < p.pa + p.len → aperture a = 0) ∧ aperture 0x18200 = 0)
    ∧ ueValue { posted 5 with filled := true, received := 8 } .done = some 8#64 :=
  ⟨⟨by decide, noWaiters_of rfl (by decide)⟩, by decide, ⟨by decide, by decide⟩, ⟨fun p hp a h1 h2 => by
    simp only [posted, List.mem_singleton] at hp
    subst hp
    simp only [aperture] at h1 h2 ⊢
    omega, by decide⟩, by decide⟩

/-- Stage 0 as reset leaves it; stage 2 with an image of one page and with one that is too long; a report asked for. -/
theorem witness_BootStages :
    let s : State := { State.reset with boot := { Boot.reset with stage := 2, len := 1#32 } }
    let t : State := { State.reset with boot := { Boot.reset with stage := 2, len := 0x1000001#32 } }
    let u : State := { State.reset with boot := { Boot.reset with attBusy := true, attNonce := List.replicate 64 7#8 } }
    State.reset.boot.stage = 0 ∧ (s.boot.stage = 2 ∧ s.boot.len.toNat ≤ 0x1000000) ∧ (t.boot.stage = 2 ∧ 0x1000000 < t.boot.len.toNat)
    ∧ (u.boot.attBusy = true ∧ u.boot.attNonce.length = 64) ∧ State.reset.boot.attBusy = false := by decide

/-- Outcomes of the check of an image: the highest version, good, and with FCODE 4; a signature that fails, and an image that is too long. -/
theorem witness_BootStages_outcomes :
    let f := fun (long : Prop) (_ : Decidable long) (fcode : Nat) (v : Word) =>
      if long ∨ fcode = 1 then 1 else if v < Config.rollbackCounter then 2 else if fcode = 3 ∨ fcode = 4 then fcode else 0
    f False inferInstance 0 0xFFFFFFFF#32 = 0 ∧ f False inferInstance 4 0xFFFFFFFF#32 = 4 ∧ f False inferInstance 1 0#32 = 1
    ∧ f True inferInstance 0 0xFFFFFFFF#32 = 1 := by
  have h : ¬ (0xFFFFFFFF#32 : Word) < Config.rollbackCounter := by
    rw [BitVec.lt_def]
    have := Config.rollbackCounter.isLt
    simp only [BitVec.toNat_ofNat]
    omega
  simp [h]

/-- A copy of the line at 0x1_8000 with a lease until 100 ns. -/
def leasedCopy (h : Holder) : State := { idle with copies := [(3, { holder := h, path := .gen, line := 0x300, data := List.replicate 128 0#8, expiry := 100 })] }

theorem witness_ErrorsAndCopies :
    let s := leasedCopy (.l1 0)
    let t : State := { s with time := 100 }
    let u := leasedCopy (.peer 1)
    let above := idle.modCore 0 (fun k => { k with ov := 11 })
    let under := idle.modLaunch 1 (fun l => { l with card := l.card ||| BitVec.ofNat 1024 (1 * 2 ^ 392) })
    (idle.populated 0x18000 = true ∧ idle.mode.getLsbD 4 = false ∧ 767 < 768 ∧ 0x5FFFF < 0x60000 ∧ ∀ e ∈ idle.reqs, e.2.sure = false)
    ∧ (∃ k, Tab.get? s.copies 3 = some k ∧ s.time < k.expiry ∧ ∀ d, k.holder ≠ .peer d)
    ∧ (∃ k, Tab.get? t.copies 3 = some k ∧ k.expiry ≤ t.time)
    ∧ (∃ k d, Tab.get? u.copies 3 = some k ∧ k.holder = .peer d)
    ∧ (∃ g, Tab.get? idle.groups 1 = some g ∧ g.resident = true
      ∧ checkVa idle (idle.launch g.launch) g.keyperm .load 0 0x80000#64 1 = .error ⟨.outOfLease, 0, 0x80000#64⟩)
    ∧ (under.core 0).ov * 32768 < overflowLo under 0
    ∧ (overflowLo idle 0 ≤ (above.core 0).ov * 32768) :=
  ⟨by decide, ⟨_, rfl, by decide, fun d h => by cases h⟩, ⟨_, rfl, by decide⟩, ⟨_, _, rfl, rfl⟩, ⟨_, rfl, by decide, by decide⟩, by decide, by decide⟩

/-- Errors in the last words of a core's local store, registers and slots, and in a copy of the L1; a code fetch outside every extent; an interval that has
passed, and one that has not. -/
theorem witness_ErrorsAndCopies_places :
    let s := leasedCopy (.l1 767)
    let past : State := { idle with time := 1600 * refTick }
    (inCore (.sram 767 0x5FFFF 0) = some 767 ∧ inCore (.window 767 0x41FFF 3) = some 767 ∧ inCore (.window 0 0xE7FFF 0) = some 0
      ∧ inCore (.cache (.l1 767) .gen 0x18000 1) = some 767)
    ∧ (errorWindow 0x41FF8 = true ∧ errorWindow 0xE7FF8 = true ∧ errorWindow 0xE8000 = false)
    ∧ (∃ k, Tab.get? s.copies 3 = some k ∧ k.holder = .l1 767 ∧ k.path = .gen ∧ k.line = 0x18000 / 128)
    ∧ (∃ g, Tab.get? idle.groups 1 = some g ∧ g.resident = true ∧ fetchAt idle g 0x80000#64 = .outOfLease 0x80000#64)
    ∧ ((past.core 5).ovInterval < past.time / (1600 * refTick) ∧ ¬ (idle.core 5).ovInterval < idle.time / (1600 * refTick)) :=
  ⟨by decide, by decide, ⟨_, rfl, by decide, by decide, by decide⟩, ⟨_, rfl, by decide, by decide⟩, by decide⟩

/-! ### Witnesses: the machine as a whole -/

/-- A plain word, one of no row, MWRITE, MSTAT, and EXT with its follower: the group at the turn is granted alone and fetches it. -/
theorem witness_StepRunsDecodedInstruction :
    let grantedAlone := fun (s : State) (pipe : Bool) (w : Word) => s.agenda = [.issue 0 pipe]
      ∧ grants { s with agenda := [] } 0 pipe = [1] ∧ ∃ g, Tab.get? s.groups 1 = some g ∧ fetchAt { s with agenda := [] } g g.nextPc = .word w
    grantedAlone (wordAt 0x0C005678#32) false 0x0C005678#32 ∧ grantedAlone (wordAt 0x03200000#32) false 0x03200000#32
    ∧ grantedAlone (wordAt (wordOf (.mwrite 0#2 69#7 2#3 9#7))) true (wordOf (.mwrite 0#2 69#7 2#3 9#7))
    ∧ grantedAlone (wordAt (wordOf (.mstat 0#2 6#7))) true (wordOf (.mstat 0#2 6#7))
    ∧ (isExtWord 0x8FE048D1#32 = true ∧ let s := State.reset.withFetchWord 64 0x0C0056788FE048D1
      grantedAlone s false 0x8FE048D1#32 ∧ ∃ g, Tab.get? s.groups 1 = some g ∧ fetchAt { s with agenda := [] } g (g.nextPc + 4#64) = .word 0x0C005678#32)
    ∧ encode .patrolScrub = [] := by
  refine ⟨⟨by decide, by decide, _, rfl, by decide⟩, ⟨by decide, by decide, _, rfl, by decide⟩, ⟨by decide, by decide, _, rfl, by decide⟩,
    ⟨by decide, by decide, _, rfl, by decide⟩, ⟨by decide, ⟨by decide, by decide, _, rfl, by decide⟩, _, rfl, by decide⟩, by decide⟩

/-- The word at the last address of the extent. -/
theorem witness_StepRunsDecodedInstruction_fetch :
    ∃ g e pa, Tab.get? idle.groups 1 = some g ∧ (idle.launch g.launch).translate 0x2FFFC = some (e, pa) ∧ canonical 0x2FFFC = true ∧ e.fetch = true
      ∧ 0x2FFFC + 4 ≤ e.va + e.len ∧ (∀ k, k < 4 → supplier idle g.core .con (pa + k) = none ∧ replicaOf idle g.core (pa + k) = pa + k
        ∧ bytePoison idle g.core .con (pa + k) = false) :=
  ⟨_, _, _, rfl, rfl, by decide, by decide, by decide, by decide⟩

/-- Operands at the ends of their ranges, of a word of one form and of a pair. -/
theorem witness_DecodeEncodeRoundTrip :
    ((Instr.ffma 3#2 111#7 0#7 127#7).wf = true ∧ encode (.ffma 3#2 111#7 0#7 127#7) ≠ [])
    ∧ ((Instr.ext 0#2 0x1FFFFF#21 0x0C005678#32).wf = true ∧ encode (.ext 0#2 0x1FFFFF#21 0x0C005678#32) ≠ []) := by decide

/-- A step from a state with something in memory. -/
theorem witness_StepKeepsMemoryCanonical :
    let s : State := { wordAt 0x0C005678#32 with agenda := [.pass 1] }
    memWf s.mem = true ∧ s.mem ≠ [] ∧ ∃ t, step s = .next t := ⟨by decide, by decide, _, rfl⟩

/-! ### Witnesses: spills, faults, the assay table -/

/-- The slots lie in the on-chip aperture, in core 0's scratchpad, of a privileged launch whose team has a scratchpad. -/
def chipSlots (s : State) : State :=
  (extent (2 ^ 47 + 0x50000) false s).modLaunch 1 (fun l => { l with card := l.card ||| BitVec.ofNat 1024 (0x40000 * 2 ^ 512 + 32 * 2 ^ 576 + 2 ^ 84 + 2 ^ 384) })
def oneFull (g : Group) : Group := { fullStacks g with cur := 1#64 }

/-- A spill into a window, and a slot that is full beside one that is not. -/
theorem witness_CallsAndMeetPush_window :
    let i := Instr.call 0#2 10#21
    let s := chipSlots (put i oneFull)
    let t := (withSlots (put i (fun g => (fullStacks g).modThread 1 (fun t => { t with spilled := 4 }))))
    let g1 := poppedGroup s (site i none s) (grp s)
    let g2 := poppedGroup t (site i none t) (grp t)
    let l := s.launch (grp s).launch
    let m := t.launch (grp t).launch
    (Issues i none s (site i none s) (grp s) ∧ Unwatched s (grp s) ∧ fullLanes (site i none s) g1 = [0] ∧ (g1.thread 0).spilled * 8 < l.stksz
      ∧ checkSpill s g1 .store (slotAddr l (grp s) 0 (g1.thread 0).spilled) = .ok (2 ^ 47 + 0 * 0x100000 + 0x50000 + 0)
      ∧ (∀ k, k < 8 → localVisible s 0 (0 + k) = true) ∧ spillWaits s (site i none s).gid g1 [(0, 2 ^ 47 + 0 * 0x100000 + 0x50000 + 0)] = false)
    ∧ (Issues i none t (site i none t) (grp t) ∧ Unwatched t (grp t) ∧ fullLanes (site i none t) g2 = [0, 1] ∧ m.stksz ≤ (g2.thread 1).spilled * 8
      ∧ (g2.thread 0).spilled * 8 < m.stksz ∧ checkSpill t g2 .store (slotAddr m (grp t) 0 (g2.thread 0).spilled) = .ok 0x18000) :=
  ⟨⟨issues_of (by decide), unwatched_of (by decide), by decide, by decide, by decide, by decide, by decide⟩, issues_of (by decide), unwatched_of (by decide),
    by decide, by decide, by decide, by decide⟩

/-- Lane 3 has nothing to return to; the top entry of every thread is a saved meeting. -/
theorem witness_RetPops_illegal :
    let i := Instr.ret 0#2
    let s := put i (fun g => vec ((called g).modThread 3 (fun t => { t with stack := [] })))
    let t := put i (fun g => vec { g with threads := g.threads.map (fun t => { t with stack := [mkEntry true 0x10008#64] }) })
    let none_ := fun (s : State) => (let at_ := site i none s
      let g1 := poppedGroup s at_ (grp s)
      spillWaits s at_.gid g1 (((LaneSet.toList at_.lanes).filterMap (fun l => refillTouch s g1 l (g1.thread l))).filterMap (refillPa s g1)))
    (Issues i none s (site i none s) (grp s) ∧ (site i none s).lanes.has 3 = true
      ∧ ((poppedGroup s (site i none s) (grp s)).thread 3).stack = [] ∧ ((poppedGroup s (site i none s) (grp s)).thread 3).spilled = 0 ∧ none_ s = false
      ∧ (grp s).handler = false ∧ (grp s).trapvec ≠ 0#64)
    ∧ (Issues i none t (site i none t) (grp t)
      ∧ (∃ e rest, ((poppedGroup t (site i none t) (grp t)).thread 15).stack = e :: rest ∧ e.getLsbD 63 = true) ∧ none_ t = false
      ∧ (grp t).handler = false ∧ (grp t).trapvec ≠ 0#64) :=
  ⟨⟨issues_of (by decide), by decide, by decide, by decide, by decide, by decide, by decide⟩, issues_of (by decide), ⟨_, _, rfl, by decide⟩, by decide,
    by decide, by decide⟩

/-- Lane 3 stores outside its alignment; every lane outside every extent; a uniform load outside its alignment, and under a prefix outside every extent. -/
theorem witness_TrapsEnterOrFreeze_access :
    let i := Instr.st 0#2 9#7 2#7 0#4 2#3
    let j := Instr.atadd 0#2 12#7 7#7 0#4 4#3
    let k := Instr.gld 0#2 4#7 0#4 2#3 2#7
    let e := some 0x1000#21
    let s := put i (fun g => vec (base (ops g)))
    let t := put j far
    let u := put k (fun g => vec (base g))
    (Issues i none s (site i none s) (grp s) ∧ Unwatched s (grp s) ∧ (accessesOf i (grp s)).isSome = true ∧ (site i none s).lanes.has 3 = true
      ∧ accessFault s (grp s) .store 4 ((grp s).ea 3 0#4 2#7) = some (0x03, 0)
      ∧ (∀ l, (site i none s).lanes.has l = true → l ≠ 3 → accessFault s (grp s) .store 4 ((grp s).ea l 0#4 2#7) = none)
      ∧ (grp s).handler = false ∧ (grp s).trapvec ≠ 0#64)
    ∧ (Issues j none t (site j none t) (grp t) ∧ Unwatched t (grp t) ∧ (accessesOf j (grp t)).isSome = true ∧ (site j none t).lanes.has 0 = true
      ∧ ∀ l, (site j none t).lanes.has l = true → accessFault t (grp t) .atomic 4 ((grp t).ea l 0#4 7#7) = some (0x20, 0))
    ∧ (Issues k none u (site k none u) (grp u) ∧ Unwatched u (grp u) ∧ accessFault u (grp u) .load 4 ((grp u).areg 0#4 + immS none 2#7) = some (0x03, 0)
      ∧ (grp u).handler = false ∧ (grp u).trapvec ≠ 0#64)
    ∧ (decodeDefined (wordOf k) = some k ∧ Issues k e u (site k e u) (grp u)
      ∧ accessFault u (grp u) .load 4 ((grp u).areg 0#4 + immS e 2#7) ≠ none) :=
  ⟨⟨issues_of (by decide), unwatched_of (by decide), by decide, by decide, by decide, lanes_all (by decide), by decide, by decide⟩,
   ⟨issues_of (by decide), unwatched_of (by decide), by decide, by decide, lanes_all (by decide)⟩,
   ⟨issues_of (by decide), unwatched_of (by decide), by decide, by decide, by decide⟩, by decide, issues_of (by decide), by decide⟩

/-- An atomic, an LDC and a store to host memory inside a transaction. -/
theorem witness_TrapsEnterOrFreeze_transaction :
    let i := Instr.atadd 0#2 12#7 7#7 0#4 4#3
    let j := Instr.ldc 0#2 10#7 2#7 0#4
    let k := Instr.st 0#2 9#7 7#7 0#4 2#3
    let s := inTx tx0 (put i (fun g => vec (base g)))
    let t := inTx tx0 (put j (fun g => vec (base g)))
    let u := inTx tx0 (extent (3 * 2 ^ 46) false (put k (fun g => vec (far g))))
    (Issues i none s (site i none s) (grp s) ∧ Unwatched s (grp s) ∧ (s.team (grp s).team).tx = some tx0 ∧ (atomicOf i (grp s)).isSome = true
      ∧ (∀ l, (site i none s).lanes.has l = true → accessVa s (grp s) .atomic 4 4 ((grp s).ea l 0#4 7#7) = .ok 0x18000)
      ∧ (grp s).handler = false ∧ (grp s).trapvec ≠ 0#64 ∧ (site i none s).lanes.has 0 = true)
    ∧ (Issues j none t (site j none t) (grp t) ∧ Unwatched t (grp t) ∧ (feOf j (grp t)).isSome = true
      ∧ (∀ l, (site j none t).lanes.has l = true → accessVa t (grp t) .atomic 8 8 ((grp t).ea l 0#4 2#7) = .ok 0x18000) ∧ (t.team (grp t).team).tx = some tx0)
    ∧ (Issues k none u (site k none u) (grp u) ∧ Unwatched u (grp u) ∧ (u.team (grp u).team).tx = some tx0 ∧ aperture (3 * 2 ^ 46) ≠ 0
      ∧ (∀ l, (site k none u).lanes.has l = true → accessVa u (grp u) .store 4 4 ((grp u).ea l 0#4 7#7) = .ok (3 * 2 ^ 46))) :=
  ⟨⟨issues_of (by decide), unwatched_of (by decide), by decide, by decide, lanes_all (by decide), by decide, by decide, by decide⟩,
   ⟨issues_of (by decide), unwatched_of (by decide), by decide, lanes_all (by decide), by decide⟩,
   issues_of (by decide), unwatched_of (by decide), by decide, by decide, lanes_all (by decide)⟩

/-- Every element of a list gives none where a function of it is none. -/
theorem noParks_of {s : State} (h : s.reqs = []) (hb : s.groups.all (fun e => e.2.blocks.isEmpty) = true) : NoParks s := by
  refine ⟨fun e he => by simp [h] at he, fun e he b hbl => ?_⟩
  have := List.all_eq_true.1 hb e he
  rw [List.isEmpty_iff] at this
  simp [this] at hbl

/-- A tripped commit of a transaction with a shadow of the scratchpad and a deferred command, whose tag the assay table has; and a calm one of it. -/
theorem witness_TxcommitTrips_assay :
    let i := Instr.txcommit 0#2 20#7
    let x := { tx0 with rung := 2, rtrip := true, shadows := [⟨0, 0, false, 0, List.replicate 4096 1#8, []⟩] }
    let s : State := { inTx x (put i id) with cmds := [(4, copy 4 [])], uid := 5, assay := [(0, [⟨1, 0x10000, 0, 3, 2⟩])] }
    let t : State := { inTx tx0 (put i id) with assay := [(0, [⟨1, ((put i id).launch 1).entry.toNat, 0, 3, 2⟩])] }
    (Issues i none s (site i none s) (grp s) ∧ x.rung < x.top ∧ txBusy s (grp s).team x = false ∧ s.cmds.map (deferredBy (grp s).team) = [true]
      ∧ NoParks s ∧ ShadowsDistinct x ∧ (s.core 0).dark = none)
    ∧ (Issues i none t (site i none t) (grp t) ∧ ∃ w, assayWay t (t.launch (grp t).launch) tx0.ladder tx0.tile = some w ∧ w.calm = 2) :=
  ⟨⟨issues_of (by decide), by decide, by decide, by decide, noParks_of (by decide) (by decide), ⟨by simp, by simp⟩, by decide⟩,
   issues_of (by decide), _, rfl, by decide⟩

/-- A GLD from host memory. -/
theorem witness_UniformLoadsSend_afar :
    let i := Instr.gld 0#2 4#7 0#4 4#3 16#7
    let s := extent (3 * 2 ^ 46) false (put i far)
    Issues i none s (site i none s) (grp s) ∧ Unwatched s (grp s) ∧ accessVa s (grp s) .load 16 16 ((grp s).areg 0#4 + immS none 16#7) = .ok (3 * 2 ^ 46 + 16)
      ∧ clash s (ctxOf i s (site i none s) (grp s)) [(3 * 2 ^ 46 + 16, 16)] = false ∧ servedAfar s (grp s).core .gen (3 * 2 ^ 46 + 16) = true
      ∧ (grp s).handler = false ∧ Tab.get? (grp s).blocks (s.uid + 1) = none :=
  ⟨issues_of (by decide), unwatched_of (by decide), by decide, by decide, by decide, by decide, by decide⟩
/-! ### Witnesses: wakes, parking -/

/-- A WAIT of lane 0, number 3: the word at 0x1_8000 is at least 7; a monitor holds it. -/
def wordEntry (kind : Nat) : WaitEntry :=
  { kind := kind, addr := 0x18000#64, cmp := 3, size8 := true, value := 7#64, pa := 0x18000, watch := .monitor 2 }
def noEntry : WaitEntry := { kind := 0, addr := 0#64, cmp := 0, size8 := false, value := 0#64, pa := 0, watch := .flying }
def wordBlock (kind : Nat) : Block :=
  { lanes := 1#64, next := 0x10004#64, kind := .wait [wordEntry kind, noEntry, noEntry, noEntry] true none 9, woken := none }

theorem awaitsOne_of {s : State} {g : Group} (kind : Nat) (hg : Tab.get? s.groups 1 = some g) (hb : Tab.get? g.blocks 3 = some (wordBlock kind))
    (hw : waitersOf s (0x18000 / 64) = [.cond 1 3 0]) (hh : g.halted = false) (ho : g.handler = false) : AwaitsOne s 1 3 0 g (wordBlock kind) (wordEntry kind) true 9 where
  group := hg
  block := hb
  kind := ⟨_, _, rfl, rfl, fun j x hj hne => by
    rcases j with _ | _ | _ | _ | j
    · exact absurd rfl hne
    all_goals simp at hj
    all_goals (subst hj; exact ⟨rfl, by simp [noEntry]⟩)⟩
  held := ⟨2, rfl⟩
  alone := hw
  fresh := rfl
  runs := hh
  own := ho

/-- A store, and a carter's completion word, to the sector of a word that a WAIT awaits. -/
theorem witness_wakes :
    let ps : List StorePart := [{ lane := some 1, va := 0x18000#64, pa := 0x18000, bytes := leBytes 8 7 }]
    (∀ k ∈ [1, 2], let s := waiting (wordBlock k) (Tests.sent (.store ps) idle)
      (∃ x, ps[0]? = some x ∧ partReady s 5 (req (.store ps)) ps 0 x = true ∧ aperture x.pa ≤ 1 ∧ (wordEntry k).pa / 64 = x.pa / 64)
      ∧ ∃ g, AwaitsOne s 1 3 0 g (wordBlock k) (wordEntry k) true 9)
    ∧ (∀ k ∈ [1, 2], let s := waiting (wordBlock k) (copying { copy 2 [0, 1] with compDue := true, compw := 0x18000 } idle)
      ((s.carter 0).cmd = some 4 ∧ peerAnswers s 0x18000 = true ∧ aperture 0x18000 ≤ 1)
      ∧ ∃ g, AwaitsOne s 1 3 0 g (wordBlock k) (wordEntry k) true 9) := by
  refine ⟨fun k hk => ?_, fun k hk => ?_⟩ <;> simp only [List.mem_cons, List.not_mem_nil, or_false] at hk <;> rcases hk with rfl | rfl
  · exact ⟨⟨_, rfl, by decide, by decide, by decide⟩, _, awaitsOne_of 1 rfl rfl (by decide) (by decide) (by decide)⟩
  · exact ⟨⟨_, rfl, by decide, by decide, by decide⟩, _, awaitsOne_of 2 rfl rfl (by decide) (by decide) (by decide)⟩
  · exact ⟨by decide, _, awaitsOne_of 1 rfl rfl (by decide) (by decide) (by decide)⟩
  · exact ⟨by decide, _, awaitsOne_of 2 rfl rfl (by decide) (by decide) (by decide)⟩

/-- A word of peer 1. -/
def peerWord : Nat := 2 ^ 46 + 2 ^ 39
/-- Four devices in the Weft. -/
def weft (s : State) : State := { s with weftSize := 4 }

/-- An atomic of one word, one of two words that may both be performed, the second at a peer, one whose second is at a silent peer, and one that is sure. -/
theorem witness_SlicesPerformWrites_words :
    let k := fun (pa : Nat) => ReqKind.atomic .add 0#3 0x18000#64 pa [{ lane := some 0, x := 1#64, new := 0#64 }] (some 9)
    let s := Tests.sent (k 0x18000) idle
    let t : State := { weft idle with reqs := [(5, req (k 0x18000)), (6, req (k peerWord))], uid := 7 }
    let u : State := { t with silent := [peerOf peerWord] }
    let v : State := { idle with reqs := [(5, { req (k 0x18000) with sure := true })], uid := 6 }
    (∀ x ∈ [s, t], atomicPoisoned x (req (k 0x18000)) = [] ∧ ∀ e ∈ siblings x (req (k 0x18000)), e.2.kind.joint = true → wordReady x e = true)
    ∧ (siblings t (req (k 0x18000))).map (·.1) = [5, 6]
    ∧ (atomicPoisoned u (req (k 0x18000)) = [] ∧ ∃ e ∈ siblings u (req (k 0x18000)), e.2.kind.joint = true ∧ wordReady u e = false)
    ∧ (∀ x ∈ [s, v], storesAhead x 0 5 [(0x18000, 4)] = false ∧ x.poisoned 0x18000 4 = false)
    ∧ NoWaiters s ∧ NoWaiters v :=
  ⟨by decide, by decide, by decide, by decide, noWaiters_of_kinds (by decide) (by decide), noWaiters_of_kinds (by decide) (by decide)⟩

/-- A park pool of two records at 0x1_C000. -/
def pool (s : State) : State := s.modLaunch 1 (fun l => { l with card := l.card ||| BitVec.ofNat 1024 (64 * 2 ^ 416 + 0x1C000 * 2 ^ 448) })
/-- An STF of lane 0 arrives, and an LDW of lane 1 waits for its word. -/
def fill : ReqKind := .fe .stf 0 0x18000#64 0x18000 7#64 9 .flying
def held (w : Watch) : ReqKind := .fe .ldw 1 0x18000#64 0x18000 0#64 11 w
def filling (w : Watch) (s : State) : State := { s with reqs := [(5, { req fill with pc := 0x10004#64 }), (6, req (held w))], uid := 7 }

/-- The load is held by a monitor, and by record 1 of the pool. -/
theorem witness_SlicesPerformFullEmpty_wake :
    let s := filling (.monitor 2) idle
    let t := (filling (.parked 1) (pool idle)).write 0x1C020 32 (0x18000 + 2 ^ 48)
    let r := { req fill with pc := 0x10004#64 }
    (∀ u ∈ [s, t], Tab.get? u.reqs 5 = some r ∧ 5 < u.uid ∧ 6 < u.uid ∧ 0 ≠ peerCore ∧ feQueued u 5 r 0 0x18000 = false ∧ feBehind u 5 r 0 0x18000 = false
      ∧ u.isFull 0x18000 = false ∧ waitersOf u (0x18000 / 64) = [.fe 6] ∧ (∃ g, Tab.get? u.groups 1 = some g ∧ g.halted = false ∧ g.handler = false))
    ∧ feBehind s 6 (req (held (.monitor 2))) 1 0x18000 = false ∧ feBehind t 6 (req (held (.parked 1))) 1 0x18000 = false
    ∧ recordState t 1 1 0x18000 = .holds ∧ (t.launch 1).parkRecord 1 = 0x1C020 := by
  refine ⟨fun u hu => ?_, by decide, by decide, by decide, by decide⟩
  simp only [List.mem_cons, List.not_mem_nil, or_false] at hu
  rcases hu with rfl | rfl
  · exact ⟨rfl, by decide, by decide, by decide, by decide, by decide, by decide, by decide, _, rfl, by decide, by decide⟩
  · exact ⟨rfl, by decide, by decide, by decide, by decide, by decide, by decide, by decide, _, rfl, by decide, by decide⟩

/-- An LDW that finds no monitor: with no pool, with a record to take behind one in use, with every record in use, and in a handler. -/
theorem witness_SlicesPerformFullEmpty_parks :
    let k := ReqKind.fe .ldw 2 0x18000#64 0x18000 7#64 9 .flying
    let none_ := fun (f : Group → Group) => ({ Tests.sent k (put (.nop 0#2) f) with watched := [0x18000 / 64] } : State)
    let s := none_ id
    let t := (pool (none_ id)).write 0x1C006 1 1
    let u := ((pool (none_ vec)).write 0x1C006 1 1).write 0x1C026 1 4
    let v := none_ handling
    let used := fun (s : State) (i : Nat) => s.read ((s.launch 1).parkRecord i + 6) 1 % 8 ≠ 0
    (∀ x ∈ [s, t, u, v], feQueued x 5 (req k) 2 0x18000 = false ∧ feReady x .ldw 0x18000 = false ∧ NatSet.mem x.watched (0x18000 / 64) = true
      ∧ ∃ g, Tab.get? x.groups 1 = some g ∧ g.frozen = false ∧ mayTake x g = true ∧ 2 < g.threads.length)
    ∧ (s.launch 1).parksz = 0
    ∧ ((t.launch 1).parksz = 64 ∧ used t 0 ∧ ¬ used t 1)
    ∧ ((∀ i, i < 64 / 32 → used u i) ∧ ∃ g, Tab.get? u.groups 1 = some g ∧ g.handler = false ∧ g.trapvec ≠ 0#64)
    ∧ (∃ g, Tab.get? v.groups 1 = some g ∧ g.handler = true) ∧ (v.launch 1).parksz = 0 := by
  refine ⟨fun x hx => ?_, by decide, by decide, ⟨by decide, _, rfl, by decide, by decide⟩, ⟨_, rfl, by decide⟩, by decide⟩
  simp only [List.mem_cons, List.not_mem_nil, or_false] at hx
  rcases hx with rfl | rfl | rfl | rfl
  all_goals exact ⟨by decide, by decide, by decide, _, rfl, by decide, by decide, by decide⟩

/-- The acknowledgement that ends a store request, and one that leaves it; a store of which a part finds no peer. -/
theorem witness_HostAndPeersReach_stores :
    let r := { req (.store []) with peerAck := true, hostAck := true }
    let a : State := { idle with reqs := [(5, { r with hostAck := false })], uid := 6 }
    let b : State := { idle with reqs := [(5, r)], uid := 6 }
    let ps : List StorePart := [{ lane := some 0, va := 0x18000#64, pa := 0x18000, bytes := [1#8] }, { lane := some 1, va := 0x40000#64, pa := 2 ^ 46 + 2 ^ 40, bytes := [1#8] }]
    let c := Tests.sent (.store ps) idle
    let d := Tests.sent (.store (ps.drop 1)) idle
    let left := fun (s : State) (ps : List StorePart) => ps.filter (fun x => !unanswered s 0 x.pa)
    (Tab.sorted a.reqs = true ∧ Tab.get? a.reqs 5 = some { r with hostAck := false } ∧ r.dest = [] ∧ r.notBefore ≤ a.time)
    ∧ (Tab.sorted b.reqs = true ∧ Tab.get? b.reqs 5 = some r)
    ∧ (Tab.sorted c.reqs = true ∧ (∃ x ∈ ps, unanswered c 0 x.pa = true) ∧ left c ps ≠ [] ∧ NoWaiters c)
    ∧ (Tab.sorted d.reqs = true ∧ (∃ x ∈ ps.drop 1, unanswered d 0 x.pa = true) ∧ left d (ps.drop 1) = [] ∧ (req (.store (ps.drop 1))).notBefore ≤ d.time ∧ NoWaiters d) := by
  refine ⟨by decide, by decide, ⟨by decide, ⟨_, List.mem_cons_of_mem _ (List.mem_cons_self ..), by decide⟩, by decide, noWaiters_of_kinds (by decide) (by decide)⟩,
    by decide, ⟨_, List.mem_cons_self .., by decide⟩, by decide, by decide, noWaiters_of_kinds (by decide) (by decide)⟩

/-- A compare-and-swap that matches, and one that does not. -/
theorem witness_HostAndPeersReach_swap :
    let f := fun (cmp : DWord) => (hostOp (.myentCompareAndSwap 0x18000 cmp 1#64)).map (fun x => x.2 (BitVec.ofNat 64 (idle.read 0x18000 8)))
    f 0#64 = some (some 1#64) ∧ f 5#64 = some none := by decide

/-- A launch that has ended. -/
theorem witness_DeviceRegisters_ended :
    let s := idle.modLaunch 1 (fun l => { l with phase := .ended })
    s.killBusy = false ∧ ∀ l, Tab.get? s.launches 1 = some l → l.phase = .ended := ⟨by decide, fun l hl => by cases hl; rfl⟩

/-- A receive that a posted receive in another queue comes before, and one behind it. -/
theorem witness_EngineCards_waits :
    let c := fun (op : Nat) => leBytes 128 (op + 0x18100 * 2 ^ 128 + 8 * 2 ^ 192 + 0x18200 * 2 ^ 448)
    let s0 := ((idle.setBytes 0x18000 (c 5)).setBytes 0x18300 (c 5))
    let s : State := { s0 with engine := { s0.engine with queues := [[{ order := 3, launch := 1, card := 0x18300#64 }], [], [], [], [], [], [],
      [{ order := 4, launch := 1, card := 0x18000#64 }]] } }
    s.engine.queues[7]? = some [{ order := 4, launch := 1, card := 0x18000#64 }] ∧ ueWaits s 4 (s.launch 1) (ueCard s (s.launch 1) 0x18000) = true
      ∧ ueWaits s 3 (s.launch 1) (ueCard s (s.launch 1) 0x18300) = false := by decide
/-! ### Witnesses: cards -/

/-- A context at 0x4_0000, of id 1 and with every key: one page of 2 MiB at VA 0, and a malformed entry for the page behind the next. -/
def mapped (s : State) : State :=
  let put := fun (pa v : Nat) (s : State) => s.setBytes pa (leBytes 8 v)
  (put 0x53010 0x105 (put 0x53000 0x1B (put 0x52000 0x53001 (put 0x51000 0x52001 (put 0x50000 0x51001 (put 0x40010 1 (put 0x40008 (2 ^ 64 - 1)
    (put 0x40000 0x50000 s))))))))

/-- A card of one team of one group of 16, its ranges at 0x1_8100, its completion word at 0x1_8200 and its argument block at 0x1_8280. -/
def goodCard : Nat :=
  0x10000 + 64 * 2 ^ 96 + 16 * 2 ^ 104 + 2 ^ 112 + 2 ^ 120 + 2 ^ 128 + 0x18100 * 2 ^ 192 + 0x18200 * 2 ^ 768 + 0x18280 * 2 ^ 896
/-- One declared range: its base, its length and RD, WR, FETCH. -/
def ranged (base len rights : Nat) (s : State) : State := s.setBytes 0x18100 (leBytes 32 (base + len * 2 ^ 64 + rights * 2 ^ 128))
/-- A card at 0x1_8000 in the device queue's first entry, or in the cluster's queue. -/
def cardTake (ring parent : Option Nat) (card : Nat) : Take :=
  { ctx := 0x40000, ring := ring, hflush := false, qprio := 1, parent := parent, cluster := none, card := card, bucket := false }
def carded (rights : Nat) : State := ranged 0x10000 0x10000 rights ((mapped idle).setBytes 0x18000 (leBytes 128 goodCard))

/-- A card that is misaligned, one that no page holds, and one that can be read; a bucket table of one bucket, and one with none. -/
theorem witness_DispatcherTakesAndPlaces_entry :
    let s := carded 7
    let table := fun (s : State) (shape : Nat) => ((s.setBytes 0x18400 (leBytes 32 (bucketTag + 2 ^ 64 + 2 ^ 72 + 0x18500 * 2 ^ 128))).setBytes 0x18420
      (leBytes 48 (4 * 2 ^ 128 + 0x18000 * 2 ^ 256))).setBytes 0x18500 (leBytes 8 shape)
    (0x18004 % 8 ≠ 0 ∧ ctxRead8 s 0x40000 0x200000 = none)
    ∧ (0x18000 % 8 = 0 ∧ ctxRead8 s 0x40000 0x18000 = some (goodCard % 2 ^ 64) ∧ ctxRead8 s 0x40000 0x18000 ≠ some bucketTag
      ∧ ctxRead s 0x40000 0x18000 16 = some goodCard ∧ ctxRead s 0x40000 0x1FFFF8 16 = none)
    ∧ (ctxRead8 (table s 3) 0x40000 0x18400 = some bucketTag ∧ (match resolveBucket (table s 3) 0x40000 0x18400 with
        | .ok x => x == (0x18000, [3#32])
        | .error _ => false) = true ∧ (match resolveBucket (table s 5) 0x40000 0x18400 with
        | .ok _ => false
        | .error x => x == (5, 0)) = true) := by decide

/-- A card of zeros, whose completion word cannot carry its failure; and one of HEAT 4 whose can. -/
theorem witness_DispatcherTakesAndPlaces_checks :
    let s := carded 7
    let t := cardTake (some 0x30000) none 0x18000
    let zero := cardLaunch t 0#1024 [] s
    let heat := cardLaunch t (BitVec.ofNat 1024 (goodCard + 4 * 2 ^ 72)) [] s
    (cardRanges s t.ctx zero = some [] ∧ cardFault zero (some []) (listMalformed s t.ctx zero) (ctxPrivOk s t.ctx) 0x00 ∧ ∀ pa, ¬ Carries s t.ctx zero pa)
    ∧ (cardRanges s t.ctx heat = some [{ base := 0x10000#64, len := 0x10000#64, rd := true, wr := true, fetch := true }]
      ∧ cardFault heat (cardRanges s t.ctx heat) (listMalformed s t.ctx heat) (ctxPrivOk s t.ctx) 0x09 ∧ (∀ o, o < 9 → ¬ cardFault heat (cardRanges s t.ctx heat) (listMalformed s t.ctx heat) (ctxPrivOk s t.ctx) o)
      ∧ Carries s t.ctx heat 0x18200 ∧ aperture 0x18200 = 0 ∧ NoWaiters s) := by
  refine ⟨⟨by decide, by simp only [cardFault]; decide, fun pa h => ?_⟩, by decide, by simp only [cardFault]; decide, fun o ho => ?_, ?_, by decide,
    noWaiters_of (by decide) (by decide)⟩
  · obtain ⟨_, _, _, ⟨k, _, hk, _⟩, _⟩ := h
    exact absurd hk (by have : (cardLaunch (cardTake (some 0x30000) none 0x18000) 0#1024 [] (carded 7)).nranges = 0 := by decide
                        omega)
  · interval_cases o <;> (simp only [cardFault]; decide)
  · exact ⟨by decide, by decide, by decide, ⟨0, _, by decide, rfl, by decide, by decide, by decide, by decide⟩, _, rfl, by decide, by decide, by decide,
      by decide⟩

/-- The launch of the sound card in a state, and its declared ranges. -/
def cardOf (t : Take) (s : State) : Launch :=
  { cardLaunch t (BitVec.ofNat 1024 goodCard) [] s with ranges := (cardRanges s t.ctx (cardLaunch t (BitVec.ofNat 1024 goodCard) [] s)).getD [] }
/-- Launch 1 belongs to the context. -/
def parented (s : State) : State := s.modLaunch 1 (fun l => { l with ctx := 0x40000 })

/-- The pages of a walk that ends. -/
def pagesOf (b : Built × State) : Option (Tab Page) :=
  match b.1 with
  | .pages ps => some ps
  | _ => none

/-- The card passes every check; it inherits from launch 1, or walks: its pages grant what it declares. -/
theorem witness_DispatcherTakesAndPlaces_lease :
    let s := parented (carded 7)
    let t := cardTake none (some 1) 0x18000
    let r := { t with parent := none }
    let ps : Tab Page := [(0, { size := 0x200000, pa := 0, append := false, qc := 3, key := 0, rd := true, wr := true, fetch := true, pte := 0x53000 })]
    let rs : List DeclRange := [{ base := 0x10000#64, len := 0x10000#64, rd := true, wr := true, fetch := true }]
    let w := walkRanges r.ctx 0 rs [] s
    cardRanges s t.ctx (cardLaunch t (BitVec.ofNat 1024 goodCard) [] s) = some rs
    ∧ (∀ off, ¬ cardFault (cardLaunch t (BitVec.ofNat 1024 goodCard) [] s) (some rs)
        (listMalformed s t.ctx (cardLaunch t (BitVec.ofNat 1024 goodCard) [] s)) (ctxPrivOk s t.ctx) off)
    ∧ ((inherited s t (cardOf t s)).isSome = true ∧ (∀ e ∈ (s.launch 1).extents, e.va < 2 ^ 64 ∧ e.len < 2 ^ 64))
    ∧ inherited s r (cardOf r s) = none
    ∧ (pagesOf w = some ps ∧ NoWaiters s ∧ NoWaiters w.2)
    ∧ (s.read (r.ctx + 0x30) 8 = 0 ∧ (extentsOf false ps).length ≤ 64 ∧ ∀ e ∈ ps, e.2.pte % 8 = 0)
    ∧ leaseFault (({ cardOf r s with extents := (extentsOf true ps).reverse } : Launch).withTables w.2) = none := by
  refine ⟨by decide, fun off => ?_, by decide, by decide, ⟨by decide, noWaiters_of (by decide) (by decide), noWaiters_of (by decide) (by decide)⟩, by decide, by decide⟩
  simp only [cardFault]
  split <;> decide

/-- Its declared range does not grant WR; reaches a page that is absent; reaches a malformed entry; and takes 65 pages that do not join. -/
theorem witness_DispatcherTakesAndPlaces_refused :
    let t := cardTake none none 0x18000
    let a := ranged 0x10000 0x10000 5 (mapped idle)
    let b := ranged 0x10000 0x200000 7 (mapped idle)
    let c := b.setBytes 0x53008 (leBytes 8 0x105)
    let d := (List.range 65).foldl (fun s k => s.setBytes (0x53000 + 8 * k) [0x1B#8]) (ranged 0 (65 * 0x200000) 7 (mapped idle))
    let w := fun (s : State) => walkRanges t.ctx 0 (cardOf t s).ranges [] s
    (∃ ps, pagesOf (w a) = some ps ∧ leaseFault (({ cardOf t a with extents := (extentsOf true ps).reverse } : Launch).withTables (w a).2) = some 0x60)
    ∧ (match (w b).1 with
      | .waits _ _ => true
      | _ => false) = true
    ∧ (match (w c).1 with
      | .invalid => true
      | _ => false) = true
    ∧ ((pagesOf (w d)).map (fun ps => decide (64 < (extentsOf false ps).length))) = some true := by
  refine ⟨⟨_, rfl, by decide⟩, by decide, by decide, by decide +kernel⟩

/-- One free frame of the context's list. -/
theorem witness_DispatcherTakesAndPlaces_resident :
    let s := (((mapped idle).setBytes 0x40028 (leBytes 8 0x61000)).setBytes 0x40030 (leBytes 8 0x62000)).setBytes 0x61010 [1#8]
    s.mode.getLsbD 0 = false ∧ s.read (0x40000 + 0x30) 8 ≠ 0 ∧ s.read (s.read (0x40000 + 0x28) 8 + 0x10) 8 ≠ 0 ∧ NoWaiters s :=
  ⟨by decide, by decide, by decide, noWaiters_of (by decide) (by decide)⟩
/-! ### Witnesses: causes of traps -/

/-- A state of one team with a transaction open, and a handler's address. -/
def txed (i : Instr) (f : Group → Group) : State := inTx tx0 (put i (fun g => vec (f (base g))))

/-- An STFS to words of a peer inside a transaction. -/
theorem witness_TrapsEnterOrFreeze_slice :
    let i := Instr.stfs 0#2 10#7 2#7 0#4
    let s := inTx tx0 (extent peerWord false (weft (put i (fun g => vec (far g)))))
    Issues i none s (site i none s) (grp s) ∧ Unwatched s (grp s) ∧ (s.team (grp s).team).tx = some tx0 ∧ aperture peerWord ≠ 0
      ∧ (accessesOf i (grp s)).map (fun x => (x.1, x.2.1)) = some (.slice, 8)
      ∧ (∀ l, (site i none s).lanes.has l = true → accessVa s (grp s) .slice 8 8 ((grp s).ea l 0#4 2#7) = .ok peerWord)
      ∧ (grp s).handler = false ∧ (grp s).trapvec ≠ 0#64 ∧ (site i none s).lanes.has 0 = true :=
  ⟨issues_of (by decide), unwatched_of (by decide), by decide, by decide, by decide, lanes_all (by decide), by decide, by decide, by decide⟩

/-- Forms that a transaction forbids. -/
theorem witness_TrapsEnterOrFreeze_forbidden :
    let i1 := Instr.gatom 0#2 4#7 0#4 1#3 0#4
    let i2 := Instr.sealPage 0#2 14#7 32#7
    let i3 := Instr.jpost 0#2 10#7 32#7 9#7
    let i4 := Instr.ttload 0#2 8#7 32#7 9#7
    let i5 := Instr.ttset 0#2 0#7 8#7 10#7
    let i6 := Instr.txbegin 0#2 20#7 21#7 0#3
    let s1 := txed i1 id
    let s2 := inTx tx0 (extent 0x40000 true (put i2 (fun g => vec (far g))))
    let s3 := txed i3 id
    let s4 := txed i4 (fun g => g.setG 9 1#32)
    let s5 := txed i5 id
    let s6 := txed i6 id
    let ps : List Seg := [{ va := 0x18000, pa := 0x18000, len := 64 }]
    (∀ x ∈ [(i1, s1), (i2, s2), (i3, s3), (i4, s4), (i5, s5), (i6, s6)], Issues x.1 none x.2 (site x.1 none x.2) (grp x.2) ∧ Unwatched x.2 (grp x.2)
      ∧ (x.2.team (grp x.2).team).tx.isSome = true ∧ (grp x.2).handler = false ∧ (grp x.2).trapvec ≠ 0#64)
    ∧ accessVa s1 (grp s1) .atomic (typeSize 1#3) (typeSize 1#3) ((grp s1).areg 0#4) = .ok 0x18000
    ∧ accessVa s2 (grp s2) .append 1 1 ((grp s2).gval64 32#7) = .ok 0x40000
    ∧ checkRange s3 (s3.launch (grp s3).launch) (grp s3).keyperm .load ((grp s3).gval64 32#7).toNat 128 = .ok [{ va := 0x18000, pa := 0x18000, len := 128 }]
    ∧ (((grp s4).gval 9#7).toNat = 1 ∧ ((grp s4).gval 8#7).toNat = 0 ∧ ((grp s4).gval64 32#7).toNat % 64 = 0
      ∧ checkRange s4 (s4.launch (grp s4).launch) (grp s4).keyperm .load ((grp s4).gval64 32#7).toNat (64 * 1) = .ok ps ∧ piecesLocked s4 (grp s4).core ps = none
      ∧ tValid (BitVec.ofNat 512 (leNat ((piecesBytes s4 (grp s4).core ps).take 64))) = false)
    ∧ (((grp s5).gval 8#7).toNat ≤ 255 ∧ Tab.get? (s5.team (grp s5).team).tensors ((grp s5).gval 8#7).toNat = none)
    ∧ (ladderValid ((s6.launch (grp s6).launch).ladders.getD 0 0) = true ∧ ((grp s6).gval 21#7).toNat < 2 ^ 24) := by
  refine ⟨fun x hx => ?_, by decide, by decide, by decide, by decide, by decide, by decide⟩
  simp only [List.mem_cons, List.not_mem_nil, or_false] at hx
  rcases hx with rfl | rfl | rfl | rfl | rfl | rfl
  all_goals exact ⟨issues_of (by decide), unwatched_of (by decide), by decide, by decide, by decide⟩

/-- A commit with no transaction, an abort in group 1, a forced commit outside the handler, and a begin in group 1. -/
theorem witness_TrapsEnterOrFreeze_commit :
    let i1 := Instr.txcommit 0#2 20#7
    let i2 := Instr.txabort 0#2
    let i3 := Instr.txcommitForce 0#2 20#7
    let i4 := Instr.txbegin 0#2 20#7 21#7 0#3
    let second := fun (g : Group) => { g with gid := 1 }
    let s1 := put i1 vec
    let s2 := txed i2 second
    let s3 := txed i3 id
    let s4 := txed i4 second
    (∀ x ∈ [(i1, s1), (i2, s2), (i3, s3), (i4, s4)], Issues x.1 none x.2 (site x.1 none x.2) (grp x.2) ∧ (grp x.2).handler = false ∧ (grp x.2).trapvec ≠ 0#64)
    ∧ (s1.team (grp s1).team).tx = none ∧ (grp s2).gid ≠ 0
    ∧ (grp s4).gid ≠ 0 ∧ ladderValid ((s4.launch (grp s4).launch).ladders.getD 0 0) = true ∧ ((grp s4).gval 21#7).toNat < 2 ^ 24 := by
  refine ⟨fun x hx => ?_, by decide, by decide, by decide, by decide, by decide⟩
  simp only [List.mem_cons, List.not_mem_nil, or_false] at hx
  rcases hx with rfl | rfl | rfl | rfl
  all_goals exact ⟨issues_of (by decide), by decide, by decide⟩

/-- Operand values and blocks that are malformed. -/
theorem witness_TrapsEnterOrFreeze_malformed :
    let i1 := Instr.txbegin 0#2 20#7 21#7 0#3
    let i2 := Instr.txbegin 0#2 20#7 21#7 1#3
    let i3 := Instr.ttload 0#2 8#7 32#7 9#7
    let i4 := Instr.ttset 0#2 0#7 8#7 10#7
    let i5 := Instr.mread 0#2 69#7 2#3 9#7
    let i6 := Instr.wait 0#2 7#7 8#7 9#7
    let i7 := Instr.cpy 0#2 10#7 11#7
    let i8 := Instr.cpyq 0#2 10#7 11#7
    let bad := fun (e : Tensor) => tensorBad (setTensorField e 0 0xFFFFFFFFFFFFFFFF#64)
    let s1 := txed i1 (fun g => g.setG 21 0x1000000#32)
    let s2 := txed i2 id
    let s3 := txed i3 id
    let s3b := txed i3 (fun g => (g.setG 8 255#32).setG 9 2#32)
    let s4 := txed i4 (fun g => g.setG 8 256#32)
    let s4b := loomed [(0, tensor 0x18000 128 64 64 1 0 0 0)] (put i4 (fun g => ((vec g).setG 10 0xFFFFFFFF#32).setG 11 0xFFFFFFFF#32))
    let s5 := loomed [] (put i5 (fun g => (vec g).setG 9 4096#32))
    let s6 := block 0 (put i6 vec)
    let s7 := block 0 (put i7 vec)
    let s8 := block 0 (put i8 vec)
    (∀ x ∈ [(i1, s1), (i2, s2), (i3, s3), (i3, s3b), (i4, s4), (i4, s4b), (i5, s5), (i6, s6), (i7, s7), (i8, s8)],
      Issues x.1 none x.2 (site x.1 none x.2) (grp x.2) ∧ Unwatched x.2 (grp x.2) ∧ (grp x.2).handler = false ∧ (grp x.2).trapvec ≠ 0#64)
    ∧ 2 ^ 24 ≤ ((grp s1).gval 21#7).toNat ∧ ladderValid ((s2.launch (grp s2).launch).ladders.getD 1 0) = false
    ∧ ((grp s3).gval 9#7).toNat = 0 ∧ 256 < ((grp s3b).gval 8#7).toNat + ((grp s3b).gval 9#7).toNat
    ∧ 255 < ((grp s4).gval 8#7).toNat
    ∧ (∃ e, Tab.get? (s4b.team (grp s4b).team).tensors 0 = some e ∧ bad e = true ∧ (grp s4b).gval64 10#7 = 0xFFFFFFFFFFFFFFFF#64)
    ∧ (LoomOpen s5 (grp s5) ∧ 2 ^ 12 ≤ ((grp s5).gval 9#7).toNat)
    ∧ (localBlock s6 (ctxOf i6 s6 (site i6 none s6) (grp s6)) ((grp s6).gval 8#7).toNat 64 = .ok (blockAt i6 s6)
      ∧ (∀ k, k < 4 → (fun n => n ≠ 5) (parseWait 0 k).kind) ∧ leNat (localBytes s6 (blockAt i6 s6) 64) = 0 ∧ waitBad 0 = true)
    ∧ (localBlock s7 (ctxOf i7 s7 (site i7 none s7) (grp s7)) ((grp s7).gval 11#7).toNat 64 = .ok (blockAt i7 s7)
      ∧ leNat (localBytes s7 (blockAt i7 s7) 64) = 0 ∧ cpyBad 0#512 = true)
    ∧ (localBlock s8 (ctxOf i8 s8 (site i8 none s8) (grp s8)) ((grp s8).gval 11#7).toNat 64 = .ok (blockAt i8 s8)
      ∧ leNat (localBytes s8 (blockAt i8 s8) 64) = 0 ∧ cpyqBad (ctxOf i8 s8 (site i8 none s8) (grp s8)) s8 0#512 = true) := by
  refine ⟨fun x hx => ?_, by decide, by decide, by decide, by decide, by decide, ⟨_, rfl, by decide, by decide⟩, ⟨⟨by decide, by decide⟩, by decide⟩,
    ⟨by decide, parseWait_kinds (P := fun n => n ≠ 5) (by decide), by decide, by decide⟩, by decide, by decide⟩
  simp only [List.mem_cons, List.not_mem_nil, or_false] at hx
  rcases hx with rfl | rfl | rfl | rfl | rfl | rfl | rfl | rfl | rfl | rfl
  all_goals exact ⟨issues_of (by decide), unwatched_of (by decide), by decide, by decide⟩

/-- V2 was written by an instruction whose result is due three clocks from now. -/
def short (g : Group) : Group := { vec g with stallchk := true, dues := [{ reg := .v 2, due := g.cycle + 3, old := [] }] }

theorem witness_TrapsEnterOrFreeze_stall :
    let i := Instr.iadd 0#2 4#7 1#7 2#7
    let s := put i short
    (encode i).length = 1 ∧ siteOf s (wordOf i) none = some (site i none s, grp s) ∧ haltDue s (grp s) = none
      ∧ pcMatch s (grp s) (site i none s).pc (site i none s).lanes = none ∧ suspended s (site i none s).gid (grp s) = false ∧ owedPops s (site i none s) (grp s) = []
      ∧ illegalDetail (shapeOf s (grp s)) i = none ∧ (∀ r ∈ i.reads ++ i.writes, r ∉ pendingRegs s (site i none s).gid (grp s))
      ∧ loomHeld s (site i none s).gid (grp s).core = false ∧ (grp s).stallchk = true
      ∧ (∃ e ∈ (grp s).dues, (grp s).cycle < e.due ∧ e.reg ∈ i.reads) ∧ (grp s).handler = false ∧ (grp s).trapvec ≠ 0#64 :=
  ⟨by decide, by decide, by decide, by decide, by decide, by decide, by decide, by decide, by decide, by decide,
    ⟨_, List.mem_cons_self .., by decide, by decide⟩, by decide, by decide⟩

/-- Lane 1 fills a word that is full, lane 2 the word that lane 0 fills. -/
def fills : List FillLane :=
  [{ lane := 0, va := 0x18000#64, pa := 0x18000, data := 1#64 }, { lane := 1, va := 0x18008#64, pa := 0x18008, data := 2#64 },
   { lane := 2, va := 0x18000#64, pa := 0x18000, data := 3#64 }]

theorem witness_TrapsEnterOrFreeze_fill :
    let s : State := { Tests.sent (.stfs fills) (put (.nop 0#2) vec) with full := [0x18008 / 8] }
    Tab.get? s.reqs 5 = some (req (.stfs fills)) ∧ (∀ y ∈ fills, peerAnswers s y.pa = true) ∧ storesAhead s (clusterOf 0) 5 (fills.map (fun y => (y.pa, 8))) = false
      ∧ fills.filter (fun y => s.isFull y.pa || fills.any (fun z => decide (z.lane < y.lane ∧ z.pa / 8 = y.pa / 8))) = fills.drop 1
      ∧ (∀ y ∈ fills, y.lane < 64)
      ∧ ∃ g, Tab.get? s.groups 1 = some g ∧ g.frozen = false ∧ g.handler = false ∧ g.trapvec ≠ 0#64 :=
  ⟨by decide, by decide, by decide, by decide, by decide, _, rfl, by decide, by decide, by decide⟩

/-- A debugger holds the context; comparator 1 of core 0 is set, for slot 0 and lanes 2 and 3. -/
def watchedBy (c : Comparator) (s : State) : State :=
  (s.modLaunch 1 (fun l => { l with debug := true })).modCore 0 (fun k =>
    { k with pcs := listModify k.pcs 1 (fun _ => c), datas := listModify k.datas 1 (fun _ => c) })

theorem witness_TrapsEnterOrFreeze_comparators :
    let i := Instr.nop 0#2
    let j := Instr.st 0#2 9#7 7#7 0#4 2#3
    let c : Comparator := { addr := 0x10000#64, mask := 0#64, lanes := 12#64, ctrl := 1#32 }
    let d : Comparator := { addr := 0x18000#64, mask := 0xFFFFFFFFFFFFFFFC#64, lanes := 12#64, ctrl := 13#32 }
    let s := watchedBy c (put i id)
    let t := watchedBy d (put j base)
    ((encode i).length = 1 ∧ siteOf s (wordOf i) none = some (site i none s, grp s) ∧ haltDue s (grp s) = none ∧ suspended s (site i none s).gid (grp s) = false
      ∧ (s.launch (grp s).launch).debug = true ∧ passesComparators s (grp s) = false ∧ (grp s).place = .resident 0 0 ∧ 0 < (s.core 0).debugSlots.length
      ∧ (s.core 0).pcs[1]? = some c ∧ pcTakes c 0 (site i none s) ∧ (∀ j x, j < 1 → (s.core 0).pcs[j]? = some x → ¬ pcTakes x 0 (site i none s)))
    ∧ (Issues j none t (site j none t) (grp t) ∧ owedPops t (site j none t) (grp t) = [] ∧ (grp t).handler = false ∧ (t.launch (grp t).launch).debug = true
      ∧ passesComparators t (grp t) = false ∧ (grp t).place = .resident 0 0 ∧ 0 < (t.core 0).debugSlots.length ∧ (t.core 0).datas[1]? = some d
      ∧ (accessesOf j (grp t)).map (fun x => (x.1, x.2.1, x.2.2 2)) = some (.store, 4, 0x18000#64)
      ∧ ((site j none t).lanes.has 2 = true ∧ dataTakes d 0 2 (decide (Acc.store ≠ .store)) (decide (Acc.store ≠ .load)) 0x18000#64 4)
      ∧ (∀ n x l, n < 1 → (t.core 0).datas[n]? = some x →
        ¬ dataTakes x 0 l (decide (Acc.store ≠ .store)) (decide (Acc.store ≠ .load)) ((grp t).ea l 0#4 7#7) 4)) := by
  refine ⟨⟨by decide, by decide, by decide, by decide, by decide, by decide, by decide, by decide, by decide,
    ⟨by decide, by decide, by unfold forSlot; decide, 2, by decide, by decide, by decide⟩, fun j x hj hx hp => ?_⟩,
    issues_of (by decide), by decide, by decide, by decide, by decide, by decide, by decide, by decide, by decide,
    ⟨by decide, by decide, by unfold forSlot; decide, by decide, by decide, 0, by decide, by decide⟩, fun n x l hn hx hp => ?_⟩
  all_goals
    obtain rfl : _ = 0 := Nat.lt_one_iff.1 ‹_ < 1›
    cases hx
    exact absurd hp.1 (by decide)
/-! ### Witnesses: commits, handlers, gates -/

/-- A commit of a fill of a word that is empty and of one that is full, and of a reduction of a word that is sound and of one that is poisoned. -/
theorem witness_SlicesPerformWrites_log :
    let e := fun (op : LogOp) => ({ core := 0, group := 1, lane := none, pa := 0x18000, va := 0x18000#64, op := op } : LogEntry)
    let s := Tests.sent (.commit [e (.fill 7#64)] 20 0#32) idle
    let s2 : State := { s with full := [0x18000 / 8] }
    let t := Tests.sent (.commit [e (.reduce .add 0#3 1#64)] 20 0#32) idle
    let t2 : State := { t with poison := [0x18000 / 8] }
    (∀ x ∈ [s, s2, t, t2], storesAhead x (clusterOf 0) 5 [(0x18000 - 0x18000 % 8, 8)] = false ∧ peerAnswers x 0x18000 = true)
    ∧ (s.isFull 0x18000 = false ∧ s2.isFull 0x18000 = true ∧ 0x18000 % 8 = 0)
    ∧ (t.poisoned 0x18000 (typeSize 0#3) = false ∧ t2.poisoned 0x18000 (typeSize 0#3) = true)
    ∧ NoWaiters s ∧ NoWaiters s2 ∧ NoWaiters t ∧ NoWaiters t2 :=
  ⟨by decide, by decide, by decide, noWaiters_of_kinds (by decide) (by decide), noWaiters_of_kinds (by decide) (by decide),
    noWaiters_of_kinds (by decide) (by decide), noWaiters_of_kinds (by decide) (by decide)⟩

/-- The word of an LDW is full; its lane is not of the open handler. An FEGET of two words that may both be read. -/
theorem witness_SlicesPerformFullEmpty_outside :
    let k := ReqKind.fe .ldw 9 0x18000#64 0x18000 7#64 9 .flying
    let s : State := { Tests.sent k (put (.nop 0#2) (fun g => { handling g with hset := 0xFF#64 })) with full := [0x18000 / 8] }
    let f := fun (lane pa : Nat) => ReqKind.fe .feget lane 0x18000#64 pa 0#64 9 .flying
    let t : State := { idle with reqs := [(5, req (f 2 0x18000)), (6, req (f 3 0x18008))], uid := 7 }
    (Tab.get? s.reqs 5 = some (req k) ∧ 5 < s.uid ∧ 0 ≠ peerCore ∧ feQueued s 5 (req k) 9 0x18000 = false ∧ feBehind s 5 (req k) 9 0x18000 = false ∧ peerAnswers s 0x18000 = true
      ∧ feReady s .ldw 0x18000 = true ∧ fePoisoned s (req k) .ldw 9 0x18000#64 0x18000 = [] ∧ NoWaiters s
      ∧ ∃ g, Tab.get? s.groups 1 = some g ∧ g.halted = false ∧ g.handler = true ∧ g.hset.has 9 = false ∧ 9 < g.threads.length)
    ∧ (feQueued t 5 (req (f 2 0x18000)) 2 0x18000 = false ∧ feBehind t 5 (req (f 2 0x18000)) 2 0x18000 = false ∧ feWaits .feget = false
      ∧ (siblings t (req (f 2 0x18000))).length = 2 ∧ (∀ e ∈ siblings t (req (f 2 0x18000)), e.2.kind.joint = true → wordReady t e = true)
      ∧ feReady t .feget 0x18000 = true ∧ fePoisoned t (req (f 2 0x18000)) .feget 2 0x18000#64 0x18000 = [] ∧ NoWaiters t) :=
  ⟨⟨by decide, by decide, by decide, by decide, by decide, by decide, by decide, by decide, noWaiters_of_kinds (by decide) (by decide), _, rfl, by decide, by decide,
      by decide, by decide⟩,
    by decide, by decide, by decide, by decide, by decide, by decide, by decide, noWaiters_of_kinds (by decide) (by decide)⟩

/-- A WAIT whose timeout has passed while a handler of other threads is open; a gate whose word is full at a peer that gives no answer. -/
theorem witness_WaitsEnd_handler :
    let b := Block.mk 1#64 0x10004#64 (.wait [waitEntry 5] false (some 0) 9) none
    let s := waiting b (put (.nop 0#2) (fun g => { handling g with hset := 0xFE#64 }))
    let u : State := { (idle.modLaunch 1 (fun l => { l with phase := .gated, gates := [{ pa := peerWord, resolved := false, watch := .polled 0 }] })) with
      weftSize := 4, silent := [peerOf peerWord], full := [peerWord / 8] }
    (∃ g, Tab.get? s.groups 1 = some g ∧ Tab.get? g.blocks 3 = some b ∧ mayTake s g = true ∧ g.handler = true ∧ (g.thread 0).wait = .block 3
      ∧ waitResult s g [waitEntry 5] false = none)
    ∧ (peerAnswers u peerWord = false ∧ u.isFull peerWord = true ∧ (u.launch 1).gates[0]? = some { pa := peerWord, resolved := false, watch := .polled 0 }) :=
  ⟨⟨_, rfl, by decide, by decide, by decide, by decide, by decide⟩, by decide⟩

/-- A group of a handler that is open, halted with the wake of a BAR recorded. -/
theorem witness_GroupsLeaveAndReturn_handler :
    let s := put (.nop 0#2) (fun g => { awoken g with handler := true })
    ∃ g b, s.slotGroup 0 0 = some (1, g) ∧ g.halted = true ∧ g.handler = true ∧ g.blocks = [(3, b)] ∧ b.kind = .bar 7 0#31 9 ∧ b.woken = some 1#32
      ∧ (g.thread 15).wait = .block 3 :=
  ⟨_, _, rfl, rfl, rfl, rfl, rfl, rfl, by decide⟩
/-! ### Witnesses: a team that waits for a core -/

/-- Launch 1, of PRIO 0, holds every scratchpad of core 0; the one team of launch 2, of PRIO 1 and DET, wants one there, where its logical core is. -/
def waits (time : Nat) : State :=
  let s := idle.modLaunch 1 (fun l => { l with card := l.card ||| BitVec.ofNat 1024 (88 * 2 ^ 384) })
  let two := s.launch 1
  { s with
    time := time
    launches := s.launches ++ [(2, { two with
      card := wordCard ||| BitVec.ofNat 1024 (2 ^ 80 + 2 ^ 160 + 2 ^ 176 + 2 ^ 384), prio := 1, nextTeam := 0, homes := [(0, 0)], waitSince := 0 })] }

theorem notPlaceable_of {s : State} (h : placeable s 2 0 = false) (hr : (s.launch 2).replays = []) (hl : ∀ c, (s.launch 2).nextFor (c + 1) = none) :
    placeableAnywhere s 2 = false := by
  unfold placeableAnywhere
  rw [List.any_eq_false]
  rintro (_ | c) -
  · simp [h]
  · simp [placeable, hr, hl]

/-- It has waited 10,000 ref ticks, and not; the going of launch 1's group makes core 0 qualify, and leaves core 1 as it is. -/
theorem witness_DispatcherTakesAndPlaces_waits :
    let s := waits (10000 * refTick)
    let t := waits (10000 * refTick - 1)
    let base := withoutAsked s
    (Tab.sorted s.groups = true ∧ Tab.sorted s.launches = true ∧ mayPlace s 2 = true ∧ (s.launch 2).waitSince + 10000 * refTick ≤ s.time
      ∧ placeableAnywhere s 2 = false ∧ placeableAnywhere base 2 = false
      ∧ ∃ k c, c < 768 ∧ placeable (without (victimGroups base ((victims base (s.launch 2).prio).take k) ((s.launch 2).coresAt c)) base) 2 c = true)
    ∧ (placeable (without (victimGroups base [1] ((s.launch 2).coresAt 0)) base) 2 0 = true
      ∧ placeable (without (victimGroups base [1] ((s.launch 2).coresAt 1)) base) 2 1 = false ∧ victims base (s.launch 2).prio = [1])
    ∧ (Tab.sorted t.groups = true ∧ Tab.sorted t.launches = true ∧ ¬ ((t.launch 2).waitSince + 10000 * refTick ≤ t.time)) :=
  ⟨⟨by decide, by decide, by decide, by decide, notPlaceable_of (by decide) (by decide) (fun c => rfl), notPlaceable_of (by decide) (by decide) (fun c => rfl),
    1, 0, by decide, by decide⟩, by decide, by decide⟩

/-- An ended launch with a completion word and an entry of a ring; one that failed. -/
theorem witness_DispatcherTakesAndPlaces_quiet :
    let f := fun (x : Option Nat) => (emptied idle).modLaunch 1 (fun l =>
      { l with card := l.card ||| BitVec.ofNat 1024 (0x18200 * 2 ^ 768), ring := some 0x30000, fail := x })
    ∀ x ∈ [none, some 0x0E], ∃ l, Tab.get? (f x).launches 1 = some l ∧ l.quietSince = some 0 ∧ quiet (f x) 1 = true ∧ 0 + 64 * refTick ≤ (f x).time
      ∧ launchReleased (f x) 1 = true ∧ l.det = false ∧ NoWaiters (f x) ∧ NoParks (f x) ∧ l.fail.getD 0 < 2 ^ 8 ∧ l.fail = x
      ∧ l.compPa (f x) = some 0x18200 ∧ peerAnswers (f x) 0x18200 = true ∧ aperture 0x18200 ≠ 2 ∧ l.ring = some 0x30000 := by
  intro f x hx
  simp only [List.mem_cons, List.not_mem_nil, or_false] at hx
  rcases hx with rfl | rfl
  all_goals exact ⟨_, rfl, rfl, by decide, by decide, by decide, by decide, noWaiters_of rfl (by decide), ⟨fun e he => (by cases he), fun e he => (by cases he)⟩,
    by decide, rfl, by decide, by decide, by decide, rfl⟩
/-! ### Well-formedness: ill-formed terms, refused -/

theorem test_wf_register_beyond_v111 : (Instr.iadd 0#2 112#7 0#7 0#7).wf = false := by decide
theorem test_wf_ext_with_s : (Instr.ext 1#2 0x48D1#21 0x0C005678#32).wf = false := by decide
theorem test_wf_ext_of_ext : (Instr.ext 0#2 0x48D1#21 0x8FE048D1#32).wf = false := by decide
theorem test_wf_ext_of_no_immediate : (Instr.ext 0#2 0x48D1#21 0x4460C205#32).wf = false := by decide
theorem test_wf_reserved_slot : (Instr.reservedSlot 0x03200000#32).wf = false := by decide
theorem test_wf_core_beyond_767 : (Instr.teamPlace 1 768).wf = false ∧ (Instr.overflowInterval 768 0 0 0 0).wf = false := by decide
theorem test_wf_slot_beyond_15 : (Instr.haltreq 0 16 0#32).wf = false ∧ (Instr.groupResume 768 0).wf = false := by decide
theorem test_wf_carter_beyond_31 : (Instr.carterStart 1 32).wf = false ∧ (Instr.carterPoison 32).wf = false := by decide
theorem test_wf_die_beyond_3 : (Instr.freePageDone 4).wf = false ∧ (Instr.migreq .host 4 0#32).wf = false := by decide
theorem test_wf_cluster_beyond_191 : (Instr.railStepUp 192).wf = false ∧ (Instr.clusterQueueTake 192).wf = false := by decide
theorem test_wf_myent_addresses : (Instr.myentRead (2 ^ 48) 8).wf = false ∧ (Instr.myentFetchAdd 4 1#64).wf = false := by decide
theorem test_wf_myent_lengths : (Instr.myentRead 0 0).wf = false ∧ (Instr.myentRead 0 65).wf = false ∧ (Instr.myentPostedWrite 0 []).wf = false := by decide
theorem test_wf_queue_beyond_63 : (Instr.queueTailWrite 64 0#16).wf = false ∧ (Instr.queueEnable 64 0#64).wf = false := by decide
theorem test_wf_engine_queue_beyond_7 : (Instr.ueSend 8).wf = false ∧ (Instr.uePostReceive 8).wf = false := by decide
theorem test_wf_register_write_address : (Instr.registerWrite .host (2 ^ 48) []).wf = false := by decide

/-! ### Decoding: words that the spec writes out -/

/-- R32's worked words, and those of the chapter on lane instructions (spec/07). -/
theorem test_decode_lane_words :
    decodeDefined 0x4460C205#32 = some (.ffma 2#2 3#7 4#7 5#7) ∧ decodeDefined 0x10024392#32 = some (.ld 0#2 9#7 7#7 2#4 2#3)
    ∧ decodeDefined 0x0401C304#32 = some (.fadd 0#2 7#7 6#7 4#7) ∧ decodeDefined 0x0A418134#32 = some (.cvtf 0#2 6#7 2#7 6#4 4#3)
    ∧ decodeDefined 0x0721C194#32 = some (.shflx 0#2 7#7 3#7 20#7) ∧ decodeDefined 0x0B4140A2#32 = some (.rand 0#2 5#7 1#7 1#2 2#5)
    ∧ decodeDefined 0x289C4328#32 = some (.shli 1#2 113#7 6#7 40#7) := by decide

theorem test_decode_memory_words :
    decodeDefined 0x1203039C#32 = some (.atadd 0#2 12#7 7#7 3#4 4#3) ∧ decodeDefined 0x11628123#32 = some (.ldc 0#2 10#7 2#7 4#4)
    ∧ decodeDefined 0x13C2018B#32 = some (.append 0#2 8#7 3#7 1#4 3#3) ∧ decodeDefined 0x90810590#32 = some (.gld 0#2 4#7 1#4 3#3 16#7)
    ∧ decodeDefined 0x90E10880#32 = some (.gatom 0#2 4#7 2#4 1#3 0#4) ∧ decodeDefined 0x91838800#32 = some (.sealPage 0#2 14#7 16#7) := by decide

theorem test_decode_control_words :
    decodeDefined 0x18213FFD#32 = some (.bnz 0#2 4#7 0x3FFD#14) ∧ decodeDefined 0x1860000A#32 = some (.call 0#2 10#21)
    ∧ decodeDefined 0x19200005#32 = some (.trapl 0#2 5#21) ∧ decodeDefined 0x98A00000#32 = some (.trapret 0#2)
    ∧ decodePair 0x8FE048D1#32 0x0C005678#32 = .ext 0#2 0x48D1#21 0x0C005678#32 ∧ decodeDefined 0x0C005678#32 = some (.movi 0#2 1#7 0x1678#14) := by decide

theorem test_decode_uniform_words :
    decodeDefined 0x84A16480#32 = some (.lsum 0#2 5#7 73#7) ∧ decodeDefined 0x84C1A480#32 = some (.lfsum 0#2 6#7 73#7)
    ∧ decodeDefined 0x88250A7D#32 = some (.gaddi 0#2 20#7 20#7 0x7D#7) ∧ decodeDefined 0x89250023#32 = some (.gwrs 0#2 20#7 0x23#14) := by decide

/-- R167's four fences of the worked case of spec/14, a WAIT, barriers, copies and transactions. -/
theorem test_decode_sync_words :
    decodeDefined 0x900AF000#32 = some (.fence 0#2 1#2 2#3 15#4) ∧ decodeDefined 0x900CF000#32 = some (.fence 0#2 1#2 4#3 15#4)
    ∧ decodeDefined 0x9041C409#32 = some (.wait 0#2 7#7 8#7 9#7) ∧ decodeDefined 0x90214302#32 = some (.barWait 0#2 5#7 6#7 2#3)
    ∧ decodeDefined 0x91028580#32 = some (.cpy 0#2 10#7 11#7) ∧ decodeDefined 0x91A50A81#32 = some (.txbegin 0#2 20#7 21#7 1#3)
    ∧ decodeDefined 0x91C50001#32 = some (.txcommitForce 0#2 20#7) := by decide

theorem test_decode_loom_words :
    decodeDefined 0x9A032000#32 = some (.mloadb 0#2 3#5 2#4 0#1) ∧ decodeDefined 0x9A28C01C#32 = some (.mloop 0#2 2#3 3#4 0#1 0#5 3#5 1#1)
    ∧ decodeDefined 0x9A9C0000#32 = some (.mzero 0#2 7#3) ∧ decodeDefined 0x9AD15090#32 = some (.mread 0#2 69#7 2#3 9#7)
    ∧ decodeWord 0x9B018000#32 = .mstat 0#2 6#7 ∧ decodeWord 0x03200000#32 = .reservedSlot 0x03200000#32 := by decide

/-- The host's way of asking. -/
theorem test_decodeTableWord :
    decodeTableWord 32 0x0C005678 = some (.movi 0#2 1#7 0x1678#14) ∧ decodeTableWord 32 0x9A9C0000 = some (.mzero 0#2 7#3) := by decide

/-! ### Numbers: the worked rows of spec/05 -/

theorem test_mxfp4_worked_block :
    let x := mxScale .e2m1 (valF32 0x41600000#32)
    x = 0x80 ∧ convMx .e2m1 .rne 0#32 x (valF32 0x41600000#32) = (0x7, true) ∧ convMx .e2m1 .rne 0#32 x (valF32 0x41200000#32) = (0x6, false)
      ∧ convMx .e2m1 .rne 0#32 x (valF32 0xC0400000#32) = (0xB, false) := by decide

theorem test_mxfp8_worked_rows :
    mxScale .e4m3 (valF32 0x41600000#32) = 0x7A ∧ convMx .e4m3 .rne 0#32 0x7A (valF32 0x41200000#32) = (0x7A, false)
      ∧ convMx .e4m3 .rne 0#32 (mxScale .e4m3 (valF32 0x41700000#32)) (valF32 0x41700000#32) = (0x7E, true) := by decide

/-- 23.625 gives the band 2.0; 7.9 under it the block code 0xCB. -/
theorem test_bsf4_worked_scales :
    bsf4Band (valF32 0x41BD0000#32) = 0x4000 ∧ bsf4Block (valF32 0x40FCCCCD#32) 0x4000 = 0xCB := by decide

/-- 3.0, -1.25, 7.9 and -2.2 under 0xCB and 0x4000. -/
theorem test_bsf4_worked_elements :
    convBsf4 .rne 0#32 0xCB 0x4000 (valF32 0x40400000#32) = (0x4, false) ∧ convBsf4 .rne 0#32 0xCB 0x4000 (valF32 0xBFA00000#32) = (0xA, false)
    ∧ convBsf4 .rne 0#32 0xCB 0x4000 (valF32 0x40FCCCCD#32) = (0x7, false) ∧ convBsf4 .rne 0#32 0xCB 0x4000 (valF32 0xC00CCCCD#32) = (0xB, false) := by decide

/-! ### Single steps from reset -/

/-- A register of the group after one step with a word in place of a program. -/
def stepReg (w : Word) (f : Group → Group) (lane : Nat) (r : Reg) : Option Word :=
  match step ((wordAt w).modGroup 1 f) with
  | .next t => (Tab.get? t.groups 1).map (fun g => g.reg lane r)
  | _ => none

theorem test_step_movi : stepReg 0x0C005678#32 id 15 (.v 1) = some 0x1678#32 := by decide

/-- The worked case of R166: lanes 1, 4 and 6 issue; what lands in G6 is 0x4B80_0000. -/
theorem test_step_lfsum_worked :
    (match step ((wordAt 0x84C1A480#32).modGroup 1 (fun g => { g with
      cur := 0x52#64
      threads := g.threads.zipIdx.map (fun t => if t.2 = 1 then t.1.setV 9 0x4B800000#32 else if t.2 = 4 ∨ t.2 = 6 then t.1.setV 9 0x3F800000#32
        else t.1.setV 9 0x40A00000#32) })) with
      | .next t => t.reqs.map (fun e => e.2.kind)
      | _ => []) = [.value [{ lane := none, reg := 6, val := 0x4B800000#32 }]] := by decide

/-- A reserved word with no handler freezes the group, its cause unassigned_word. -/
theorem test_step_reserved_freezes :
    (match step (wordAt 0x03200000#32) with
      | .next t => (Tab.get? t.groups 1).map (fun g => g.frozen)
      | _ => none) = some true := by decide

end Sys2Proof.Tests
end

section
/-! PROOF. What a step runs (spec/01 R16, R29, spec/03 R33, R58, spec/12 R244): the word that a fetch finds, the group that a pipe is granted to,
and the instruction that it runs. -/

namespace Sys2Proof.Machine

/-! ### The word at an address (R33, R244) -/

/-- The little-endian value of four bytes is the word they make, the lowest byte first. -/
theorem ofNat_leNat_eq_wordOfBytes (b0 b1 b2 b3 : Byte) : BitVec.ofNat 32 (leNat [b0, b1, b2, b3]) = wordOfBytes b0 b1 b2 b3 := by
  apply BitVec.eq_of_toNat_eq
  simp only [wordOfBytes, leNat, BitVec.toNat_ofNat, BitVec.toNat_append, ← Nat.shiftLeft_add_eq_or_of_lt b0.isLt,
    ← Nat.shiftLeft_add_eq_or_of_lt b1.isLt, ← Nat.shiftLeft_add_eq_or_of_lt b2.isLt]
  simp only [Nat.shiftLeft_eq]
  omega

/-- Behind no copy and no replica, a fetch reads each byte at its home: the con path sees no store early. -/
theorem loadByte_con_eq_homeByte {s : State} {core pa : Nat} (hc : supplier s core .con pa = none) (hr : replicaOf s core pa = pa) :
    loadByte s core .con pa = homeByte s pa := by
  unfold supplier at hc
  simp [loadByte, homeByte, byteFrom, hc, hr]

/-- A fetch inside a code extent whose bytes no copy and no replica supplies and no error has poisoned finds the word of its four home bytes. -/
theorem fetchAt_eq_word {s : State} {g : Group} {va : DWord} {e : Extent} {pa : Nat} (hcan : canonical va.toNat = true)
    (htr : (s.launch g.launch).translate va.toNat = some (e, pa)) (hf : e.fetch = true) (hin : va.toNat + 4 ≤ e.va + e.len)
    (hb : ∀ k, k < 4 → supplier s g.core .con (pa + k) = none ∧ replicaOf s g.core (pa + k) = pa + k ∧ bytePoison s g.core .con (pa + k) = false) :
    fetchAt s g va = .word (wordOfBytes (homeByte s pa) (homeByte s (pa + 1)) (homeByte s (pa + 2)) (homeByte s (pa + 3))) := by
  have hbad : (List.range 4).any (fun k => bytePoison s g.core .con (pa + k)) = false := by
    rw [List.any_eq_false]
    intro k hk
    simp [(hb k (List.mem_range.1 hk)).2.2]
  have hbytes : (List.range 4).map (fun k => loadByte s g.core .con (pa + k)) = (List.range 4).map (fun k => homeByte s (pa + k)) :=
    List.map_congr_left fun k hk => loadByte_con_eq_homeByte (hb k (List.mem_range.1 hk)).1 (hb k (List.mem_range.1 hk)).2.1
  have hin' : ¬ e.va + e.len < va.toNat + 4 := by omega
  simp only [fetchAt, hcan, htr, hf, hbad, hbytes, hin', Bool.not_true, Bool.false_or, decide_false, Bool.false_eq_true, if_false]
  exact congrArg Fetched.word (ofNat_leNat_eq_wordOfBytes _ _ _ _)

/-! ### The instruction at a word (R33, R56, R58) -/

/-- MWRITE and MSTAT have different opcodes. -/
theorem isMwriteWord_of_isMstatWord {w : Word} (h : isMstatWord w = true) : isMwriteWord w = false := by
  simp only [isMstatWord, Bool.and_eq_true, beq_iff_eq] at h
  simp [isMwriteWord, h.1.1]

theorem runWord_of_decodeDefined {w : Word} {i : Instr} (h : decodeDefined w = some i) (s : State) : runWord w s = exec i s := by
  simp only [runWord, h]

theorem runWord_of_isMwriteWord {w : Word} (h : decodeDefined w = none) (hm : isMwriteWord w = true) (s : State) :
    runWord w s = exec (.mwrite (fS w) (fD w) (w.extractLsb' 11 3) (w.extractLsb' 4 7)) s := by
  simp only [runWord, h, hm, if_true]; rfl

theorem runWord_of_isMstatWord {w : Word} (h : decodeDefined w = none) (hm : isMstatWord w = true) (s : State) :
    runWord w s = exec (.mstat (fS w) (fD w)) s := by
  simp only [runWord, h, isMwriteWord_of_isMstatWord hm, hm, if_true, Bool.false_eq_true, if_false]; rfl

/-- A word of no row of the opcode table runs as a reserved one (R56). -/
theorem runWord_of_reserved {w : Word} (h : decodeDefined w = none) (hw : isMwriteWord w = false) (hs : isMstatWord w = false) (s : State) :
    runWord w s = exec (.reservedSlot w) s := by
  simp only [runWord, h, hw, hs, Bool.false_eq_true, if_false]; rfl

/-- A group runs the word that its fetch finds. -/
theorem runGroup_of_word {gid : Nat} {s : State} {g : Group} {w : Word} (hg : Tab.get? s.groups gid = some g) (hw : fetchAt s g g.nextPc = .word w)
    (hx : isExtWord w = false) : runGroup gid s = runWord w { s with turn := gid } := by
  simp only [runGroup, hg, hw, hx, Bool.false_eq_true, if_false]

/-- Behind EXT a group runs the pair (R58). -/
theorem runGroup_of_pair {gid : Nat} {s : State} {g : Group} {w f : Word} (hg : Tab.get? s.groups gid = some g)
    (hw : fetchAt s g g.nextPc = .word w) (hx : isExtWord w = true) (hf : fetchAt s g (g.nextPc + 4#64) = .word f) :
    runGroup gid s = exec (.ext (fS w) (fI21 w) f) { s with turn := gid } := by
  simp only [runGroup, hg, hw, hx, hf, if_true]; rfl

/-! ### The group that a pipe is granted to (R29) -/

/-- The group granted first runs, unless its instruction waits at issue and another is granted. -/
theorem grantFirst_cons {s : State} {gid : Nat} {others : List Nat} (h : others ≠ [] → runGroup gid s ≠ .next { s with turn := gid }) :
    grantFirst s (gid :: others) = runGroup gid s := by
  cases others with
  | nil => rfl
  | cons k t =>
    have h := h (List.cons_ne_nil k t)
    simp only [grantFirst]
    split
    next s' hs => rw [if_neg (fun he => h (hs.trans (congrArg _ he)))]; exact hs.symm
    next => rfl

/-- Where the agenda names a pipe, a step runs the instruction that the group granted first runs. -/
theorem step_issue {s : State} {core : Nat} {pipe : Bool} {rest : List Choice} {gid : Nat} {others : List Nat} {i : Instr}
    (ha : s.agenda = .issue core pipe :: rest) (hgr : grants { s with agenda := rest } core pipe = gid :: others)
    (hrun : runGroup gid { s with agenda := rest } = exec i { s with agenda := rest, turn := gid })
    (hw : others ≠ [] → exec i { s with agenda := rest, turn := gid } ≠ .next { s with agenda := rest, turn := gid }) :
    step s = exec i { s with agenda := rest, turn := gid } := by
  simp only [step, ha, issueStep, hgr]
  rw [grantFirst_cons (fun ho => hrun ▸ hw ho), hrun]

/-- Where the agenda names a step of the device, the step runs it. -/
theorem step_event {s : State} {i : Instr} {rest : List Choice} (ha : s.agenda = .event i :: rest) (he : encode i = []) :
    step s = exec i { s with agenda := rest } := by
  simp [step, ha, he]

/-- Settles O56: a fetch finds the word of the home bytes, the group granted first runs what that word decodes to, and an event runs the step
that it names. -/
theorem stepRunsDecodedInstruction : Obligations.StepRunsDecodedInstruction := by
  refine ⟨fun s g va e pa => fetchAt_eq_word, fun s core pipe rest gid others g w ha => ?_, fun s i rest => step_event⟩
  intro s0 s1 hgr hg hw
  refine ⟨fun hx => ?_, fun hx f hf hne => step_issue ha hgr (runGroup_of_pair hg hw hx hf) hne⟩
  have hrun := runGroup_of_word hg hw hx
  exact ⟨fun i hi => step_issue ha hgr (hrun.trans (runWord_of_decodeDefined hi _)),
    fun hn => ⟨fun hm => step_issue ha hgr (hrun.trans (runWord_of_isMwriteWord hn hm _)),
      fun hm => step_issue ha hgr (hrun.trans (runWord_of_isMstatWord hn hm _)),
      fun hmw hms => step_issue ha hgr (hrun.trans (runWord_of_reserved hn hmw hms _))⟩⟩

end Sys2Proof.Machine
end

section
/-! PROOF. What the grouping of a group's threads keeps of it (spec/01 R15, R16, R25): the fields that the end of a wait and the choice of the
next issue set leave alone, and what becomes of the YIELDs of a group. -/

namespace Sys2Proof.Machine

/-! ### Fields that a choice of issue set leaves alone -/

theorem Group.pick_eq (g : Group) : g.pick = { g with cur := g.pick.cur } := by
  unfold Group.pick
  dsimp only
  split <;> rfl

theorem Group.unblock_eq (g : Group) (id : Nat) :
    g.unblock id = { g with blocks := (g.unblock id).blocks, threads := (g.unblock id).threads } := by
  unfold Group.unblock
  split <;> rfl

theorem Group.goOn_eq (g : Group) (id : Nat) :
    g.goOn id = { g with blocks := (g.goOn id).blocks, threads := (g.goOn id).threads } := by
  unfold Group.goOn
  split
  · rfl
  · exact g.unblock_eq id

theorem Group.foldl_unblock_eq (es : List (Nat × Block)) (g : Group) :
    es.foldl (fun x e => x.unblock e.1) g = { g with blocks := (es.foldl (fun x e => x.unblock e.1) g).blocks
                                                     threads := (es.foldl (fun x e => x.unblock e.1) g).threads } := by
  induction es generalizing g with
  | nil => rfl
  | cons e t ih => rw [List.foldl_cons, ih, g.unblock_eq e.1]

theorem Group.endYields_eq (g : Group) : g.endYields = { g with blocks := g.endYields.blocks, threads := g.endYields.threads } := by
  unfold Group.endYields
  split
  · rfl
  · exact Group.foldl_unblock_eq _ g

/-- A choice of issue set changes threads, blocks and the current set alone. -/
theorem Group.choose_eq (g : Group) :
    g.choose = { g with threads := g.choose.threads, blocks := g.choose.blocks, cur := g.choose.cur } := by
  unfold Group.choose
  dsimp only
  split
  · rw [Group.pick_eq, Group.endYields_eq]
  · rw [Group.pick_eq]

theorem Group.rechoose_eq (g : Group) :
    g.rechoose = { g with threads := g.rechoose.threads, blocks := g.rechoose.blocks, cur := g.rechoose.cur } := by
  unfold Group.rechoose
  split
  · exact g.choose_eq
  · rfl

theorem chosen_rechoose (g : Group) : Chosen g g.rechoose := by
  unfold Group.rechoose
  split
  · exact chosen_choose g
  · exact Chosen.refl g

end Sys2Proof.Machine
end

section
/-! PROOF. What the ends of waits, transactions, groups and tasks leave of the table of groups (spec/01 R8, spec/08 R175, R194, spec/10 R222, R223): a
group that stays is of its team, and one that waits for nothing stays as it is. -/

namespace Sys2Proof.Machine

/-! ### What is left of the groups -/

/-- From `s` to `t` no group appears or changes its team, and one with no blocked issue set whose number is not in `gone` stays as it is. -/
structure GroupsLeft (gone : Nat → Prop) (s t : State) : Prop where
  team : ∀ n g', Tab.get? t.groups n = some g' → ∃ g, Tab.get? s.groups n = some g ∧ g'.team = g.team
  idle : ∀ n g, ¬ gone n → Tab.get? s.groups n = some g → g.blocks = [] → Tab.get? t.groups n = some g
  sorted : Tab.sorted s.groups = true → Tab.sorted t.groups = true

theorem GroupsLeft.of_eq {gone : Nat → Prop} {s t : State} (h : t.groups = s.groups) : GroupsLeft gone s t :=
  ⟨fun _ g' hg => ⟨g', h ▸ hg, rfl⟩, fun _ _ _ hg _ => h ▸ hg, fun hs => h ▸ hs⟩

theorem GroupsLeft.trans {gone : Nat → Prop} {a b c : State} (h : GroupsLeft gone a b) (k : GroupsLeft gone b c) : GroupsLeft gone a c := by
  refine ⟨fun n g' hg => ?_, fun n g hn hg hb => k.idle n g hn (h.idle n g hn hg hb) hb, fun hs => k.sorted (h.sorted hs)⟩
  obtain ⟨g1, h1, e1⟩ := k.team n g' hg
  obtain ⟨g2, h2, e2⟩ := h.team n g1 h1
  exact ⟨g2, h2, e1.trans e2⟩

theorem GroupsLeft.mono {gone gone' : Nat → Prop} {s t : State} (h : GroupsLeft gone s t) (hs : ∀ n, gone n → gone' n) : GroupsLeft gone' s t :=
  ⟨h.team, fun n g hn => h.idle n g (fun hc => hn (hs n hc)), h.sorted⟩

/-- A number that names no group names none later. -/
theorem GroupsLeft.none {gone : Nat → Prop} {s t : State} (h : GroupsLeft gone s t) {n : Nat} (hn : Tab.get? s.groups n = none) :
    Tab.get? t.groups n = none := by
  cases ht : Tab.get? t.groups n with
  | none => rfl
  | some g' =>
    obtain ⟨g, hg, -⟩ := h.team n g' ht
    rw [hn] at hg
    cases hg

/-- Steps one after another. -/
theorem GroupsLeft.foldl {β : Type} {gone : Nat → Prop} (f : State → β → State) (bs : List β)
    (hf : ∀ s, ∀ b ∈ bs, GroupsLeft gone s (f s b)) (s : State) : GroupsLeft gone s (bs.foldl f s) := by
  induction bs generalizing s with
  | nil => exact .of_eq rfl
  | cons b t ih => exact (hf s b List.mem_cons_self).trans (ih (fun s b hb => hf s b (List.mem_cons_of_mem _ hb)) _)

theorem Tab.sorted_modify {α : Type} {t : Tab α} (n : Nat) (f : α → α) (h : Tab.sorted t = true) : Tab.sorted (Tab.modify t n f) = true := by
  unfold Tab.modify
  split
  · exact Tab.sorted_put _ _ h
  · exact h

/-- From `s` to `t` no group but `n` changes, and that one stays of its team. -/
structure OnlyGroup (n : Nat) (s t : State) : Prop where
  others : ∀ m, m ≠ n → Tab.get? t.groups m = Tab.get? s.groups m
  team : ∀ g', Tab.get? t.groups n = some g' → ∃ g, Tab.get? s.groups n = some g ∧ g'.team = g.team
  sorted : Tab.sorted s.groups = true → Tab.sorted t.groups = true

theorem OnlyGroup.of_eq {n : Nat} {s t : State} (h : t.groups = s.groups) : OnlyGroup n s t :=
  ⟨fun _ _ => by rw [h], fun g' hg => ⟨g', h ▸ hg, rfl⟩, fun hs => h ▸ hs⟩

theorem OnlyGroup.trans {n : Nat} {a b c : State} (h : OnlyGroup n a b) (k : OnlyGroup n b c) : OnlyGroup n a c := by
  refine ⟨fun m hm => (k.others m hm).trans (h.others m hm), fun g' hg => ?_, fun hs => k.sorted (h.sorted hs)⟩
  obtain ⟨g1, h1, e1⟩ := k.team g' hg
  obtain ⟨g2, h2, e2⟩ := h.team g1 h1
  exact ⟨g2, h2, e1.trans e2⟩

theorem OnlyGroup.modGroup (s : State) (n : Nat) (f : Group → Group) (hf : ∀ g, (f g).team = g.team) : OnlyGroup n s (s.modGroup n f) := by
  refine ⟨fun m hm => Tab.get?_modify_ne _ _ hm, fun g' hg => ?_, Tab.sorted_modify n f⟩
  rw [State.modGroup_groups, Tab.get?_modify_self] at hg
  obtain ⟨g, h, rfl⟩ := Option.map_eq_some_iff.1 hg
  exact ⟨g, h, hf g⟩

/-- Only a group with a blocked issue set changes. -/
theorem OnlyGroup.groupsLeft {n : Nat} {s t : State} (h : OnlyGroup n s t) (gone : Nat → Prop)
    (hb : ∀ g, Tab.get? s.groups n = some g → g.blocks ≠ []) : GroupsLeft gone s t := by
  refine ⟨fun m g' hg => ?_, fun m g _ hg hi => ?_, h.sorted⟩
  · by_cases hm : m = n
    · subst hm; exact h.team g' hg
    · exact ⟨g', h.others m hm ▸ hg, rfl⟩
  · have hm : m ≠ n := fun hm => hb g (hm ▸ hg) hi
    exact (h.others m hm).trans hg

/-! ### Waits that end -/

/-- A write changes memory and poison alone. -/
theorem State.write_eq (s : State) (pa n v : Nat) : s.write pa n v = { s with mem := (s.write pa n v).mem, poison := (s.write pa n v).poison } := by
  unfold State.write State.poke clearPoison
  rw [State.setBytes_eq]

/-- The withdrawal of a watch changes memory and poison alone. -/
theorem freeWatch_eq (l : Nat) (w : Watch) (s : State) :
    freeWatch l w s = { s with mem := (freeWatch l w s).mem, poison := (freeWatch l w s).poison } := by
  unfold freeWatch
  split
  · exact State.write_eq s _ _ _
  · rfl

@[simp] theorem freeWatch_groups (l : Nat) (w : Watch) (s : State) : (freeWatch l w s).groups = s.groups := by rw [freeWatch_eq]

/-- A fold whose every step keeps a part of a state keeps it. -/
theorem foldl_keeps {α β γ : Type} (part : α → γ) (f : α → β → α) (hf : ∀ s b, part (f s b) = part s) (bs : List β) (s : α) :
    part (bs.foldl f s) = part s := by
  induction bs generalizing s with
  | nil => rfl
  | cons b t ih => rw [List.foldl_cons, ih, hf]

/-- Nor does it change a group where the watches of several conditions are withdrawn. -/
theorem foldl_freeWatch_groups (launch : Nat) (es : List WaitEntry) (s : State) :
    (es.foldl (fun s e => freeWatch launch e.watch s) s).groups = s.groups := foldl_keeps State.groups _ (fun s e => freeWatch_groups launch e.watch s) es s

/-- Dropping the copies of several lines changes no group. -/
theorem foldl_dropAll_groups (core : Nat) (es : List WaitEntry) (s : State) :
    (es.foldl (fun s e => dropAll core e.pa s) s).groups = s.groups := by
  rw [foldl_dropAll_eq core WaitEntry.pa]

theorem noteRead_onlyGroup (gid : Nat) (lanes : LaneSet) (inFlight : NatSet) (until_ : Nat) (s : State) :
    OnlyGroup gid s (noteRead gid lanes inFlight until_ s) := .modGroup s gid _ (fun _ => rfl)

/-- What the end of a WAIT makes of its reads changes no group but its own. -/
theorem waitReads_onlyGroup (gid core : Nat) (lanes : LaneSet) (es : List WaitEntry) (s : State) :
    OnlyGroup gid s (waitReads gid core lanes es s) := by
  unfold waitReads
  dsimp only
  split
  · exact .of_eq rfl
  · exact (noteRead_onlyGroup gid lanes [] _ s).trans (.of_eq (foldl_dropAll_groups core _ _))

/-- The end of a WAIT changes no group but its own. -/
theorem finishWait_onlyGroup (gid id : Nat) (r : Word) (s : State) : OnlyGroup gid s (finishWait gid id r s) := by
  unfold finishWait
  split
  · exact .of_eq rfl
  split
  · exact .of_eq rfl
  split
  · split
    · exact .modGroup s gid _ (fun _ => rfl)
    · refine OnlyGroup.trans (.of_eq (foldl_freeWatch_groups _ _ s)) (OnlyGroup.trans (.modGroup _ gid _ (fun g => ?_)) (waitReads_onlyGroup _ _ _ _ _))
      rw [Group.rechoose_eq, Group.goOn_eq]
      rfl
  · exact .of_eq rfl

/-- A WAIT that ends is one that a group is blocked at. -/
theorem retryWait_groupsLeft {gid id : Nat} {s t : State} (h : retryWait gid id s = some t) (gone : Nat → Prop) : GroupsLeft gone s t := by
  unfold retryWait at h
  split at h
  · cases h
  rename_i g hg
  split at h
  · rename_i hb
    split at h
    · cases h
      refine (finishWait_onlyGroup gid id _ s).groupsLeft gone (fun g' hg' he => ?_)
      rw [hg] at hg'
      cases hg'
      rw [he] at hb
      cases hb
    · cases h
  · cases h

theorem retryWait_getD_groupsLeft (gid id : Nat) (s : State) (gone : Nat → Prop) : GroupsLeft gone s ((retryWait gid id s).getD s) := by
  cases h : retryWait gid id s with
  | none => exact .of_eq rfl
  | some t => exact retryWait_groupsLeft h gone

/-- An event inside the device ends waits, and no group changes otherwise. -/
theorem wakeInner_groupsLeft (s : State) (gone : Nat → Prop) : GroupsLeft gone s (wakeInner s) :=
  .foldl _ _ (fun s w _ => retryWait_getD_groupsLeft w.1 w.2 s gone) s

/-- So does a write of a word that the hardware makes. -/
theorem wakeWaits_groupsLeft (pa : Nat) (s : State) (gone : Nat → Prop) : GroupsLeft gone s (wakeWaits pa s) := by
  have clear : ∀ (k : Nat) (u : State), (clearWatch k u).groups = u.groups := fun k u => by unfold clearWatch; split <;> rfl
  refine GroupsLeft.trans (.foldl _ _ (fun u x _ => ?_) s) (.of_eq (clear _ _))
  unfold tryHeld
  split
  · split
    · exact retryWait_getD_groupsLeft _ _ u gone
    · exact .of_eq (freeWatch_groups _ _ u)
    · exact .of_eq rfl
  · exact retryWait_getD_groupsLeft _ _ u gone

/-- A record of the fault ring changes no group but by the waits that it ends. -/
theorem faultRecord_groupsLeft (ctx : Nat) (rec : BitVec 512) (s : State) (gone : Nat → Prop) : GroupsLeft gone s (faultRecord ctx rec s) := by
  have hw : ∀ (u : State) (pa n v : Nat), (u.write pa n v).groups = u.groups := fun u pa n v => by rw [State.write_eq]
  unfold faultRecord
  dsimp only
  split
  · exact .of_eq rfl
  split
  · refine GroupsLeft.trans (.of_eq ?_) ((wakeWaits_groupsLeft _ _ gone).trans (wakeWaits_groupsLeft _ _ gone))
    rw [State.message_groups, hw, hw]
  · exact GroupsLeft.trans (.of_eq (hw _ _ _ _)) (wakeWaits_groupsLeft _ _ gone)

/-! ### Transactions, groups and tasks that end -/

theorem discardDeferred_groupsLeft (team : Nat) (s : State) (gone : Nat → Prop) : GroupsLeft gone s (discardDeferred team s) := by
  refine GroupsLeft.trans (.of_eq (foldl_keeps State.groups _ (fun u e => ?_) _ s)) (wakeInner_groupsLeft _ gone)
  split <;> rfl

theorem restoreShadows_groups (x : Tx) (s : State) : (restoreShadows x s).groups = s.groups :=
  foldl_keeps State.groups (fun (s : State) (h : Shadow) => h.restore s) (fun _ _ => rfl) x.shadows s

/-- A transaction that is aborted changes no group but by the waits that it ends. -/
theorem abortTx_groupsLeft (team : Nat) (s : State) (gone : Nat → Prop) : GroupsLeft gone s (abortTx team s) := by
  unfold abortTx
  split
  · exact .of_eq rfl
  · exact GroupsLeft.trans (.of_eq (restoreShadows_groups _ s)) ((discardDeferred_groupsLeft team _ gone).trans (.of_eq rfl))

theorem releaseCore_groups (launch core : Nat) (s : State) : (releaseCore launch core s).groups = s.groups := by
  unfold releaseCore clearLent
  split
  · rfl
  · dsimp only
    split <;> rfl

theorem endTeam_groupsLeft (team : Nat) (froze : Bool) (s : State) (gone : Nat → Prop) : GroupsLeft gone s (endTeam team froze s) := by
  refine (abortTx_groupsLeft team s gone).trans (.of_eq ?_)
  unfold endTeam
  dsimp only
  rw [releaseCore_groups]
  split <;> (try rw [releaseCore_groups]) <;> split <;> rfl

theorem withdrawBlocks_groups (g : Group) (s : State) : (withdrawBlocks g s).groups = s.groups := by
  refine foldl_keeps State.groups _ (fun u e => ?_) _ s
  split
  · exact foldl_freeWatch_groups g.launch _ u
  · rfl

theorem withdrawFe_groups (gid : Nat) (s : State) : (withdrawFe gid s).groups = s.groups := by
  refine foldl_keeps State.groups _ (fun u e => ?_) _ s
  split
  · split
    · split
      · exact freeWatch_groups _ _ u
      · rfl
    · rfl
  · rfl

theorem leaveRegisters_groups (g : Group) (s : State) : (leaveRegisters g s).groups = s.groups := by
  unfold leaveRegisters
  split <;> rfl

/-- A number is taken from the table. -/
theorem GroupsLeft.del {s t : State} {n : Nat} (h : t.groups = Tab.del s.groups n) : GroupsLeft (fun m => m = n) s t := by
  have hne : ∀ m, m ≠ n → Tab.get? t.groups m = Tab.get? s.groups m := fun m hm => by rw [h, Tab.get?_del_ne _ hm]
  refine ⟨fun m g' hg => ?_, fun m g hm hg _ => (hne m hm).trans hg, fun hs => h ▸ Tab.sorted_del n hs⟩
  have hm : m ≠ n := by
    rintro rfl
    rw [h, Tab.get?_del_self] at hg
    cases hg
  exact ⟨g', (hne m hm) ▸ hg, rfl⟩

/-- A group has left its core, its waits and the table of groups; its transaction and its task have still to end. -/
def withoutGroup (gid : Nat) (g : Group) (s : State) : State :=
  let s1 := orphanReqs gid (withdrawFe gid (withdrawBlocks g (leaveRegisters g s)))
  ({ s1 with groups := Tab.del s1.groups gid }).modLaunch g.launch (fun l =>
    { l with early := g.threads.foldl (fun m (t : Thread) => t.early.foldl NatSet.ins m) l.early
             seen := g.threads.foldl (fun m (t : Thread) => max m t.seen) l.seen })

/-- What ends with a group that has left: its transaction, and its task or its hold of the core. -/
def endWith (g : Group) (s : State) : State :=
  let s1 := if g.gid = 0 then abortTx g.team s else s
  if s1.teamEmpty g.team then endTeam g.team g.frozen s1 else releaseCore g.launch g.core s1

theorem removeGroup_of_some {gid : Nat} {s : State} {g : Group} (h : Tab.get? s.groups gid = some g) :
    removeGroup gid s = endWith g (withoutGroup gid g s) := by
  unfold removeGroup
  rw [h]
  rfl

theorem withoutGroup_groups (gid : Nat) (g : Group) (s : State) : (withoutGroup gid g s).groups = Tab.del s.groups gid := by
  have h : (orphanReqs gid (withdrawFe gid (withdrawBlocks g (leaveRegisters g s)))).groups = s.groups :=
    (withdrawFe_groups _ _).trans ((withdrawBlocks_groups _ _).trans (leaveRegisters_groups _ _))
  exact congrArg (Tab.del · gid) h

theorem endWith_groupsLeft (g : Group) (s : State) (gone : Nat → Prop) : GroupsLeft gone s (endWith g s) := by
  have h : GroupsLeft gone s (if g.gid = 0 then abortTx g.team s else s) := by
    split
    · exact abortTx_groupsLeft _ s gone
    · exact .of_eq rfl
  refine h.trans ?_
  unfold endWith
  generalize (if g.gid = 0 then abortTx g.team s else s) = s1
  dsimp only
  split
  · exact endTeam_groupsLeft _ _ _ gone
  · exact .of_eq (releaseCore_groups _ _ _)

/-- A group that ends takes no other with it (R8). -/
theorem removeGroup_groupsLeft (gid : Nat) (s : State) : GroupsLeft (fun n => n = gid) s (removeGroup gid s) := by
  cases h : Tab.get? s.groups gid with
  | none => unfold removeGroup; rw [h]; exact .of_eq rfl
  | some g => rw [removeGroup_of_some h]; exact (GroupsLeft.del (withoutGroup_groups gid g s)).trans (endWith_groupsLeft g _ _)

/-- A group that ends is gone. -/
theorem removeGroup_get?_self (gid : Nat) (s : State) : Tab.get? (removeGroup gid s).groups gid = none := by
  cases h : Tab.get? s.groups gid with
  | none => unfold removeGroup; rw [h]; exact h
  | some g =>
    rw [removeGroup_of_some h]
    exact (endWith_groupsLeft g _ (fun _ => False)).none (by rw [withoutGroup_groups, Tab.get?_del_self])

/-- Groups that end one after another are gone, and no other goes. -/
theorem foldl_removeGroup_groupsLeft (es : List (Nat × Group)) (s : State) :
    GroupsLeft (fun n => ∃ e ∈ es, e.1 = n) s (es.foldl (fun s e => removeGroup e.1 s) s) :=
  .foldl _ _ (fun s e he => (removeGroup_groupsLeft e.1 s).mono (fun _ hn => ⟨e, he, hn.symm⟩)) s

theorem foldl_removeGroup_get? (es : List (Nat × Group)) (s : State) {n : Nat} (h : ∃ e ∈ es, e.1 = n) :
    Tab.get? (es.foldl (fun s e => removeGroup e.1 s) s).groups n = none := by
  induction es generalizing s with
  | nil => obtain ⟨e, he, -⟩ := h; cases he
  | cons x t ih =>
    obtain ⟨e, he, rfl⟩ := h
    rcases List.mem_cons.1 he with rfl | he
    · exact (foldl_removeGroup_groupsLeft t _).none (removeGroup_get?_self e.1 s)
    · exact ih _ ⟨e, he, rfl⟩

/-- Of a team whose groups are dropped those go that the test names. -/
theorem dropGroups_groupsLeft (team : Nat) (p : Nat → Group → Bool) (s : State) :
    GroupsLeft (fun n => ∃ g, (n, g) ∈ s.groups ∧ g.team = team ∧ p n g = true) s (dropGroups team p s) := by
  refine (foldl_removeGroup_groupsLeft _ s).mono (fun n hn => ?_)
  obtain ⟨⟨m, g⟩, he, rfl⟩ := hn
  obtain ⟨hm, hp⟩ := List.mem_filter.1 he
  rw [Bool.and_eq_true, beq_iff_eq] at hp
  exact ⟨g, hm, hp⟩

theorem Tab.mem_of_get? {α : Type} {t : Tab α} {n : Nat} {x : α} (h : Tab.get? t n = some x) : (n, x) ∈ t := by
  induction t with
  | nil => cases h
  | cons e t ih =>
    obtain ⟨k, v⟩ := e
    rw [Tab.get?_cons] at h
    split at h
    · subst_vars; cases h; exact List.mem_cons_self
    · exact List.mem_cons_of_mem _ (ih h)

/-- A team of which every group is dropped has none left. -/
theorem dropGroups_team (team : Nat) (s : State) {n : Nat} {g : Group} (h : Tab.get? (dropGroups team (fun _ _ => true) s).groups n = some g) :
    g.team ≠ team := by
  intro hc
  obtain ⟨g0, hg0, he⟩ := (dropGroups_groupsLeft team (fun _ _ => true) s).team n g h
  have hmem : (n, g0) ∈ s.groups.filter (fun e => e.2.team == team && true) :=
    List.mem_filter.2 ⟨Tab.mem_of_get? hg0, by simp [← he, hc]⟩
  have hnone := foldl_removeGroup_get? _ s ⟨_, hmem, rfl⟩
  rw [dropGroups] at h
  rw [h] at hnone
  cases hnone

end Sys2Proof.Machine
end

section
/-! PROOF. How an issue ends (spec/10 R210 to R222): the outcome of an instruction that issues, by what its body answers, and a violation, which
freezes the group. -/

namespace Sys2Proof.Machine

open Says

/-! ### The outcome of an instruction that issues -/

/-- What becomes of an issue at a site from what the instruction's body answers. -/
def outcomeOf (at_ : Site) (s : State) (g : Group) : Res → State
  | .ok t => finishIssue at_ t
  | .trap c => finishIssue at_ (takeCause at_ c at_.lanes (s.setGroup at_.gid (poppedGroup s at_ g)))
  | .halt k lanes => haltGroup at_.gid 2 k lanes at_.pc s
  | .wait => s
  | .rail k => s.modCluster k (fun x => { x with railreq := true })

/-- No pop of an instruction that issues fails, waits, meets a comparator or finds a defective entry. -/
theorem IssuesForm.pops_done {f : Form} {p : Prefix} {s : State} {at_ : Site} {g : Group} (h : IssuesForm f p s at_ g) :
    (owedPops s at_ g).any popWaits = false ∧ (owedPops s at_ g).any popDefective = false
      ∧ (owedPops s at_ g).filterMap popTouch = [] ∧ (owedPops s at_ g).filterMap popFail = [] := by
  have hd : ∀ e ∈ owedPops s at_ g, popWaits e = false ∧ popDefective e = false ∧ popTouch e = none ∧ popFail e = none := by
    intro e he
    obtain ⟨t, ht⟩ := h.pops e he
    simp [popWaits, popDefective, popTouch, popFail, ht]
  refine ⟨?_, ?_, ?_, ?_⟩
  · rw [List.any_eq_false]; intro e he; simp [(hd e he).1]
  · rw [List.any_eq_false]; intro e he; simp [(hd e he).2.1]
  · rw [List.filterMap_eq_nil_iff]; exact fun e he => (hd e he).2.2.1
  · rw [List.filterMap_eq_nil_iff]; exact fun e he => (hd e he).2.2.2

/-- An instruction that issues ends as its body says. -/
theorem issueForm_outcome {f : Form} {p : Prefix} (body : Ctx → State → Res) {s : State} {at_ : Site} {g : Group} (h : IssuesForm f p s at_ g) :
    issueForm f p body s = .next (outcomeOf at_ s g (body (ctxForm f s at_ g) (issuedState s at_ g))) := by
  obtain ⟨hwait, hdef, htouch, hfail⟩ := h.pops_done
  have hpend : ((f.reads ++ f.writes).any (fun r => (pendingRegs (s.setGroup at_.gid (poppedGroup s at_ g)) at_.gid (poppedGroup s at_ g)).contains r)
      || loomHeld (s.setGroup at_.gid (poppedGroup s at_ g)) at_.gid (poppedGroup s at_ g).core) = false := by
    rw [pendingRegs_popped, Bool.or_eq_false_iff, List.any_eq_false]
    refine ⟨fun r hr hc => h.notPending r hr (by simpa using hc), ?_⟩
    rw [popped_eq]; exact h.notHeld
  have hdues : shortDues (poppedGroup s at_ g) f.reads = [] := by rw [popped_eq]; exact h.inTime
  have hbad : f.badLanes (s.setGroup at_.gid (poppedGroup s at_ g)) (poppedGroup s at_ g) (LaneSet.toList at_.lanes) = [] :=
    Form.badLanes_nil (by rw [popped_eq]; exact h.sound)
  have key : issueAt f at_ g none body s = outcomeOf at_ s g (body (ctxForm f s at_ g) (issuedState s at_ g)) := by
    unfold poppedGroup at hpend hdues hbad
    unfold issueAt
    simp only [h.halt, h.comparator, h.fetching, hfail, pickCause_nil, hdef, hwait, htouch, dataMatch_nil, hpend, hdues, shortValues_nil, hbad,
      List.isEmpty_nil, Bool.not_true, Bool.and_false, Bool.false_eq_true, if_false, Res.withPoison, if_true]
    change (match body (ctxForm f s at_ g) (issuedState s at_ g) with
      | .ok s' => _
      | .trap c => _
      | .halt k lanes => _
      | .wait => _
      | .rail k => _) = _
    cases body (ctxForm f s at_ g) (issuedState s at_ g) <;> rfl
  unfold issueForm
  rw [h.site]
  simp only [h.legal, key]

/-- An instruction that raises a cause takes it with its issue set (R217, R220). -/
theorem issue_traps {i : Instr} {p : Prefix} {body : Ctx → State → Res} {s : State} {at_ : Site} {g : Group} {c : Cause} (h : Issues i p s at_ g)
    (hb : body (ctxOf i s at_ g) (issuedState s at_ g) = .trap c) :
    issue i p body s = .next (finishIssue at_ (takeCause at_ c at_.lanes (s.setGroup at_.gid (poppedGroup s at_ g)))) := by
  have := issueForm_outcome body h
  rw [show body (ctxForm (formOf i) s at_ g) (issuedState s at_ g) = .trap c from hb] at this
  exact this

/-! ### Groups that freeze (R220 to R222) -/

theorem Tab.get?_of_mem {α : Type} {t : Tab α} {n : Nat} {x : α} (hs : Tab.sorted t = true) (h : (n, x) ∈ t) : Tab.get? t n = some x := by
  rw [Tab.sorted_iff] at hs
  induction t with
  | nil => cases h
  | cons e t ih =>
    obtain ⟨k, v⟩ := e
    obtain ⟨h1, h2⟩ := List.pairwise_cons.1 hs
    rw [Tab.get?_cons]
    rcases List.mem_cons.1 h with he | he
    · cases he; rw [if_pos rfl]
    · rw [if_neg (by have := h1 _ he; simp only at this; omega)]; exact ih h2 he

/-- A frozen group, which waits for nothing, in a table whose numbers rise. -/
structure FrozenIn (gid : Nat) (g : Group) (s : State) : Prop where
  sorted : Tab.sorted s.groups = true
  group : Tab.get? s.groups gid = some g
  frozen : g.frozen = true
  idle : g.blocks = []

theorem FrozenIn.step {gid : Nat} {g : Group} {s t : State} {gone : Nat → Prop} (h : FrozenIn gid g s) (k : GroupsLeft gone s t)
    (hn : ¬ gone gid) : FrozenIn gid g t :=
  ⟨k.sorted h.sorted, k.idle gid g hn h.group h.idle, h.frozen, h.idle⟩

/-- Groups dropped by a test that it fails leave it. -/
theorem FrozenIn.dropGroups {gid : Nat} {g : Group} {s : State} (h : FrozenIn gid g s) (team : Nat) (p : Nat → Group → Bool) (hp : p gid g = false) :
    FrozenIn gid g (dropGroups team p s) := by
  refine h.step (dropGroups_groupsLeft team p s) ?_
  rintro ⟨x, hx, -, hpx⟩
  have := h.group.symm.trans (Tab.get?_of_mem h.sorted hx)
  cases this
  rw [hp] at hpx
  cases hpx

/-- The end of every other task of a launch leaves it (R222). -/
theorem FrozenIn.foldl_dropGroups {gid : Nat} {g : Group} (team : Nat) (ts : List Nat) {s : State} (h : FrozenIn gid g s) :
    FrozenIn gid g (ts.foldl (fun s t => if t = team then s else Machine.dropGroups t (fun _ x => !x.frozen) s) s) := by
  induction ts generalizing s with
  | nil => exact h
  | cons t ts ih =>
    refine ih ?_
    dsimp only
    split
    · exact h
    · exact h.dropGroups t _ (by simp [h.frozen])

/-- The end of a task leaves its frozen group, whose waits are withdrawn. -/
theorem endTask_frozenIn {gid : Nat} {g : Group} {s : State} (hs : Tab.sorted s.groups = true) (hg : Tab.get? s.groups gid = some g)
    (hf : g.frozen = true) : FrozenIn gid { g with blocks := [] } (endTask gid g s) := by
  have h0 : (withdrawFe gid (withdrawBlocks g s)).groups = s.groups := (withdrawFe_groups _ _).trans (withdrawBlocks_groups _ _)
  have h1 : FrozenIn gid { g with blocks := [] } ((withdrawFe gid (withdrawBlocks g s)).modGroup gid (fun x => { x with blocks := [] })) := by
    refine ⟨?_, ?_, hf, rfl⟩
    · rw [State.modGroup_groups, h0]; exact Tab.sorted_modify _ _ hs
    · rw [State.modGroup_groups, h0, Tab.get?_modify_self, hg]; rfl
  have h2 := ((h1.step (abortTx_groupsLeft g.team _ (fun _ => False)) id).step (gone := fun _ => False)
    (t := clearTags g.team (keepDigest g.team (abortTx g.team _))) (.of_eq rfl) id).dropGroups g.team (fun n _ => n != gid) (by simp)
  unfold endTask
  dsimp only
  split
  · exact FrozenIn.foldl_dropGroups g.team _ (h2.step (gone := fun _ => False) (.of_eq rfl) id)
  · exact h2.step (gone := fun _ => False) (.of_eq rfl) id

/-- A group as its freezing leaves it (R220): its trap registers written, and nothing of it in progress. -/
def frozenGroup (at_ : Site) (code detail : Nat) (lanes : LaneSet) (addr : DWord) (g : Group) : Group :=
  { g with
    dues := [], trapcause := causeBits code detail at_.pfx.isSome, traplanes := lanes, trapaddr := addr, trapword := at_.word,
    trapf := trapF at_.pfx at_.word, trappc := at_.pc, frozen := true, halted := false, cur := 0#64, preempt := none, append := none, blocks := [] }

/-- A group that freezes stands with the cause, and the end of its task leaves it. -/
theorem freeze_frozenIn {at_ : Site} {s : State} {g : Group} (code detail : Nat) (lanes : LaneSet) (addr : DWord) (hs : Tab.sorted s.groups = true)
    (hg : Tab.get? s.groups at_.gid = some g) (hf : g.frozen = false) :
    FrozenIn at_.gid (frozenGroup at_ code detail lanes addr g) (freeze at_ code detail lanes addr s) := by
  unfold freeze
  rw [hg]
  simp only [hf, Bool.false_eq_true, if_false]
  exact (endTask_frozenIn (g := { frozenGroup at_ code detail lanes addr g with blocks := g.blocks }) (Tab.sorted_put _ _ hs)
    (Tab.get?_put_self _ _ _) rfl).step (faultRecord_groupsLeft _ _ _ (fun _ => False)) id

/-- A frozen group is left as it is by the end of its issue. -/
theorem finishIssue_of_frozen {at_ : Site} {s : State} {g : Group} (hg : Tab.get? s.groups at_.gid = some g) (hf : g.frozen = true) :
    finishIssue at_ s = s := by
  unfold finishIssue
  rw [hg]
  simp only [hf, if_true]

/-- A violation freezes the group that issues, where the numbers of the groups rise (R213, R220). -/
theorem issue_freezes {i : Instr} {p : Prefix} {body : Ctx → State → Res} {s : State} {at_ : Site} {g : Group} {c : Cause} (h : Issues i p s at_ g)
    (hs : Tab.sorted s.groups = true) (hb : body (ctxOf i s at_ g) (issuedState s at_ g) = .trap c) (hu : c.why.user = false) :
    ∃ t, issue i p body s = .next t ∧ Froze at_ g c.why.code c.detail c.lanes c.addr t := by
  obtain ⟨hg, -, -, -, hf, -⟩ := siteOf_spec h.site
  have hp : Tab.get? (s.setGroup at_.gid (poppedGroup s at_ g)).groups at_.gid = some (poppedGroup s at_ g) := Tab.get?_put_self _ _ _
  have hpf : (poppedGroup s at_ g).frozen = false := by rw [popped_eq]; exact hf
  have htake : takeCause at_ c at_.lanes (s.setGroup at_.gid (poppedGroup s at_ g))
      = freeze at_ c.why.code c.detail c.lanes c.addr (s.setGroup at_.gid (poppedGroup s at_ g)) := by
    unfold takeCause
    rw [hp]
    simp [hpf, hu]
  have hfr := freeze_frozenIn c.why.code c.detail c.lanes c.addr (Tab.sorted_put _ _ hs) hp hpf
  refine ⟨_, issue_traps h hb, ?_⟩
  rw [htake, finishIssue_of_frozen hfr.group rfl]
  refine ⟨_, hfr.group, rfl, rfl, rfl, rfl, rfl, rfl, rfl, fun l r => ?_, fun l hl => ?_⟩
  · have := (sameRegs_popped s at_ g).regs l r
    cases r <;> exact this
  · have : (frozenGroup at_ c.why.code c.detail c.lanes c.addr (poppedGroup s at_ g)).thread l = g.thread l :=
      (popped_threads s at_ g l).1 (.inl hl)
    rw [this]
    exact ⟨KeepsStack.refl _, rfl⟩

end Sys2Proof.Machine
end

section
/-! PROOF. YIELD (spec/01 R25, spec/08 R154, R176). -/

namespace Sys2Proof.Machine

open Says

/-! ### Runnable threads and the choice of an issue set (R15, R16, R25) -/

theorem Group.mem_lanesWhere (g : Group) (p : Nat → Thread → Bool) (l : Nat) :
    l ∈ g.lanesWhere p ↔ l < g.threads.length ∧ p l (g.thread l) = true := by
  have hmem : ∀ e, e ∈ listMapIdx (fun l t => (l, p l t)) 0 g.threads ↔ ∃ t, g.threads[e.1]? = some t ∧ e.2 = p e.1 t := by
    intro e
    rw [List.mem_iff_getElem?]
    simp only [listMapIdx_getElem?, Nat.zero_add, Option.map_eq_some_iff]
    constructor
    · rintro ⟨k, t, ht, rfl⟩; exact ⟨t, ht, rfl⟩
    · rintro ⟨t, ht, he⟩; exact ⟨e.1, t, ht, Prod.ext rfl he.symm⟩
  rw [Group.lanesWhere, List.mem_filterMap]
  simp only [hmem, Group.thread, List.getD_eq_getElem?_getD]
  constructor
  · rintro ⟨e, ⟨t, ht, he⟩, hl⟩
    split at hl
    next hp =>
      cases hl
      obtain ⟨hk, -⟩ := List.getElem?_eq_some_iff.1 ht
      exact ⟨hk, by rw [ht, Option.getD_some, ← he]; exact hp⟩
    next => cases hl
  · rintro ⟨hl, hp⟩
    refine ⟨(l, true), ⟨g.threads[l], List.getElem?_eq_getElem hl, ?_⟩, rfl⟩
    rw [List.getElem?_eq_getElem hl] at hp
    exact hp.symm

/-- The group after the meetings whose carriers all stand there are released (R16). -/
def Group.released (g : Group) : Group := { g with threads := releaseMeetings g.threads }

theorem Group.released_length (g : Group) : g.released.threads.length = g.threads.length := by simp [Group.released, releaseMeetings]

/-- A choice in two cases (R16, R25): where a thread may run, a set is picked, and where none may, the YIELDs of the group end before. -/
theorem Group.choose_eq_released (g : Group) :
    g.choose = if (g.released.lanesWhere g.released.runnable).isEmpty then g.released.endYields.released.pick else g.released.pick := rfl

/-- The release of meetings keeps stacks, PCs and waits. -/
theorem Group.released_thread (g : Group) (l : Nat) :
    KeepsStack (g.thread l) (g.released.thread l) ∧ (g.released.thread l).pc = (g.thread l).pc ∧ (g.released.thread l).wait = (g.thread l).wait := by
  have h : Chosen { g with blocks := [] } ({ g with blocks := [] } : Group).released := chosen_release _
  exact ⟨h.calls l, h.pcs l (fun e he => by cases he)⟩

theorem Group.pick_thread (g : Group) (l : Nat) : g.pick.thread l = g.thread l := by rw [Group.pick_eq]; rfl

/-- A thread in no meeting that may run is one of the runnable threads of its group, meetings released. -/
theorem Group.released_runnable {g : Group} {l : Nat} (hl : l < g.threads.length) (hh : g.handler = false) (hlive : (g.thread l).live = true)
    (hm : (g.thread l).meet = noMeeting) (hw : (g.thread l).wait = .run) : l ∈ g.released.lanesWhere g.released.runnable := by
  obtain ⟨hk, -, hkw⟩ := g.released_thread l
  have hmeet : (g.released.thread l).meet = noMeeting := by
    rcases hk.meet with h | ⟨-, h⟩
    · exact h.trans hm
    · exact h
  rw [Group.mem_lanesWhere, Group.released_length]
  refine ⟨hl, ?_⟩
  simp [Group.runnable, Thread.held, hk.live, hlive, hmeet, hkw, hw, show g.released.handler = false from hh]

/-- Where a thread in no meeting may run, a choice keeps PCs and waits, and no YIELD ends (R25). -/
theorem Group.choose_of_runnable {g : Group} {l : Nat} (hl : l < g.threads.length) (hh : g.handler = false) (hlive : (g.thread l).live = true)
    (hm : (g.thread l).meet = noMeeting) (hw : (g.thread l).wait = .run) :
    g.choose.blocks = g.blocks ∧ ∀ k, KeepsStack (g.thread k) (g.choose.thread k) ∧ (g.choose.thread k).pc = (g.thread k).pc
      ∧ (g.choose.thread k).wait = (g.thread k).wait := by
  have hne : (g.released.lanesWhere g.released.runnable).isEmpty = false := by
    rw [List.isEmpty_eq_false_iff]
    exact List.ne_nil_of_mem (Group.released_runnable hl hh hlive hm hw)
  have hc : g.choose = g.released.pick := by rw [Group.choose_eq_released, hne]; rfl
  rw [hc]
  refine ⟨by rw [Group.pick_eq]; rfl, fun k => ?_⟩
  rw [Group.pick_thread]
  exact g.released_thread k

/-- Where no thread may run, the YIELDs of the group end before it picks a set (R25). -/
theorem Group.choose_of_none_runnable {g : Group} (h : ∀ l, l < g.threads.length → (g.thread l).wait ≠ .run) :
    g.choose = g.released.endYields.released.pick := by
  have he : g.released.lanesWhere g.released.runnable = [] := by
    refine List.eq_nil_iff_forall_not_mem.2 (fun l hm => ?_)
    obtain ⟨hl, hr⟩ := (Group.mem_lanesWhere _ _ _).1 hm
    simp only [Group.runnable, Bool.and_eq_true, beq_iff_eq] at hr
    exact h l (by rwa [Group.released_length] at hl) ((g.released_thread l).2.2.symm.trans hr.1.2)
  rw [Group.choose_eq_released, he]
  rfl

/-! ### YIELDs that end (R25) -/

/-- A thread of a blocked issue set goes on behind its instruction as the set ends. -/
theorem Group.thread_unblock_eq (g : Group) (id l : Nat) {b : Block} (hb : Tab.get? g.blocks id = some b) :
    (g.unblock id).thread l = if (g.thread l).wait = .block id then { g.thread l with wait := .run, pc := b.next } else g.thread l := by
  unfold Group.unblock
  rw [hb]
  exact thread_map (g := g) (fun t => if t.wait = .block id then { t with wait := .run, pc := b.next } else t) (by simp [Thread.start]) rfl l

/-- A thread that waits at no block runs on as blocks end. -/
theorem Group.foldl_unblock_of_run (es : List (Nat × Block)) {g : Group} {l : Nat} (hw : (g.thread l).wait = .run) :
    (es.foldl (fun x e => x.unblock e.1) g).thread l = g.thread l := by
  induction es generalizing g with
  | nil => rfl
  | cons e es ih =>
    have h : (g.unblock e.1).thread l = g.thread l := by
      cases hb : Tab.get? g.blocks e.1 with
      | none => simp [Group.unblock, hb]
      | some b => rw [Group.thread_unblock_eq g e.1 l hb, if_neg (by rw [hw]; exact Wait.noConfusion)]
    rw [List.foldl_cons, ih (by rw [h]; exact hw), h]

/-- The end of another blocked issue set leaves a thread and its block. -/
theorem Group.unblock_other {g : Group} {id k l : Nat} (h : k ≠ id) (hw : (g.thread l).wait = .block id) :
    (g.unblock k).thread l = g.thread l ∧ Tab.get? (g.unblock k).blocks id = Tab.get? g.blocks id := by
  cases hb : Tab.get? g.blocks k with
  | none => simp [Group.unblock, hb]
  | some b =>
    constructor
    · rw [Group.thread_unblock_eq g k l hb, if_neg (by rw [hw]; simp [h.symm])]
    · simp only [Group.unblock, hb]
      exact Tab.get?_del_ne _ h.symm

/-- A thread that waits at one of the blocks that end, one after another, goes on behind its instruction. -/
theorem Group.foldl_unblock_thread {id l : Nat} {b : Block} (es : List (Nat × Block)) {g : Group} (hb : Tab.get? g.blocks id = some b)
    (hw : (g.thread l).wait = .block id) (he : ∃ e ∈ es, e.1 = id) :
    ((es.foldl (fun x e => x.unblock e.1) g).thread l).wait = .run ∧ ((es.foldl (fun x e => x.unblock e.1) g).thread l).pc = b.next := by
  induction es generalizing g with
  | nil => obtain ⟨e, he, -⟩ := he; cases he
  | cons x es ih =>
    rw [List.foldl_cons]
    by_cases hx : x.1 = id
    · have ht : (g.unblock x.1).thread l = { g.thread l with wait := .run, pc := b.next } := by
        rw [hx, Group.thread_unblock_eq g id l hb, if_pos hw]
      rw [Group.foldl_unblock_of_run es (by rw [ht]), ht]
      exact ⟨rfl, rfl⟩
    · obtain ⟨ht, hbl⟩ := Group.unblock_other hx hw
      obtain ⟨e, hm, rfl⟩ := he
      rcases List.mem_cons.1 hm with rfl | hm
      · exact absurd rfl hx
      · exact ih (hbl.trans hb) (by rw [ht]; exact hw) ⟨e, hm, rfl⟩

/-- A thread that a YIELD holds goes on behind it as the YIELDs of its group end. -/
theorem Group.endYields_thread {g : Group} {id l : Nat} {b : Block} (hp : g.preempt = none) (hh : g.handler = false)
    (hb : Tab.get? g.blocks id = some b) (hk : b.kind = .yield) (hw : (g.thread l).wait = .block id) :
    (g.endYields.thread l).wait = .run ∧ (g.endYields.thread l).pc = b.next := by
  have he : ∃ e ∈ g.blocks.filter (fun e => e.2.kind == .yield), e.1 = id :=
    ⟨(id, b), List.mem_filter.2 ⟨Tab.mem_of_get? hb, by simp [hk]⟩, rfl⟩
  have h := Group.foldl_unblock_thread _ hb hw he
  simpa only [Group.endYields, hp, hh, Option.isSome_none, Bool.or_self, Bool.false_eq_true, if_false] using h

/-! ### What the end of an issue leaves of threads and blocks -/

/-- A halt changes no thread and no block of its group. -/
theorem haltGroup_threads (gid reason comp : Nat) (lanes : LaneSet) (pc : DWord) (s : State) {g : Group} (hg : Tab.get? s.groups gid = some g) :
    ∃ g', Tab.get? (haltGroup gid reason comp lanes pc s).groups gid = some g' ∧ g'.threads = g.threads ∧ g'.blocks = g.blocks := by
  unfold haltGroup
  rw [hg]
  dsimp only
  split
  · exact ⟨g, hg, rfl, rfl⟩
  · exact ⟨_, Tab.get?_put_self _ _ _, rfl, rfl⟩

theorem stepHalt_threads (gid : Nat) (s : State) {g : Group} (hg : Tab.get? s.groups gid = some g) :
    ∃ g', Tab.get? (stepHalt gid s).groups gid = some g' ∧ g'.threads = g.threads ∧ g'.blocks = g.blocks := by
  unfold stepHalt
  rw [hg]
  dsimp only
  split
  · obtain ⟨g', hg', ht, hb⟩ := haltGroup_threads gid 3 0 g.cur g.nextPc s hg
    split
    · refine ⟨askTeamHalt g.team gid gid g', ?_, ?_⟩
      · rw [Tab.get?_mapVal _ (askTeamHalt g.team gid), hg']; rfl
      · simp [askTeamHalt, ht, hb]
    · exact ⟨g', hg', ht, hb⟩
  · exact ⟨g, hg, rfl, rfl⟩

/-- The end of an issue leaves the threads and blocks of its group as the choice of the next issue set does. -/
theorem finishIssue_threads (at_ : Site) (s : State) {g : Group} (hg : Tab.get? s.groups at_.gid = some g) (hf : g.frozen = false) :
    ∃ g', Tab.get? (finishIssue at_ s).groups at_.gid = some g'
      ∧ g'.threads = (g.passed s.time at_.next (at_.word.extractLsb' 29 2).toNat).threads
      ∧ g'.blocks = (g.passed s.time at_.next (at_.word.extractLsb' 29 2).toNat).blocks := by
  unfold finishIssue
  rw [hg]
  simp only [hf, Bool.false_eq_true, if_false]
  split
  · exact ⟨_, Tab.get?_put_self _ _ _, rfl, rfl⟩
  · exact stepHalt_threads at_.gid _ (Tab.get?_put_self _ _ _)

/-- As an instruction has issued, its group chooses with its threads and blocks as they are. -/
theorem Group.passed_eq_choose (g : Group) (time : Nat) (next : DWord) (stall : Nat) :
    ∃ x : Group, g.passed time next stall = x.choose ∧ x.threads = g.threads ∧ x.blocks = g.blocks ∧ x.handler = g.handler ∧ x.preempt = g.preempt :=
  ⟨_, rfl, rfl, rfl, rfl, rfl⟩

theorem Group.thread_congr {a b : Group} (h : a.threads = b.threads) (l : Nat) : a.thread l = b.thread l := by rw [Group.thread, h]; rfl

/-! ### YIELD -/

/-- A blocked issue set keeps every register of its group (R66). -/
theorem sameRegs_block (g : Group) (id : Nat) (lanes : LaneSet) (pc next : DWord) (kind : BlockKind) : SameRegs g (g.block id lanes pc next kind) := by
  have hth : ∀ l, (g.block id lanes pc next kind).thread l
      = (g.modLanes lanes (fun _ t => { t with wait := .block id, pc := pc })).thread l := fun _ => rfl
  refine ⟨fun l r => ?_, rfl, fun l => ?_, listMapIdx_length _ _ _⟩
  · have := Group.reg_modLanes g lanes (fun _ t => { t with wait := .block id, pc := pc }) (fun _ _ => rfl) l r
    cases r <;> exact this
  · rw [hth, Group.thread_modLanes]
    split <;> rfl

theorem exec_yield (st : BitVec 2) (s : State) : exec (.yield st) s = execYield st s := rfl

/-- The state in which the issue set of a YIELD stands blocked at it, before the next set is chosen. -/
def yielded (s : State) (at_ : Site) (g : Group) : State :=
  { (issuedState s at_ g).modGroup at_.gid (fun x => x.block s.uid at_.lanes at_.pc at_.next .yield) with uid := s.uid + 1 }

/-- The group that issues a YIELD as it stands blocked: nothing else of it has changed. -/
structure Yielding (s : State) (at_ : Site) (g y : Group) : Prop where
  same : SameRegs g y
  frozen : y.frozen = false
  handler : y.handler = g.handler
  preempt : y.preempt = g.preempt
  blocks : y.blocks = Tab.put g.blocks s.uid { lanes := at_.lanes, next := at_.next, kind := .yield }
  others : ∀ l, at_.lanes.has l = false → y.thread l = g.thread l
  issuers : ∀ l, at_.lanes.has l = true → (y.thread l).wait = .block s.uid ∧ (y.thread l).pc = at_.pc

theorem yielded_spec {s : State} {w : Word} {p : Prefix} {at_ : Site} {g : Group} (h : siteOf s w p = some (at_, g)) :
    ∃ y, Tab.get? (yielded s at_ g).groups at_.gid = some y ∧ Yielding s at_ g y := by
  obtain ⟨-, -, -, -, hf, -, -, -, hlen⟩ := siteOf_spec h
  obtain ⟨-, g1, hg1, hi⟩ := issuedState_spec s at_ g hlen
  have he : g1 = (poppedGroup s at_ g).modLanes at_.lanes (fun _ t => { t with pc := at_.next }) := by
    have : Tab.get? (issuedState s at_ g).groups at_.gid = some ((poppedGroup s at_ g).modLanes at_.lanes (fun _ t => { t with pc := at_.next })) := by
      simp [issuedState, advance]
    exact Option.some.inj (hg1.symm.trans this)
  have hth : ∀ l, (g1.block s.uid at_.lanes at_.pc at_.next .yield).thread l
      = if at_.lanes.has l ∧ l < g1.threads.length then { g1.thread l with wait := .block s.uid, pc := at_.pc } else g1.thread l :=
    fun l => Group.thread_modLanes g1 at_.lanes (fun _ t => { t with wait := .block s.uid, pc := at_.pc }) l
  refine ⟨g1.block s.uid at_.lanes at_.pc at_.next .yield, ?_, hi.same.trans (sameRegs_block _ _ _ _ _ _), ?_, ?_, ?_, ?_, fun l hl => ?_, fun l hl => ?_⟩
  · exact (Tab.get?_modify_self _ _ _).trans (by rw [hg1]; rfl)
  · rw [he, popped_eq]; exact hf
  · rw [he, popped_eq]; rfl
  · rw [he, popped_eq]; rfl
  · exact congrArg (Tab.put · s.uid _) hi.blocks
  · rw [hth, if_neg (by simp [hl])]; exact hi.kept l hl
  · rw [hth, if_pos ⟨hl, by rw [hi.same.length]; exact hlen l hl⟩]; exact ⟨rfl, rfl⟩

/-- Outside a handler a YIELD blocks its issue set, and the group chooses its next. -/
theorem yield_completes {st : BitVec 2} {s : State} {at_ : Site} {g : Group} (h : Issues (.yield st) none s at_ g) (hh : g.handler = false) :
    exec (.yield st) s = .next (finishIssue at_ (yielded s at_ g)) := by
  refine (exec_yield st s).trans (issue_completes h ?_)
  have hp : (ctxOf (.yield st) s at_ g).g.handler = false := (congrArg Group.handler (popped_eq s at_ g)).trans hh
  simp only [hp, Bool.false_eq_true, if_false]
  rfl

theorem SameOutside.withUid {gid : Nat} {a b : State} (h : SameOutside gid a b) (n : Nat) : SameOutside gid { a with uid := n } { b with uid := n } :=
  ⟨congrArg (fun x : State => { x with uid := n }) h.rest, h.cores, h.groups⟩

/-- A YIELD changes nothing but its own group's grouping, and takes the next number for its block. -/
theorem yield_follows {s : State} {w : Word} {p : Prefix} {at_ : Site} {g y g' : Group} (hsite : siteOf s w p = some (at_, g))
    (hy : Tab.get? (yielded s at_ g).groups at_.gid = some y) (hyg : Yielding s at_ g y)
    (hg' : Tab.get? (finishIssue at_ (yielded s at_ g)).groups at_.gid = some g') (ho : OthersKept at_.lanes g g') :
    Follows at_ { s with uid := s.uid + 1 } (finishIssue at_ (yielded s at_ g)) := by
  have hg := (siteOf_spec hsite).1
  obtain ⟨hout, x, hx, hr, -⟩ := finishIssue_spec at_ (yielded s at_ g) hy
  cases hg'.symm.trans hx
  have hsame := hyg.same.trans hr
  obtain ⟨-, -, -, -, -, -, -, -, hlen⟩ := siteOf_spec hsite
  have hout1 : SameOutside at_.gid { s with uid := s.uid + 1 } (yielded s at_ g) :=
    ((issuedState_spec s at_ g hlen).1.trans (sameOutside_modGroup _ _ _)).withUid _
  exact ⟨hout1.trans hout, fun l r => sameRegs_state (s := { s with uid := s.uid + 1 }) hg hg' hsame l r,
    ⟨g, g', hg, hg', hsame.specials, hsame.budgets⟩, g, g', hg, hg', ho⟩

/-- A YIELD blocks its issue set while a thread in no meeting may run (R25, R176). -/
theorem yield_blocks {st : BitVec 2} {s : State} {at_ : Site} {g : Group} (h : Issues (.yield st) none s at_ g) (hh : g.handler = false)
    (hid : Tab.get? g.blocks s.uid = none) {l : Nat} (hl : l < g.threads.length) (hn : at_.lanes.has l = false) (hlive : (g.thread l).live = true)
    (hm : (g.thread l).meet = noMeeting) (hw : (g.thread l).wait = .run) :
    ∃ t, exec (.yield st) s = .next t ∧ BlockedAt at_ s.uid (fun k => k = .yield) t ∧ Follows at_ { s with uid := s.uid + 1 } t := by
  obtain ⟨hg, -⟩ := siteOf_spec h.site
  obtain ⟨y, hy, hyg⟩ := yielded_spec h.site
  obtain ⟨g', hg', hth, hbl⟩ := finishIssue_threads at_ _ hy hyg.frozen
  obtain ⟨x, hx, hxt, hxb, hxh, -⟩ := y.passed_eq_choose (yielded s at_ g).time at_.next (at_.word.extractLsb' 29 2).toNat
  rw [hx] at hth hbl
  have hxy : ∀ k, x.thread k = y.thread k := Group.thread_congr hxt
  have hxl : x.thread l = g.thread l := (hxy l).trans (hyg.others l hn)
  obtain ⟨hcb, hct⟩ := Group.choose_of_runnable (g := x) (l := l) (by rw [hxt, hyg.same.length]; exact hl) (hxh.trans (hyg.handler.trans hh))
    (hxl ▸ hlive) (hxl ▸ hm) (hxl ▸ hw)
  have hkept : ∀ k, KeepsStack (y.thread k) (g'.thread k) ∧ (g'.thread k).pc = (y.thread k).pc ∧ (g'.thread k).wait = (y.thread k).wait := by
    intro k
    rw [Group.thread_congr hth, ← hxy k]
    exact hct k
  have hblocks : g'.blocks = Tab.put g.blocks s.uid { lanes := at_.lanes, next := at_.next, kind := .yield } :=
    hbl.trans (hcb.trans (hxb.trans hyg.blocks))
  refine ⟨_, yield_completes h hh, ⟨g', { lanes := at_.lanes, next := at_.next, kind := .yield }, hg', ?_, rfl, rfl, rfl, fun k hk => ?_⟩,
    yield_follows h.site hy hyg hg' ⟨fun k hk => ?_, fun k hk _ => ?_, fun n b hb _ => ?_⟩⟩
  · rw [hblocks, Tab.get?_put_self]
  · exact ⟨(hkept k).2.2.trans (hyg.issuers k hk).1, (hkept k).2.1.trans (hyg.issuers k hk).2⟩
  · exact hyg.others k hk ▸ (hkept k).1
  · exact hyg.others k hk ▸ (hkept k).2
  · have hne : n ≠ s.uid := fun hc => by rw [hc, hid] at hb; cases hb
    rw [hblocks, Tab.get?_put_ne _ _ hne, hb]

/-- Where a choice may end the YIELDs of a group, the one just issued among them, its other threads and blocks are kept. -/
theorem yield_othersKept {s : State} {at_ : Site} {g y g' : Group} (hyg : Yielding s at_ g y) (hc : Chosen y g') (hid : Tab.get? g.blocks s.uid = none)
    (hw : ∀ l, l < g.threads.length → at_.lanes.has l = false → (g.thread l).wait ≠ .run ∧ (g.thread l).wait ≠ .block s.uid) :
    OthersKept at_.lanes g g' := by
  have hnew : ∀ l, at_.lanes.has l = false → (g.thread l).wait ≠ .block s.uid := by
    intro l hl
    by_cases hlen : l < g.threads.length
    · exact (hw l hlen hl).2
    · rw [Group.thread, List.getD_eq_default _ _ (Nat.le_of_not_lt hlen)]
      exact Wait.noConfusion
  have hyields : ∀ {P : Nat → Prop}, P s.uid → (∀ e ∈ g.blocks, e.2.kind = .yield → P e.1) → ∀ e ∈ y.blocks, e.2.kind = .yield → P e.1 := by
    intro P h0 h1 e he hk
    rw [hyg.blocks] at he
    rcases Tab.mem_put he with rfl | he
    · exact h0
    · exact h1 e he hk
  refine ⟨fun l hl => ?_, fun l hl hy => ?_, fun n b hb hn => ?_⟩
  · exact hyg.others l hl ▸ hc.calls l
  · have := hc.pcs l (hyields (P := fun k => (y.thread l).wait ≠ .block k) (by rw [hyg.others l hl]; exact hnew l hl)
      (fun e he hk => by rw [hyg.others l hl]; exact hy e he hk))
    rwa [hyg.others l hl] at this
  · have hne : n ≠ s.uid := fun he => by rw [he, hid] at hb; cases hb
    refine hc.blocks n b (by rw [hyg.blocks, Tab.get?_put_ne _ _ hne, hb]) (hyields (P := fun k => k ≠ n) hne.symm hn)

/-- A YIELD passes where no other thread of its group may run and no pre-emption waits (R25, R176). -/
theorem yield_passes {st : BitVec 2} {s : State} {at_ : Site} {g : Group} (h : Issues (.yield st) none s at_ g) (hh : g.handler = false)
    (hid : Tab.get? g.blocks s.uid = none) (hp : g.preempt = none)
    (hw : ∀ l, l < g.threads.length → at_.lanes.has l = false → (g.thread l).wait ≠ .run ∧ (g.thread l).wait ≠ .block s.uid) :
    ∃ t, exec (.yield st) s = .next t ∧ Follows at_ { s with uid := s.uid + 1 } t
      ∧ ∃ g', Tab.get? t.groups at_.gid = some g' ∧ ∀ l, at_.lanes.has l = true → (g'.thread l).wait = .run ∧ (g'.thread l).pc = at_.next := by
  obtain ⟨y, hy, hyg⟩ := yielded_spec h.site
  obtain ⟨g', hg', hth, -⟩ := finishIssue_threads at_ _ hy hyg.frozen
  obtain ⟨-, g2, hg2, -, hc⟩ := finishIssue_spec at_ _ hy
  cases hg'.symm.trans hg2
  obtain ⟨x, hx, hxt, hxb, hxh, hxp⟩ := y.passed_eq_choose (yielded s at_ g).time at_.next (at_.word.extractLsb' 29 2).toNat
  have hxy : ∀ k, x.thread k = y.thread k := Group.thread_congr hxt
  have hidle : ∀ l, l < x.threads.length → (x.thread l).wait ≠ .run := by
    intro l hl
    rw [hxt, hyg.same.length] at hl
    rw [hxy]
    cases hlanes : at_.lanes.has l with
    | true => rw [(hyg.issuers l hlanes).1]; exact Wait.noConfusion
    | false => rw [hyg.others l hlanes]; exact (hw l hl hlanes).1
  rw [hx, Group.choose_of_none_runnable hidle] at hth
  refine ⟨_, yield_completes h hh, yield_follows h.site hy hyg hg' ?_, g', hg', fun l hl => ?_⟩
  · exact yield_othersKept hyg hc hid hw
  · have hr := x.released_thread l
    have hend := Group.endYields_thread (g := x.released) (l := l) (hxp.trans (hyg.preempt.trans hp)) (hxh.trans (hyg.handler.trans hh))
      (by rw [show x.released.blocks = x.blocks from rfl, hxb, hyg.blocks, Tab.get?_put_self]) rfl
      (hr.2.2.trans ((congrArg Thread.wait (hxy l)).trans (hyg.issuers l hl).1))
    obtain ⟨-, hpc, hwait⟩ := x.released.endYields.released_thread l
    rw [Group.thread_congr hth, Group.pick_thread]
    exact ⟨hwait.trans hend.1, hpc.trans hend.2⟩

/-- In a handler a YIELD freezes the group with handler_block, where the numbers of the groups rise (R154). -/
theorem yield_freezes {st : BitVec 2} {s : State} {at_ : Site} {g : Group} (h : Issues (.yield st) none s at_ g) (hs : Tab.sorted s.groups = true)
    (hh : g.handler = true) : ∃ t, exec (.yield st) s = .next t ∧ Froze at_ g 0x24 0 at_.lanes 0#64 t := by
  have hp : (ctxOf (.yield st) s at_ g).g.handler = true := (congrArg Group.handler (popped_eq s at_ g)).trans hh
  exact issue_freezes (c := { why := .handlerBlock, detail := 0, lanes := at_.lanes, addr := 0#64 }) h hs (by simp only [hp, if_true]; rfl) rfl

/-! ### A number that names two groups -/

/-- A group of one thread at 0x1_0000 in an open handler, on core 0, slot 0. -/
def handlerGroup (team : Nat) : Group :=
  { launch := 1, team := team, gid := 0, width := 16, vregs := 112, gregs := 64, place := .resident 0 0, seat := 0, vrow := 0, vcol := 0, grow := 0,
    threads := [Thread.start 0x10000#64 true], g := [], rot := 0, cur := 1#64, cycle := 0, dues := [], trapvec := 0x18000#64, trapcause := 0,
    handler := true, entered := 0x0C, traplanes := 1#64, trappc := 0x10000#64, trapword := 0, trapf := 0, trapaddr := 0, hset := 1#64,
    stallchk := false, keyperm := 0, srkey := 0, frozen := false, halted := false, resumed := false, teamhalt := false, preempt := none, blocks := [],
    append := none, residentSince := 0, readySince := 0, starved := false }

/-- Number 1 names a group of team 1 and another of team 2, both of a launch that ends whole with one task (AOF, card bit 83). -/
def twiceNamed : State :=
  { State.reset with
    launches := [(1, { Launch.empty with card := BitVec.ofNat 1024 (2 ^ 83) })]
    teams := [(1, { Team.empty with launch := 1 }), (2, { Team.empty with launch := 1 })]
    groups := [(1, handlerGroup 1), (1, handlerGroup 2)], turn := 1 }

/-- Where the YIELD of group 1 stands. -/
def twiceSite : Site := { gid := 1, lanes := 1#64, pc := 0x10000#64, next := 0x10004#64, word := wordOf (.yield 0#2), pfx := none }

theorem twiceNamed_issues : Issues (.yield 0#2) none twiceNamed twiceSite (handlerGroup 1) where
  site := by decide
  halt := by decide
  comparator := by decide
  fetching := by decide
  pops := fun e he => by cases he
  legal := by decide
  notPending := by decide
  notHeld := by decide
  inTime := by decide
  sound := by decide

/-- After an outcome a number names no group. -/
def goneAfter (gid : Nat) : Host.Outcome State Fault Refusal → Bool
  | .next t => (Tab.get? t.groups gid).isNone
  | _ => false

/-- The end of the other task takes the frozen group's number from the table. -/
theorem twiceNamed_gone : goneAfter 1 (exec (.yield 0#2) twiceNamed) = true := by decide +kernel

/-- Refutes O32: of two groups of one number the end of the other's task (R222, AOF) removes both, so that the group that YIELD froze does not stand.
The other two clauses hold of every state (`yield_blocks`, `yield_passes`), and this one where the numbers of the groups rise (`yield_freezes`). -/
theorem not_yieldLetsOthersRun : ¬ Obligations.YieldLetsOthersRun := by
  intro h
  obtain ⟨t, ht, hfroze⟩ := h.1 0#2 twiceNamed twiceSite (handlerGroup 1) twiceNamed_issues rfl
  obtain ⟨g', hg', -⟩ := hfroze.group
  have hgone := twiceNamed_gone
  rw [ht, goneAfter, show Tab.get? t.groups 1 = some g' from hg'] at hgone
  cases hgone

end Sys2Proof.Machine
end

section
/-! PROOF. What the ends of waits, transactions and groups leave of the launches and of the assay table (spec/16 R325, R328, R329). -/

namespace Sys2Proof.Machine

/-- The launches and the assay table. -/
def ledger (s : State) : Tab Launch × Tab (List AssayWay) := (s.launches, s.assay)

theorem freeWatch_ledger (l : Nat) (w : Watch) (s : State) : ledger (freeWatch l w s) = ledger s := by rw [freeWatch_eq]; rfl

theorem foldl_freeWatch_ledger (launch : Nat) (es : List WaitEntry) (s : State) :
    ledger (es.foldl (fun s e => freeWatch launch e.watch s) s) = ledger s :=
  foldl_keeps ledger (fun s (e : WaitEntry) => freeWatch launch e.watch s) (fun s e => freeWatch_ledger launch e.watch s) es s

theorem waitReads_ledger (gid core : Nat) (lanes : LaneSet) (es : List WaitEntry) (s : State) :
    ledger (waitReads gid core lanes es s) = ledger s := by
  unfold waitReads
  dsimp only
  split
  · rfl
  · rw [foldl_dropAll_eq core WaitEntry.pa]; rfl

theorem finishWait_ledger (gid id : Nat) (r : Word) (s : State) : ledger (finishWait gid id r s) = ledger s := by
  unfold finishWait
  split
  · rfl
  split
  · rfl
  split
  · split
    · rfl
    · exact (waitReads_ledger _ _ _ _ _).trans (foldl_freeWatch_ledger _ _ s)
  · rfl

theorem retryWait_ledger (gid id : Nat) (s : State) : ledger ((retryWait gid id s).getD s) = ledger s := by
  unfold retryWait
  split
  · rfl
  split
  · split
    · exact finishWait_ledger gid id _ s
    · rfl
  · rfl

theorem wakeInner_ledger (s : State) : ledger (wakeInner s) = ledger s :=
  foldl_keeps ledger (fun s (w : Nat × Nat) => (retryWait w.1 w.2 s).getD s) (fun s w => retryWait_ledger w.1 w.2 s) _ s

theorem discardDeferred_ledger (team : Nat) (s : State) : ledger (discardDeferred team s) = ledger s := by
  refine (wakeInner_ledger _).trans (foldl_keeps ledger _ (fun u e => ?_) _ s)
  split <;> rfl

theorem restoreShadows_ledger (x : Tx) (s : State) : ledger (restoreShadows x s) = ledger s :=
  foldl_keeps ledger (fun s (h : Shadow) => h.restore s) (fun _ _ => rfl) x.shadows s

/-- The end of a transaction keeps the launches and the assay table (R328). -/
theorem abortTx_ledger (team : Nat) (s : State) : ledger (abortTx team s) = ledger s := by
  unfold abortTx
  split
  · rfl
  · exact (discardDeferred_ledger team _).trans (restoreShadows_ledger _ s)

theorem releaseCore_ledger (launch core : Nat) (s : State) : ledger (releaseCore launch core s) = ledger s := by
  unfold releaseCore clearLent
  split
  · rfl
  · dsimp only
    split <;> rfl

theorem withdrawBlocks_ledger (g : Group) (s : State) : ledger (withdrawBlocks g s) = ledger s := by
  refine foldl_keeps ledger _ (fun u e => ?_) _ s
  split
  · exact foldl_freeWatch_ledger g.launch _ u
  · rfl

theorem withdrawFe_ledger (gid : Nat) (s : State) : ledger (withdrawFe gid s) = ledger s := by
  refine foldl_keeps ledger _ (fun u e => ?_) _ s
  split
  · split
    · split
      · exact freeWatch_ledger _ _ u
      · rfl
    · rfl
  · rfl

theorem leaveRegisters_ledger (g : Group) (s : State) : ledger (leaveRegisters g s) = ledger s := by
  unfold leaveRegisters
  split <;> rfl

/-! ### Replays that wait (R325) -/

/-- Every launch keeps the tasks that wait to be run again, and the assay table stays. -/
structure KeepsReplays (s t : State) : Prop where
  replays : ∀ n l, Tab.get? s.launches n = some l → ∃ l', Tab.get? t.launches n = some l' ∧ l'.replays = l.replays
  assay : t.assay = s.assay

theorem KeepsReplays.of_ledger {s t : State} (h : ledger t = ledger s) : KeepsReplays s t := by
  obtain ⟨hl, ha⟩ := Prod.ext_iff.1 h
  exact ⟨fun n l hn => ⟨l, (congrArg (Tab.get? · n) hl).trans hn, rfl⟩, ha⟩

theorem KeepsReplays.trans {a b c : State} (h : KeepsReplays a b) (k : KeepsReplays b c) : KeepsReplays a c := by
  refine ⟨fun n l hn => ?_, k.assay.trans h.assay⟩
  obtain ⟨l1, h1, e1⟩ := h.replays n l hn
  obtain ⟨l2, h2, e2⟩ := k.replays n l1 h1
  exact ⟨l2, h2, e2.trans e1⟩

theorem KeepsReplays.modLaunch (s : State) (n : Nat) (f : Launch → Launch) (hf : ∀ l, (f l).replays = l.replays) :
    KeepsReplays s (s.modLaunch n f) := by
  refine ⟨fun m l hm => ?_, rfl⟩
  by_cases h : m = n
  · subst h
    exact ⟨f l, by rw [State.modLaunch_launches, Tab.get?_modify_self, hm]; rfl, hf l⟩
  · exact ⟨l, by rw [State.modLaunch_launches, Tab.get?_modify_ne _ _ h, hm], rfl⟩

theorem endTeam_keepsReplays (team : Nat) (froze : Bool) (s : State) : KeepsReplays s (endTeam team froze s) := by
  have hd : KeepsReplays s (if froze then abortTx team s else keepDigest team (abortTx team s)) := by
    refine (KeepsReplays.of_ledger (abortTx_ledger team s)).trans ?_
    split
    · exact .of_ledger rfl
    · exact .modLaunch _ _ _ (fun _ => rfl)
  refine hd.trans (.of_ledger ?_)
  unfold endTeam
  dsimp only
  rw [releaseCore_ledger]
  split
  · rw [releaseCore_ledger]; rfl
  · rfl

theorem endWith_keepsReplays (g : Group) (s : State) : KeepsReplays s (endWith g s) := by
  have h : KeepsReplays s (if g.gid = 0 then abortTx g.team s else s) := by
    split
    · exact .of_ledger (abortTx_ledger _ s)
    · exact .of_ledger rfl
  refine h.trans ?_
  unfold endWith
  generalize (if g.gid = 0 then abortTx g.team s else s) = s1
  dsimp only
  split
  · exact endTeam_keepsReplays _ _ _
  · exact .of_ledger (releaseCore_ledger _ _ _)

/-- A group that ends keeps what waits to be run again. -/
theorem removeGroup_keepsReplays (gid : Nat) (s : State) : KeepsReplays s (removeGroup gid s) := by
  cases h : Tab.get? s.groups gid with
  | none => unfold removeGroup; rw [h]; exact .of_ledger rfl
  | some g =>
    rw [removeGroup_of_some h]
    refine KeepsReplays.trans ?_ (endWith_keepsReplays g _)
    have h1 : ledger (orphanReqs gid (withdrawFe gid (withdrawBlocks g (leaveRegisters g s)))) = ledger s :=
      (withdrawFe_ledger _ _).trans ((withdrawBlocks_ledger _ _).trans (leaveRegisters_ledger _ _))
    unfold withoutGroup
    dsimp only
    generalize orphanReqs gid (withdrawFe gid (withdrawBlocks g (leaveRegisters g s))) = s1 at h1
    exact KeepsReplays.trans (b := { s1 with groups := Tab.del s1.groups gid }) (.of_ledger h1) (.modLaunch _ _ _ (fun _ => rfl))

theorem dropGroups_keepsReplays (team : Nat) (p : Nat → Group → Bool) (s : State) : KeepsReplays s (dropGroups team p s) := by
  have h : ∀ (es : List (Nat × Group)) (s : State), KeepsReplays s (es.foldl (fun s e => removeGroup e.1 s) s) := by
    intro es
    induction es with
    | nil => exact fun s => .of_ledger rfl
    | cons e es ih => exact fun s => (removeGroup_keepsReplays e.1 s).trans (ih _)
  exact h _ s

/-- A task that is queued again waits at its rung, no group of its team is left, and the assay table stays (R325, R328). -/
theorem requeue_spec {team rung : Nat} {s : State} {u : Team} {x : Tx} {l : Launch} (hu : Tab.get? s.teams team = some u) (hx : u.tx = some x)
    (hl : Tab.get? s.launches u.launch = some l) (hf : l.fail = none) :
    Says.Requeued (requeue team rung s) team u.launch ⟨u.teamid, team, ⟨x.ladder, x.tile, rung, x.top⟩⟩ ∧ (requeue team rung s).assay = s.assay := by
  have ht : s.team team = u := by simp [State.team, Tab.getD, hu]
  obtain ⟨hlaunches, hassay⟩ := Prod.ext_iff.1 (abortTx_ledger team s)
  have he : requeue team rung s = dropGroups team (fun _ _ => true) ((abortTx team s).modLaunch u.launch (fun l =>
      if l.fail.isSome then l else { l with replays := l.replays ++ [⟨u.teamid, team, ⟨x.ladder, x.tile, rung, x.top⟩⟩] })) := by
    simp only [requeue, ht, hx]
  obtain ⟨hrep, has⟩ := dropGroups_keepsReplays team (fun _ _ => true) ((abortTx team s).modLaunch u.launch (fun l =>
      if l.fail.isSome then l else { l with replays := l.replays ++ [⟨u.teamid, team, ⟨x.ladder, x.tile, rung, x.top⟩⟩] }))
  obtain ⟨l', hl', hr⟩ := hrep u.launch { l with replays := l.replays ++ [⟨u.teamid, team, ⟨x.ladder, x.tile, rung, x.top⟩⟩] } (by
    rw [State.modLaunch_launches, Tab.get?_modify_self, show (abortTx team s).launches = s.launches from hlaunches, hl]
    simp [hf])
  rw [he]
  exact ⟨⟨fun n g' hg => dropGroups_team team _ hg, l', hl', by rw [hr]; simp⟩, has.trans hassay⟩

end Sys2Proof.Machine
end

section
/-! PROOF. Groups that are asked to go, evicted, starved, halted, resumed and released (spec/01 R26, R27, R29, spec/10 R223, R224, R228, R230, spec/16 R328). -/

namespace Sys2Proof.Machine

/-! ### A request, an eviction and an expiry (R26, R224, R328) -/

theorem preemptionRequest_marks {n : Nat} {s : State} {g : Group} (hg : Tab.get? s.groups n = some g) (hf : g.frozen = false) (hr : g.resident = true)
    (hp : g.preempt = none) : ∃ t, exec (.preemptionRequest n) s = .next t ∧ Tab.get? t.groups n = some { g with preempt := some { since := s.time } }
      ∧ { t with groups := s.groups } = s := by
  refine ⟨requestPreempt n s, rfl, ?_, rfl⟩
  rw [requestPreempt, State.modGroup_groups, Tab.get?_modify_self, hg]
  simp [hf, hr, hp]

theorem leaveRegisters_mem (g : Group) (s : State) : (leaveRegisters g s).mem = s.mem := by
  unfold leaveRegisters
  split <;> rfl

theorem savePads_groups (team : Nat) (s : State) : (savePads team s).groups = s.groups := by
  unfold savePads
  dsimp only
  split <;> rfl

theorem savePads_mem (team : Nat) (s : State) : (savePads team s).mem = s.mem := by
  unfold savePads
  dsimp only
  split <;> rfl

/-- A group as it leaves its slot, but for the YIELDs that end with it. -/
def Group.leaving (s : State) (g : Group) : Group :=
  { g with place := .evicted g.core, preempt := none, starved := false, dues := [], badRegs := g.regPoison g.core s }

/-- A group that leaves its slot stands evicted from its core, its request answered and its registers saved (R26). -/
theorem evict_spec {n : Nat} {s : State} {g : Group} (hg : Tab.get? s.groups n = some g) :
    ∃ g', Tab.get? (evict n s).groups n = some g' ∧ g'.place = .evicted g.core ∧ g'.preempt = none ∧ (∀ l r, g'.reg l r = g.reg l r)
      ∧ (evict n s).mem = s.mem := by
  have he : evict n s = savePads g.team ((acquireDev g.core (leaveRegisters g s)).setGroup n (g.leaving s).endYields) := by
    simp only [evict, hg]
    rfl
  rw [he]
  refine ⟨(g.leaving s).endYields, by rw [savePads_groups]; exact Tab.get?_put_self _ _ _, ?_, ?_, fun l r => (sameRegs_endYields (g.leaving s)).regs l r, ?_⟩
  · rw [Group.endYields_eq]; rfl
  · rw [Group.endYields_eq]; rfl
  · rw [savePads_mem]; exact leaveRegisters_mem g s

/-- GROUP_EVICT names a group that may leave: it goes, or, with a transaction open, its YIELD ends (R26, R328). -/
theorem exec_groupEvict {n : Nat} {s : State} {g : Group} (hg : Tab.get? s.groups n = some g) (hr : g.resident = true) (hp : g.preempt.isSome = true)
    (hh : g.handler = false) (hl : g.halted = false) (hf : g.frozen = false) (hb : s.blocked n g = true) :
    exec (.groupEvict n) s = .next (if (s.team g.team).tx.isSome then
        s.setGroup n { ({ g with preempt := none }.endYields).rechoose with preempt := g.preempt }
      else if fencedForEviction s n g then evict n s else s) := by
  have hn : g.preempt.isNone = false := by
    cases h : g.preempt with
    | none => simp [h] at hp
    | some p => rfl
  show execGroupEvict n s = _
  simp [execGroupEvict, hg, hr, hn, hh, hl, hf, hb]

theorem groupEvict_evicts {n : Nat} {s : State} {g : Group} (hg : Tab.get? s.groups n = some g) (hr : g.resident = true) (hp : g.preempt.isSome = true)
    (hh : g.handler = false) (hl : g.halted = false) (hf : g.frozen = false) (hb : s.blocked n g = true) (hx : (s.team g.team).tx = none)
    (hd : fencedForEviction s n g = true) : ∃ t g', exec (.groupEvict n) s = .next t ∧ Tab.get? t.groups n = some g'
      ∧ g'.place = .evicted g.core ∧ g'.preempt = none ∧ (∀ l r, g'.reg l r = g.reg l r) ∧ t.mem = s.mem := by
  obtain ⟨g', h⟩ := evict_spec hg
  exact ⟨evict n s, g', by rw [exec_groupEvict hg hr hp hh hl hf hb]; simp [hx, hd], h⟩

theorem groupEvict_stays {n : Nat} {s : State} {g : Group} (hg : Tab.get? s.groups n = some g) (hr : g.resident = true) (hp : g.preempt.isSome = true)
    (hh : g.handler = false) (hl : g.halted = false) (hf : g.frozen = false) (hb : s.blocked n g = true) (hx : (s.team g.team).tx.isSome = true) :
    ∃ t g', exec (.groupEvict n) s = .next t ∧ Tab.get? t.groups n = some g' ∧ g'.place = g.place ∧ g'.preempt = g.preempt
      ∧ (∀ l r, g'.reg l r = g.reg l r) ∧ t.mem = s.mem := by
  refine ⟨s.setGroup n { ({ g with preempt := none }.endYields).rechoose with preempt := g.preempt }, _,
    by rw [exec_groupEvict hg hr hp hh hl hf hb, if_pos hx], Tab.get?_put_self _ _ _, ?_, rfl, fun l r => ?_, rfl⟩
  · rw [Group.rechoose_eq, Group.endYields_eq]
  · exact ((sameRegs_endYields { g with preempt := none }).trans (sameRegs_rechoose _)).regs l r

theorem txPreemptExpiry_requeues {n : Nat} {s : State} {g : Group} {p : Preempt} {u : Team} {x : Tx} {l : Launch} (hg : Tab.get? s.groups n = some g)
    (hp : g.preempt = some p) (hu : Tab.get? s.teams g.team = some u) (hx : u.tx = some x) (hdet : (s.launch g.launch).det = false)
    (ht : p.since + 10000 * refTick ≤ s.time) (hl : Tab.get? s.launches u.launch = some l) (hf : l.fail = none) :
    ∃ t, exec (.txPreemptExpiry n) s = .next t ∧ Says.Requeued t g.team u.launch ⟨u.teamid, g.team, ⟨x.ladder, x.tile, x.rung, x.top⟩⟩
      ∧ t.assay = s.assay := by
  refine ⟨requeue g.team x.rung s, ?_, requeue_spec hu hx hl hf⟩
  have htx : (s.team g.team).tx = some x := by simp [State.team, Tab.getD, hu, hx]
  show execTxPreemptExpiry n s = _
  simp [execTxPreemptExpiry, hg, hp, htx, hdet, Nat.not_lt.2 ht]

theorem groupStarved_marks {n : Nat} {s : State} {g : Group} (hg : Tab.get? s.groups n = some g) (hr : (ready s n g true || ready s n g false) = true)
    (hw : 512 * 20 ≤ g.readyClocks + (s.time - g.readySince) * (s.cluster (clusterOf g.core)).feeff) :
    ∃ t, exec (.groupStarved n) s = .next t ∧ Tab.get? t.groups n = some { g with starved := true } := by
  refine ⟨s.setGroup n { g with starved := true }, ?_, Tab.get?_put_self _ _ _⟩
  show execGroupStarved n s = _
  simp only [execGroupStarved, hg, hr, waitedLong, hw, decide_true, Bool.and_self, if_true]

/-! ### Halts and the debug slots (R228, R230) -/

/-- The debug slot of a core after a change of it. -/
theorem modCore_debugSlots {s : State} {core slot : Nat} {d : DebugSlot} (f : DebugSlot → DebugSlot) (hd : (s.core core).debugSlots[slot]? = some d) :
    ((s.modCore core (fun k => { k with debugSlots := listModify k.debugSlots slot f })).core core).debugSlots[slot]? = some (f d) := by
  rw [State.core, State.modCore_cores, Tab.getD_put_self]
  simp [listModify_getElem?, hd]

/-- A group in a slot halts: it stands halted, and its debug slot says where and why. -/
theorem haltGroup_of_resident {n core slot : Nat} (reason comp : Nat) (lanes : LaneSet) (pc : DWord) {s : State} {g : Group}
    (hg : Tab.get? s.groups n = some g) (hp : g.place = .resident core slot) :
    haltGroup n reason comp lanes pc s = (s.setGroup n { g with halted := true, teamhalt := false }).modCore core (fun k =>
      { k with debugSlots := listModify k.debugSlots slot (fun d =>
          { d with haltreq := false, reason := reason, comp := comp, lanes := lanes, pc := pc }) }) := by
  simp only [haltGroup, hg, hp]

theorem haltAtBoundary_halts {core slot n reason : Nat} {s : State} {g : Group} (hs : s.slotGroup core slot = some (n, g))
    (hg : Tab.get? s.groups n = some g) (hp : g.place = .resident core slot) (hl : g.halted = false) (hf : g.frozen = false)
    (hx : suspended s n g = false) (hd : haltDue s g = some reason) (hn : slot < (s.core core).debugSlots.length) :
    ∃ t d, exec (.haltAtBoundary core slot) s = .next t ∧ Tab.get? t.groups n = some { g with halted := true, teamhalt := false }
      ∧ (t.core core).debugSlots[slot]? = some d ∧ d.reason = reason ∧ d.lanes = g.cur ∧ d.pc = g.nextPc ∧ d.haltreq = false ∧ t.mem = s.mem := by
  have he : exec (.haltAtBoundary core slot) s = .next (haltGroup n reason 0 g.cur g.nextPc s) := by
    show execHaltAtBoundary core slot s = _
    simp [execHaltAtBoundary, hs, hl, hf, hx, hd]
  obtain ⟨d, hslot⟩ : ∃ d, (s.core core).debugSlots[slot]? = some d := ⟨_, List.getElem?_eq_getElem hn⟩
  refine ⟨_, { d with haltreq := false, reason := reason, comp := 0, lanes := g.cur, pc := g.nextPc }, he, ?_⟩
  rw [haltGroup_of_resident reason 0 g.cur g.nextPc hg hp]
  exact ⟨Tab.get?_put_self _ _ _, modCore_debugSlots (s := s.setGroup n { g with halted := true, teamhalt := false }) _ hslot, rfl, rfl, rfl, rfl, rfl⟩

theorem haltreq_writes {core slot : Nat} (v : Word) {s : State} {d : DebugSlot} (ha : debugAnswers s core slot = true)
    (hd : (s.core core).debugSlots[slot]? = some d) : ∃ t, exec (.haltreq core slot v) s = .next t
      ∧ (t.core core).debugSlots[slot]? = some { d with sstep := v.getLsbD 0, frzteam := v.getLsbD 1, haltreq := v.getLsbD 2 } ∧ t.groups = s.groups := by
  refine ⟨writeGctl core slot v s, ?_, modCore_debugSlots _ hd, rfl⟩
  show execHaltreq core slot v s = _
  rw [execHaltreq, if_pos ha]

/-! ### What a resume acts on (R230) -/

theorem Tab.get?_none_iff {α : Type} {t : Tab α} {n : Nat} : Tab.get? t n = none ↔ ∀ e ∈ t, e.1 ≠ n := by
  induction t with
  | nil => simp
  | cons e t ih =>
    obtain ⟨k, v⟩ := e
    rw [Tab.get?_cons]
    by_cases h : k = n <;> simp [h, ih]

/-- A fold whose steps change nothing. -/
theorem foldl_eq_of_fixed {α β : Type} (f : α → β → α) (a : α) (bs : List β) (h : ∀ b ∈ bs, f a b = a) : bs.foldl f a = a := by
  induction bs with
  | nil => rfl
  | cons b t ih => rw [List.foldl_cons, h b List.mem_cons_self, ih (fun b hb => h b (List.mem_cons_of_mem _ hb))]

/-- What a resume makes of one block of its group (R230). -/
def wakeBlock (gid : Nat) (s : State) (b : Nat × Block) : State :=
  match b.2.woken, b.2.kind with
  | some r, .wait _ _ _ _ => finishWait gid b.1 r s
  | some r, .bar _ _ dest => s.modGroup gid (fun x => ((x.goOn b.1).setG dest r).rechoose)
  | _, _ => s

theorem wakeBlock_of_none {gid : Nat} {b : Nat × Block} (s : State) (h : b.2.woken = none) : wakeBlock gid s b = s := by
  simp [wakeBlock, h]

/-- Where no full/empty lane of a group has been performed, its resume acts on its blocks alone. -/
theorem actWakes_eq_blocks {gid : Nat} {s : State} {g : Group} (hg : Tab.get? s.groups gid = some g)
    (hr : (g.blocks.foldl (wakeBlock gid) s).reqs = s.reqs)
    (hd : ∀ e ∈ s.reqs, e.2.group = gid → ∀ k l va pa d r w, e.2.kind ≠ .fe k l va pa d r (.done w)) :
    actWakes gid s = g.blocks.foldl (wakeBlock gid) s := by
  have he : actWakes gid s = (g.blocks.foldl (wakeBlock gid) s).reqs.foldl (fun s e =>
      if e.2.group = gid then
        match e.2.kind with
        | .fe k l _ pa data reg (.done w) => feLand e.2 k l pa data reg w (s.delReq e.1)
        | _ => s
      else s) (g.blocks.foldl (wakeBlock gid) s) := by
    simp only [actWakes, hg]
    rfl
  rw [he, hr]
  refine foldl_eq_of_fixed _ _ _ (fun e hm => ?_)
  split
  · next hn =>
    split
    · next hk => exact absurd hk (hd e hm hn _ _ _ _ _ _ _)
    · rfl
  · rfl

/-- A group as it is resumed (R230). -/
def Group.resume (g : Group) : Group := { g with halted := false, resumed := true }

/-- The resume of a halted group. -/
theorem exec_groupResume {core slot n : Nat} {s : State} {g : Group} (ha : debugAnswers s core slot = true) (hs : s.slotGroup core slot = some (n, g))
    (hh : g.halted = true) : exec (.groupResume core slot) s = .next (actWakes n (s.setGroup n g.resume)) := by
  show execGroupResume core slot s = _
  simp [execGroupResume, resumeGroup, ha, hs, hh, Group.resume]

theorem groupResume_of_none_woken {core slot n : Nat} {s : State} {g : Group} (ha : debugAnswers s core slot = true)
    (hs : s.slotGroup core slot = some (n, g)) (hh : g.halted = true)
    (hd : ∀ e ∈ s.reqs, e.2.group = n → ∀ k l va pa d r w, e.2.kind ≠ .fe k l va pa d r (.done w)) (hw : ∀ e ∈ g.blocks, e.2.woken = none) :
    ∃ t, exec (.groupResume core slot) s = .next t ∧ Tab.get? t.groups n = some { g with halted := false, resumed := true }
      ∧ { t with groups := s.groups } = s := by
  have hf : g.blocks.foldl (wakeBlock n) (s.setGroup n g.resume) = s.setGroup n g.resume :=
    foldl_eq_of_fixed _ _ _ (fun e he => wakeBlock_of_none _ (hw e he))
  have ht : actWakes n (s.setGroup n g.resume) = s.setGroup n g.resume :=
    (actWakes_eq_blocks (g := g.resume) (Tab.get?_put_self s.groups n g.resume) (congrArg State.reqs hf) hd).trans hf
  exact ⟨s.setGroup n g.resume, by rw [exec_groupResume ha hs hh, ht], Tab.get?_put_self s.groups n g.resume, rfl⟩

/-! ### A barrier wait that ended while its group was halted (R230, R170) -/

/-- With a handler open, the choice of an issue set leaves the blocks of a group and what its threads wait for (R218). -/
theorem Group.rechoose_of_handler {x : Group} (hh : x.handler = true) :
    x.rechoose.blocks = x.blocks ∧ ∀ l, (x.rechoose.thread l).pc = (x.thread l).pc ∧ (x.rechoose.thread l).wait = (x.thread l).wait := by
  have he : x.released.endYields = x.released := by simp [Group.endYields, Group.released, hh]
  unfold Group.rechoose
  split
  · rw [Group.choose_eq_released, he]
    split
    · refine ⟨by rw [Group.pick_eq]; rfl, fun l => ?_⟩
      rw [Group.pick_thread]
      exact ⟨(x.released.released_thread l).2.1.trans (x.released_thread l).2.1, (x.released.released_thread l).2.2.trans (x.released_thread l).2.2⟩
    · refine ⟨by rw [Group.pick_eq]; rfl, fun l => ?_⟩
      rw [Group.pick_thread]
      exact (x.released_thread l).2
  · exact ⟨rfl, fun _ => ⟨rfl, rfl⟩⟩

/-- The end of a barrier wait for its group: its threads go on and its destination takes the value. -/
def Group.barEnd (k dest : Nat) (v : Word) (x : Group) : Group := ((x.goOn k).setG dest v).rechoose

theorem Group.barEnd_keeps (k dest : Nat) (v : Word) (x : Group) :
    (x.barEnd k dest v).halted = x.halted ∧ (x.barEnd k dest v).resumed = x.resumed ∧ (x.barEnd k dest v).handler = x.handler := by
  rw [Group.barEnd, Group.rechoose_eq, Group.setG, Group.goOn_eq]
  exact ⟨rfl, rfl, rfl⟩

theorem Group.barEnd_greg (k dest : Nat) (v : Word) (x : Group) : (x.barEnd k dest v).greg dest = v := by
  have h := (sameRegs_rechoose ((x.goOn k).setG dest v)).regs 0 (.g dest)
  simp only [Group.reg] at h
  rw [Group.barEnd, h]
  simp [Group.greg, Group.setG]

/-- The threads of a set that has gone on run on at its next instruction. -/
theorem Group.barEnd_wentOn {k : Nat} (dest : Nat) (v : Word) {x : Group} {b : Block} (hb : Tab.get? x.blocks k = some b) :
    Says.WentOn x k b.next (x.barEnd k dest v) := by
  refine ⟨fun hh => ?_, fun hh => ?_⟩
  · have hy : x.goOn k = x.unblock k := by simp [Group.goOn, hh]
    have hc : Chosen ((x.goOn k).setG dest v) (x.barEnd k dest v) := chosen_rechoose _
    have hdel : ((x.goOn k).setG dest v).blocks = Tab.del x.blocks k := by rw [hy, Group.unblock, hb]; rfl
    refine ⟨Tab.get?_none_iff.2 (fun e he hk => ?_), fun l hl => ?_⟩
    · have hm := hc.fewer e he
      rw [hdel] at hm
      exact Tab.get?_none_iff.1 (Tab.get?_del_self x.blocks k) e hm hk
    · have ht : ((x.goOn k).setG dest v).thread l = { x.thread l with wait := .run, pc := b.next } := by
        rw [hy]
        refine (Group.thread_unblock_eq x k l hb).trans ?_
        rw [if_pos hl]
      obtain ⟨hpc, hw⟩ := hc.pcs l (fun e _ _ hblk => by rw [ht] at hblk; cases hblk)
      rw [hpc, hw, ht]
      exact ⟨rfl, rfl⟩
  · have hy : x.goOn k = { x with blocks := Tab.modify x.blocks k (fun b => { b with kind := .over }) } := by simp [Group.goOn, hh]
    obtain ⟨hblk, hth⟩ := Group.rechoose_of_handler (x := (x.goOn k).setG dest v) (by rw [hy]; exact hh)
    have hthx : ∀ l, ((x.goOn k).setG dest v).thread l = x.thread l := fun l => by rw [hy]; rfl
    refine ⟨⟨{ b with kind := .over }, ?_, rfl, rfl⟩, fun l hl => ?_⟩
    · rw [Group.barEnd, hblk, hy]
      show Tab.get? (Tab.modify x.blocks k _) k = _
      rw [Tab.get?_modify_self, hb]
      rfl
    · obtain ⟨hpc, hw⟩ := hth l
      rw [Group.barEnd, hpc, hw, hthx]
      exact ⟨hl, rfl⟩

/-- A block that is not there ends nothing: the threads of a set that has gone on stay as they are. -/
theorem Group.barEnd_again {k : Nat} (dest : Nat) (v : Word) {x : Group} {next : DWord} {g : Group} (hx : x.handler = g.handler)
    (h : Says.WentOn g k next x) : Says.WentOn g k next (x.barEnd k dest v) := by
  refine ⟨fun hh => ?_, fun hh => ?_⟩
  · obtain ⟨hn, hl⟩ := h.1 hh
    have hy : x.goOn k = x := by simp [Group.goOn, hx, hh, Group.unblock, hn]
    have hc : Chosen (x.setG dest v) (x.barEnd k dest v) := by
      rw [Group.barEnd, hy]; exact chosen_rechoose _
    refine ⟨Tab.get?_none_iff.2 (fun e he => Tab.get?_none_iff.1 hn e (hc.fewer e he)), fun l hw => ?_⟩
    obtain ⟨hrun, hpc⟩ := hl l hw
    obtain ⟨hpc', hw'⟩ := hc.pcs l (fun e _ _ hblk => by rw [show (x.setG dest v).thread l = x.thread l from rfl, hrun] at hblk; cases hblk)
    exact ⟨hw'.trans hrun, hpc'.trans hpc⟩
  · obtain ⟨⟨b, hb, hover, hnext⟩, hl⟩ := h.2 hh
    obtain ⟨⟨b', hb', hover', hnext'⟩, hl'⟩ := (Group.barEnd_wentOn dest v hb).2 (hx.trans hh)
    refine ⟨⟨b', hb', hover', hnext'.trans hnext⟩, fun l hw => ?_⟩
    obtain ⟨hw1, hpc1⟩ := hl l hw
    obtain ⟨hw2, hpc2⟩ := hl' l hw1
    exact ⟨hw2, hpc2.trans hpc1⟩

/-- A group resumed whose barrier wait `k` has ended with the value `v`. -/
structure BarEnded (g : Group) (k dest : Nat) (next : DWord) (v : Word) (x : Group) : Prop where
  handler : x.handler = g.handler
  halted : x.halted = false
  resumed : x.resumed = true
  value : x.greg dest = v
  wentOn : Says.WentOn g k next x

/-- The fold over the blocks of a group in which only one barrier wait has ended: it ends once, whatever the order and however often it is named. -/
theorem foldl_wakeBlock_bar {n k m dest : Nat} {phase : BitVec 31} {v : Word} {b : Block} {g : Group} (hkind : b.kind = .bar m phase dest) (hwoken : b.woken = some v)
    (es : List (Nat × Block)) (hes : ∀ e ∈ es, e.2.woken ≠ none → e = (k, b)) (s : State) :
    (es.foldl (wakeBlock n) s).reqs = s.reqs
      ∧ ((∃ x, Tab.get? s.groups n = some x ∧ BarEnded g k dest b.next v x) →
        ∃ x, Tab.get? (es.foldl (wakeBlock n) s).groups n = some x ∧ BarEnded g k dest b.next v x)
      ∧ (Tab.get? s.groups n = some g.resume → Tab.get? g.blocks k = some b → (k, b) ∈ es →
        ∃ x, Tab.get? (es.foldl (wakeBlock n) s).groups n = some x ∧ BarEnded g k dest b.next v x) := by
  induction es generalizing s with
  | nil => exact ⟨rfl, id, fun _ _ h => by cases h⟩
  | cons e es ih =>
    have ih' := ih (fun e he => hes e (List.mem_cons_of_mem _ he))
    rw [List.foldl_cons]
    by_cases hw : e.2.woken = none
    · rw [wakeBlock_of_none s hw]
      obtain ⟨hr, hdone, hfirst⟩ := ih' s
      refine ⟨hr, hdone, fun hg hb hm => hfirst hg hb ?_⟩
      rcases List.mem_cons.1 hm with rfl | hm
      · rw [hwoken] at hw; cases hw
      · exact hm
    · obtain rfl := hes e List.mem_cons_self hw
      have hstep : wakeBlock n s (k, b) = s.modGroup n (Group.barEnd k dest v) := by
        simp only [wakeBlock, hwoken, hkind]; rfl
      rw [hstep]
      obtain ⟨hr, hdone, -⟩ := ih' (s.modGroup n (Group.barEnd k dest v))
      refine ⟨hr, fun ⟨x, hx, h⟩ => hdone ⟨x.barEnd k dest v, by rw [State.modGroup_groups, Tab.get?_modify_self, hx]; rfl, ?_⟩,
        fun hg hb _ => hdone ⟨_, by rw [State.modGroup_groups, Tab.get?_modify_self, hg]; rfl, ?_⟩⟩
      · obtain ⟨hhalt, hres, hhand⟩ := x.barEnd_keeps k dest v
        exact ⟨hhand.trans h.handler, hhalt.trans h.halted, hres.trans h.resumed, x.barEnd_greg k dest v, Group.barEnd_again dest v h.handler h.wentOn⟩
      · obtain ⟨hhalt, hres, hhand⟩ := Group.barEnd_keeps k dest v g.resume
        exact ⟨hhand, hhalt, hres, Group.barEnd_greg k dest v _, Group.barEnd_wentOn (x := g.resume) dest v hb⟩

theorem groupResume_ends_bar {core slot n k m dest : Nat} {phase : BitVec 31} {v : Word} {b : Block} {s : State} {g : Group} (ha : debugAnswers s core slot = true)
    (hs : s.slotGroup core slot = some (n, g)) (hh : g.halted = true)
    (hd : ∀ e ∈ s.reqs, e.2.group = n → ∀ k l va pa d r w, e.2.kind ≠ .fe k l va pa d r (.done w)) (hb : Tab.get? g.blocks k = some b)
    (hkind : b.kind = .bar m phase dest) (hwoken : b.woken = some v) (hes : ∀ e ∈ g.blocks, e.2.woken ≠ none → e = (k, b)) :
    ∃ t g', exec (.groupResume core slot) s = .next t ∧ Tab.get? t.groups n = some g' ∧ g'.halted = false ∧ g'.resumed = true ∧ g'.greg dest = v
      ∧ Says.WentOn g k b.next g' := by
  obtain ⟨hr, -, hfirst⟩ := foldl_wakeBlock_bar (n := n) (g := g) hkind hwoken g.blocks hes (s.setGroup n g.resume)
  obtain ⟨x, hx, h⟩ := hfirst (Tab.get?_put_self _ _ _) hb (Tab.mem_of_get? hb)
  refine ⟨_, x, exec_groupResume ha hs hh, ?_, h.halted, h.resumed, h.value, h.wentOn⟩
  exact (congrArg (fun t : State => Tab.get? t.groups n) (actWakes_eq_blocks (g := g.resume) (Tab.get?_put_self s.groups n g.resume) hr hd)).trans hx

theorem frozenRelease_removes {core slot n : Nat} {s : State} {g : Group} (ha : debugAnswers s core slot = true)
    (hs : s.slotGroup core slot = some (n, g)) (hf : g.frozen = true) : ∃ t, exec (.frozenRelease core slot) s = .next t ∧ Tab.get? t.groups n = none := by
  refine ⟨removeGroup n s, ?_, removeGroup_get?_self n s⟩
  show execFrozenRelease core slot s = _
  simp [execFrozenRelease, releaseSlot, ha, hs, hf]

end Sys2Proof.Machine
end

section
/-! PROOF. A group that is restored to a slot (spec/01 R30, spec/17 R346, R350): what the move of its team, the return of its scratchpad and the tests of the
words that it waits on leave as they were. -/

namespace Sys2Proof.Machine

/-! ### Where nothing waits (R256, R258) -/

/-- A request that no monitor and no record of a sector holds. -/
def Req.unheld (r : Req) : Prop := ∀ k l va pa d reg w, r.kind = .fe k l va pa d reg w → w.rank r.launch = none

/-- A group with no condition of a WAIT that a monitor or a record of a sector holds. -/
def Group.unheld (g : Group) : Prop :=
  ∀ b ∈ g.blocks, ∀ es any deadline dest, b.2.kind = .wait es any deadline dest → ∀ x ∈ es, x.ofMemory = true → x.watch.rank g.launch = none

theorem insertRank_ne_nil {α : Type} (k : Nat × Nat × Nat) (x : α) (xs : List ((Nat × Nat × Nat) × α)) : insertRank k x xs ≠ [] := by
  cases xs with
  | nil => simp [insertRank]
  | cons y t => unfold insertRank; split <;> simp

/-- Nothing that is inserted is lost. -/
theorem foldl_insertRank_eq_nil {α : Type} (xs acc : List ((Nat × Nat × Nat) × α)) :
    xs.foldl (fun acc x => insertRank x.1 x.2 acc) acc = [] ↔ xs = [] ∧ acc = [] := by
  induction xs generalizing acc with
  | nil => simp
  | cons x t ih => simp [ih, insertRank_ne_nil]

/-- No access and no condition waits at a sector: no request of a full/empty access and no condition of a WAIT there is held. -/
theorem waitersOf_eq_nil_iff (s : State) (sector : Nat) : waitersOf s sector = [] ↔
    (∀ e ∈ s.reqs, ∀ k l va pa d reg w, e.2.kind = .fe k l va pa d reg w → pa / 64 = sector → w.rank e.2.launch = none)
    ∧ ∀ e ∈ s.groups, ∀ b ∈ e.2.blocks, ∀ es any deadline dest, b.2.kind = .wait es any deadline dest →
      ∀ x ∈ es, x.ofMemory = true → x.pa / 64 = sector → x.watch.rank e.2.launch = none := by
  simp only [waitersOf, List.map_eq_nil_iff, foldl_insertRank_eq_nil, List.append_eq_nil_iff, and_true, List.filterMap_eq_nil_iff,
    List.flatMap_eq_nil_iff]
  refine and_congr (forall₂_congr fun e _ => ?_) (forall₂_congr fun e _ => forall₂_congr fun b _ => ?_)
  · split
    · next hk =>
      rw [ite_eq_right_iff, Option.map_eq_none_iff]
      refine ⟨fun h k l va pa d reg w hk' hp => ?_, fun h hp => h _ _ _ _ _ _ _ hk hp⟩
      rw [hk] at hk'
      cases hk'
      exact h hp
    · next hk => exact iff_of_true rfl (fun k l va pa d reg w hc => absurd hc (hk k l va pa d reg w))
  · split
    · next es any deadline dest hk =>
      rw [List.filterMap_eq_nil_iff]
      refine ⟨fun h es' any' deadline' dest' hk' x hx hm hp => ?_, fun h x hx => ?_⟩
      · rw [hk] at hk'
        cases hk'
        obtain ⟨i, hi⟩ := List.getElem?_of_mem hx
        simpa [hm, hp] using h (x, i) (List.mk_mem_zipIdx_iff_getElem?.2 hi)
      · split
        · next hc =>
          rw [Bool.and_eq_true, beq_iff_eq] at hc
          obtain ⟨hm, hp⟩ := hc
          have hmem : x.1 ∈ es := List.mem_of_getElem? (List.mk_mem_zipIdx_iff_getElem?.1 hx)
          rw [h _ _ _ _ hk x.1 hmem hm hp]
          rfl
        · rfl
    · next hk => exact iff_of_true rfl (fun es any deadline dest hc => absurd hc (hk es any deadline dest))

theorem noWaiters_iff (s : State) : Says.NoWaiters s ↔ (∀ e ∈ s.reqs, e.2.unheld) ∧ (∀ e ∈ s.groups, e.2.unheld) := by
  refine ⟨fun h => ⟨fun e he k l va pa d reg w hk => ?_, fun e he b hb es any deadline dest hk x hx hm => ?_⟩, fun ⟨hr, hg⟩ sector => ?_⟩
  · exact ((waitersOf_eq_nil_iff s _).1 (h _)).1 e he k l va pa d reg w hk rfl
  · exact ((waitersOf_eq_nil_iff s _).1 (h _)).2 e he b hb es any deadline dest hk x hx hm rfl
  · exact (waitersOf_eq_nil_iff s sector).2 ⟨fun e he k l va pa d reg w hk _ => hr e he k l va pa d reg w hk,
      fun e he b hb es any deadline dest hk x hx hm _ => hg e he b hb es any deadline dest hk x hx hm⟩

/-- Where nothing waits, a test of a word clears at most the watch bit of its sector (R258). -/
theorem wake_of_noWaiters {s : State} (h : Says.NoWaiters s) (pa : Nat) : wake pa s = clearWatch (pa / 64) s := by
  have hp : wakeLoop 1 (pa / 64) s = s := by simp [wakeLoop, wakePass, h (pa / 64)]
  simp only [wake, h (pa / 64), List.length_nil, Nat.zero_add, hp]

theorem clearWatch_eq (sector : Nat) (s : State) : clearWatch sector s = { s with watched := (clearWatch sector s).watched } := by
  unfold clearWatch
  split <;> rfl

/-- The tests of the words that a group waits on leave groups and memory, where nothing waits. -/
theorem wakeOwn_of_noWaiters {s : State} (h : Says.NoWaiters s) (gid : Nat) : (wakeOwn gid s).groups = s.groups ∧ (wakeOwn gid s).mem = s.mem := by
  have key : ∀ (pas : List Nat) (s : State), Says.NoWaiters s →
      (pas.foldl (fun s pa => wake pa s) s).groups = s.groups ∧ (pas.foldl (fun s pa => wake pa s) s).mem = s.mem := by
    intro pas
    induction pas with
    | nil => exact fun _ _ => ⟨rfl, rfl⟩
    | cons pa t ih =>
      intro s hs
      have he : wake pa s = { s with watched := (clearWatch (pa / 64) s).watched } := (wake_of_noWaiters hs pa).trans (clearWatch_eq _ _)
      rw [List.foldl_cons, he]
      exact ih { s with watched := (clearWatch (pa / 64) s).watched } hs
  exact key _ s h

/-! ### What a move and the return of a scratchpad leave as it was (R24, R346, R350) -/

/-- Memory, the requests, the launches and the groups. -/
def standing (s : State) : List Host.Cell × Tab Req × Tab Launch × Tab Group := (s.mem, s.reqs, s.launches, s.groups)

@[simp] theorem modCore_standing (s : State) (c : Nat) (f : Core → Core) : standing (s.modCore c f) = standing s := rfl

@[simp] theorem modTeam_standing (s : State) (n : Nat) (f : Team → Team) : standing (s.modTeam n f) = standing s := rfl

@[simp] theorem clearPoison_standing (pa n : Nat) (s : State) : standing (clearPoison pa n s) = standing s := rfl

@[simp] theorem clearLent_standing (core : Nat) (s : State) : standing (clearLent core s) = standing s := by simp [clearLent]

@[simp] theorem zeroSlots_standing (core : Nat) (s : State) : standing (zeroSlots core s) = standing s := by simp [zeroSlots]

@[simp] theorem putPad_standing (core base n : Nat) (pad : Tab Byte) (bad : NatSet) (s : State) : standing (putPad core base n pad bad s) = standing s := rfl

@[simp] theorem releaseCore_standing (launch core : Nat) (s : State) : standing (releaseCore launch core s) = standing s := by
  unfold releaseCore
  split
  · rfl
  · rw [apply_ite standing]
    simp

@[simp] theorem claimCore_standing (n core : Nat) (s : State) : standing (claimCore n core s) = standing s := by
  simp only [claimCore, apply_ite standing, zeroSlots_standing, clearPoison_standing, modCore_standing, clearLent_standing, ite_self]

theorem loadPads_standing (team : Nat) (s : State) : standing (loadPads team s) = standing s := by
  unfold loadPads
  dsimp only
  split
  · rfl
  · rw [modTeam_standing]
    split
    · rw [putPad_standing, putPad_standing]
    · exact putPad_standing _ _ _ _ _ _

/-- A group of a team that moves waits on the core where it is to go. -/
def movedGroup (l : Launch) (team core : Nat) (g : Group) : Group := if g.team = team then { g with place := .evicted (l.coreFor core g.gid) } else g

/-- The move of a team changes of memory, requests, launches and groups the cores of its own groups alone. -/
theorem moveTeam_standing (team core : Nat) (s : State) (h : (s.team team).core ≠ core) : standing (moveTeam team core s)
    = (s.mem, s.reqs, s.launches, s.groups.map (fun e => (e.1, movedGroup (s.launch (s.team team).launch) team core e.2))) := by
  have hmap : ∀ (u : State) (l : Launch), standing u = standing s →
      standing { u with groups := u.groups.map (fun e => if e.2.team = team then (e.1, { e.2 with place := .evicted (l.coreFor core e.2.gid) }) else e) }
        = (s.mem, s.reqs, s.launches, s.groups.map (fun e => (e.1, movedGroup l team core e.2))) := by
    intro u l hu
    simp only [standing, Prod.mk.injEq] at hu ⊢
    obtain ⟨hm, hr, hl, hg⟩ := hu
    refine ⟨hm, hr, hl, ?_⟩
    rw [hg]
    refine List.map_congr_left (fun e _ => ?_)
    unfold movedGroup
    split <;> rfl
  unfold moveTeam
  dsimp only
  rw [if_neg h]
  have hlit : ∀ (u v : State) (c : Prop) [Decidable c], standing u = standing s → standing v = standing s → standing (if c then u else v) = standing s :=
    fun u v c _ hu hv => by split <;> assumption
  split
  · rw [releaseCore_standing, releaseCore_standing, modTeam_standing]
    refine hmap _ _ (hlit _ _ _ ?_ ?_)
    · exact hlit _ _ _ (claimCore_standing _ _ _) rfl
    · exact hlit _ _ _ (claimCore_standing _ _ _) rfl
  · rw [releaseCore_standing, modTeam_standing]
    refine hmap _ _ (hlit _ _ _ ?_ ?_)
    · exact hlit _ _ _ (claimCore_standing _ _ _) rfl
    · exact hlit _ _ _ (claimCore_standing _ _ _) rfl

/-! ### A slot on a core for a group that has left one (R24, R30) -/

/-- Memory, the requests and the launches are as they were, and of the groups only the core that some of those in no slot wait for. -/
structure Relocated (s t : State) : Prop where
  mem : t.mem = s.mem
  reqs : t.reqs = s.reqs
  launches : t.launches = s.launches
  groups : ∃ f : Group → Group, t.groups = s.groups.map (fun e => (e.1, f e.2))
    ∧ ∀ e ∈ s.groups, f e.2 = e.2 ∨ (e.2.resident = false ∧ ∃ c, f e.2 = { e.2 with place := .evicted c })

theorem Relocated.of_standing {s t : State} (h : standing t = standing s) : Relocated s t := by
  simp only [standing, Prod.mk.injEq] at h
  obtain ⟨hm, hr, hl, hg⟩ := h
  exact ⟨hm, hr, hl, id, by simp [hg], fun _ _ => .inl rfl⟩

/-- A team none of whose groups is in a slot moves. -/
theorem Relocated.of_moveTeam {team core : Nat} {s : State} (hw : wholeEvicted s team = true) : Relocated s (moveTeam team core s) := by
  by_cases h : (s.team team).core = core
  · have he : moveTeam team core s = s := by unfold moveTeam; dsimp only; rw [if_pos h]
    rw [he]
    exact .of_standing rfl
  · have hs := moveTeam_standing team core s h
    simp only [standing, Prod.mk.injEq] at hs
    obtain ⟨hm, hr, hl, hg⟩ := hs
    refine ⟨hm, hr, hl, _, hg, fun e he => ?_⟩
    unfold movedGroup
    split
    · next ht =>
      have hres := List.all_eq_true.1 hw e he
      exact .inr ⟨by simpa [ht] using hres, _, rfl⟩
    · exact .inl rfl

theorem Relocated.then_standing {s t u : State} (h : Relocated s t) (k : standing u = standing t) : Relocated s u := by
  simp only [standing, Prod.mk.injEq] at k
  obtain ⟨hm, hr, hl, hg⟩ := k
  exact ⟨hm.trans h.mem, hr.trans h.reqs, hl.trans h.launches, by rw [hg]; exact h.groups⟩

/-- Of the groups in slots none has changed. -/
theorem filter_resident_map {f : Group → Group} {p : Nat × Group → Bool} (hp : ∀ e, e.2.resident = false → p e = false) (es : List (Nat × Group))
    (hf : ∀ e ∈ es, f e.2 = e.2 ∨ (e.2.resident = false ∧ ∃ c, f e.2 = { e.2 with place := .evicted c })) :
    (es.map (fun e => (e.1, f e.2))).filter p = es.filter p := by
  induction es with
  | nil => rfl
  | cons e es ih =>
    rw [List.map_cons, List.filter_cons, List.filter_cons, ih (fun e he => hf e (List.mem_cons_of_mem _ he))]
    rcases hf e List.mem_cons_self with h | ⟨hr, c, h⟩
    · rw [h]
    · rw [hp e hr, hp (e.1, f e.2) (by rw [h]; rfl)]
      rfl

theorem Relocated.slotGroup {s t : State} (h : Relocated s t) (core slot : Nat) : t.slotGroup core slot = s.slotGroup core slot := by
  obtain ⟨f, hg, hf⟩ := h.groups
  unfold State.slotGroup
  rw [← List.head?_filter, ← List.head?_filter, hg, filter_resident_map _ _ hf]
  intro e he
  unfold Group.resident at he
  split at he
  · cases he
  · next hp => simp [hp]

theorem Relocated.residents {s t : State} (h : Relocated s t) (core : Nat) : t.residents core = s.residents core := by
  obtain ⟨f, hg, hf⟩ := h.groups
  unfold State.residents
  rw [hg, filter_resident_map _ _ hf]
  intro e he
  unfold Group.resident at he
  split at he
  · cases he
  · simp

theorem Relocated.launch {s t : State} (h : Relocated s t) (n : Nat) : t.launch n = s.launch n := by
  unfold State.launch
  rw [h.launches]

/-- The group itself has kept its launch, its blocks and its registers. -/
theorem Relocated.get? {s t : State} (h : Relocated s t) {n : Nat} {g : Group} (hg : Tab.get? s.groups n = some g) :
    ∃ p, Tab.get? t.groups n = some { g with place := p } := by
  obtain ⟨f, he, hf⟩ := h.groups
  have ht : Tab.get? t.groups n = some (f g) := by
    rw [he, Tab.get?_mapVal s.groups (fun _ => f), hg]
    rfl
  rcases hf _ (Tab.mem_of_get? hg) with h | ⟨-, c, h⟩
  · exact ⟨g.place, ht.trans (congrArg some h)⟩
  · exact ⟨.evicted c, ht.trans (congrArg some h)⟩

theorem Relocated.noWaiters {s t : State} (h : Relocated s t) (hs : Says.NoWaiters s) : Says.NoWaiters t := by
  obtain ⟨hr, hg⟩ := (noWaiters_iff s).1 hs
  obtain ⟨f, he, hf⟩ := h.groups
  refine (noWaiters_iff t).2 ⟨h.reqs ▸ hr, fun e hm => ?_⟩
  rw [he] at hm
  obtain ⟨x, hx, rfl⟩ := List.mem_map.1 hm
  rcases hf x hx with h | ⟨-, c, h⟩
  · show (f x.2).unheld
    rw [h]
    exact hg x hx
  · show (f x.2).unheld
    rw [h]
    exact hg x hx

/-! ### A group takes its slot (R30, R275) -/

/-- A group in a slot and with registers given to it, its threads as they were. -/
def Group.seated (core slot vrow vcol grow time : Nat) (g : Group) : Group :=
  { g with place := .resident core slot, vrow := vrow, vcol := vcol, grow := grow, residentSince := time, readySince := time, readyClocks := 0 }

/-- What takes its effect where the group is, does so on its new core. -/
def withReqsOn (n core : Nat) (s : State) : State :=
  { s with reqs := s.reqs.map (fun e => if e.2.group = n then (e.1, { e.2 with core := core }) else e) }

theorem clearRegPoison_standing (core : Nat) (g : Group) (s : State) : standing (clearRegPoison core g s) = standing s :=
  (foldl_keeps standing (fun s l => clearPoison (2 ^ 47 + core * 0x100000 + (16 * g.vcol + l) * 0x1000 + 4 * g.vrow) (32 * ((g.vregs + 7) / 8)) s)
    (fun s _ => clearPoison_standing _ _ s) (List.range g.width) _).trans (clearPoison_standing _ _ s)

theorem reseat_standing {n core q vrow vcol grow : Nat} {qs : List Nat} {s : State} {g : Group} (hg : Tab.get? s.groups n = some g)
    (hfree : (List.range 16).filter (fun q => (s.slotGroup core q).isNone) = q :: qs)
    (hregs : findRegs ((s.residents core).map (fun e => e.2)) (s.launch g.launch) = some (vrow, vcol, grow)) :
    standing (reseat n core s) = (s.mem, (withReqsOn n core s).reqs, s.launches,
      Tab.put s.groups n { (g.seated core q vrow vcol grow s.time).rechoose with badRegs := [] }) := by
  have he : reseat n core s = acquireAt core 5 false (fun _ => true) (putRegPoison core (g.seated core q vrow vcol grow s.time)
      (clearRegPoison core (g.seated core q vrow vcol grow s.time)
        ((withReqsOn n core s).setGroup n { (g.seated core q vrow vcol grow s.time).rechoose with badRegs := [] }))) := by
    simp only [reseat, hg, hfree, hregs]
    rfl
  rw [he]
  exact clearRegPoison_standing core (g.seated core q vrow vcol grow s.time) _

/-- A group that takes a slot stands in it with its registers, and nothing waits that did not wait before. -/
theorem reseat_spec {n core : Nat} {s : State} {g : Group} (hg : Tab.get? s.groups n = some g)
    (hfree : (List.range 16).any (fun q => (s.slotGroup core q).isNone) = true)
    (hregs : (findRegs ((s.residents core).map (fun e => e.2)) (s.launch g.launch)).isSome = true) (hw : Says.NoWaiters s) :
    (∃ g', Tab.get? (reseat n core s).groups n = some g' ∧ g'.resident = true ∧ g'.core = core ∧ ∀ l r, g'.reg l r = g.reg l r)
      ∧ (reseat n core s).mem = s.mem ∧ Says.NoWaiters (reseat n core s) := by
  obtain ⟨q, qs, hq⟩ : ∃ q qs, (List.range 16).filter (fun q => (s.slotGroup core q).isNone) = q :: qs := by
    obtain ⟨q, hm, hn⟩ := List.any_eq_true.1 hfree
    exact List.exists_cons_of_ne_nil (List.ne_nil_of_mem (List.mem_filter.2 ⟨hm, hn⟩))
  obtain ⟨⟨vrow, vcol, grow⟩, hr⟩ := Option.isSome_iff_exists.1 hregs
  have hs := reseat_standing hg hq hr
  simp only [standing, Prod.mk.injEq] at hs
  obtain ⟨hmem, hreqs, -, hgroups⟩ := hs
  obtain ⟨hur, hug⟩ := (noWaiters_iff s).1 hw
  refine ⟨⟨_, by rw [hgroups, Tab.get?_put_self], ?_, ?_, ?_⟩, hmem, (noWaiters_iff _).2 ⟨?_, ?_⟩⟩
  · rw [Group.rechoose_eq]; rfl
  · rw [Group.rechoose_eq]; rfl
  · exact fun l r => (sameRegs_rechoose (g.seated core q vrow vcol grow s.time)).regs l r
  · rw [hreqs]
    intro e he
    obtain ⟨x, hx, rfl⟩ := List.mem_map.1 he
    split
    · exact hur x hx
    · exact hur x hx
  · rw [hgroups]
    intro e he
    rcases Tab.mem_put he with rfl | hm
    · intro b hb es any deadline dest hk x hx ho
      have hl : (g.seated core q vrow vcol grow s.time).rechoose.launch = g.launch := by rw [Group.rechoose_eq]; rfl
      have hbg : b ∈ g.blocks := (chosen_rechoose (g.seated core q vrow vcol grow s.time)).fewer b hb
      show x.watch.rank (g.seated core q vrow vcol grow s.time).rechoose.launch = none
      rw [hl]
      exact hug _ (Tab.mem_of_get? hg) b hbg es any deadline dest hk x hx ho
    · exact hug e hm

theorem groupRestore_restores {n core : Nat} {s : State} {g : Group} (hg : Tab.get? s.groups n = some g) (hm : mayRestore s n core = true)
    (hw : Says.NoWaiters s) : ∃ t g', exec (.groupRestore n core) s = .next t ∧ Tab.get? t.groups n = some g' ∧ g'.resident = true ∧ g'.core = core
      ∧ (∀ l r, g'.reg l r = g.reg l r) ∧ t.mem = s.mem := by
  have hmay := hm
  simp only [mayRestore, hg, Bool.and_eq_true, Bool.or_eq_true, beq_iff_eq] at hmay
  obtain ⟨⟨⟨⟨-, hfree⟩, hregs⟩, -⟩, hplace⟩ := hmay
  let base := (s.launch g.launch).baseFor core g.gid
  have hmoved : Relocated s (if g.core = core then s else moveTeam g.team base s) := by
    split
    · exact .of_standing rfl
    · next hne =>
      rcases hplace with hc | ⟨⟨⟨⟨⟨hwhole, -⟩, -⟩, -⟩, -⟩, -⟩
      · exact absurd hc hne
      · exact .of_moveTeam hwhole
  have hloaded : Relocated s (loadPads g.team (if g.core = core then s else moveTeam g.team base s)) := hmoved.then_standing (loadPads_standing _ _)
  have he : exec (.groupRestore n core) s = .next (wakeOwn n (reseat n core (loadPads g.team (if g.core = core then s else moveTeam g.team base s)))) := by
    show execGroupRestore n core s = _
    simp only [execGroupRestore, hm, if_true, restoreGroup, hg]
    rfl
  generalize loadPads g.team (if g.core = core then s else moveTeam g.team base s) = u at hloaded he
  obtain ⟨p, hgu⟩ := hloaded.get? hg
  obtain ⟨⟨g', hg', hres, hcore, hreg⟩, hmem, hwu⟩ := reseat_spec (n := n) (core := core) hgu
    (by simpa only [hloaded.slotGroup] using hfree) (by rw [hloaded.residents, hloaded.launch]; exact hregs) (hloaded.noWaiters hw)
  obtain ⟨hgroups, hmem'⟩ := wakeOwn_of_noWaiters hwu n
  exact ⟨_, g', he, by rw [hgroups]; exact hg', hres, hcore, hreg, by rw [hmem', hmem, hloaded.mem]⟩

end Sys2Proof.Machine
end

section
/-! PROOF. What becomes of a group that leaves or returns (spec/01 R26, R27, R29, R30, spec/10 R223, R224, R228, R230, spec/16 R328). -/

namespace Sys2Proof.Machine

/-- Settles O48: each event in turn, a group that returns by way of what the move of its team and the return of its scratchpad leave as it was, a task that is
queued again by way of what the ends of its groups leave of its launch, and a resume by the fold over the blocks that it acts on. -/
theorem groupsLeaveAndReturn : Obligations.GroupsLeaveAndReturn := by
  unfold Obligations.GroupsLeaveAndReturn
  refine ⟨fun n s g hg hf hr hp => preemptionRequest_marks hg hf hr hp,
    fun n s g hg hr hp hh hl hf hb => ⟨groupEvict_evicts hg hr hp hh hl hf hb, groupEvict_stays hg hr hp hh hl hf hb⟩,
    fun n core s g hg hm hw => groupRestore_restores hg hm hw,
    fun n s g p u x l hg hp hu hx hdet ht hl hf => txPreemptExpiry_requeues hg hp hu hx hdet ht hl hf,
    fun n s g hg hr hw => groupStarved_marks hg hr hw,
    fun core slot n reason s g hs hg hp hl hf hx hd hn => haltAtBoundary_halts hs hg hp hl hf hx hd hn,
    fun core slot v s d ha hd => haltreq_writes v ha hd,
    fun core slot n s g ha hs => ⟨fun hh hd => ⟨groupResume_of_none_woken ha hs hh hd, ?_⟩, frozenRelease_removes ha hs⟩⟩
  exact fun k b m phase dest v hb hkind hwoken hes => groupResume_ends_bar ha hs hh hd hb hkind hwoken hes

end Sys2Proof.Machine
end

section
/-! PROOF. The encoding of instruction words (spec/03 R32 to R35, R45 to R58): the fields of a word that is made of them, the row of the opcode map
that it names, and the round trip through bytes. -/

namespace Sys2Proof

/-! ### The fields of a word (R32, R34) -/

/-- A part of a part of a word. -/
theorem extractLsb'_of_extractLsb' {v : Nat} {x : BitVec v} {start len k n : Nat} (h : k + n ≤ len) :
    (x.extractLsb' start len).extractLsb' k n = x.extractLsb' (start + k) n := by
  ext j hj
  have hk : k + j < len := by omega
  simp [hk, Nat.add_assoc]

section
variable (set : BitVec 1) (s cl : BitVec 2) (op : BitVec 6) (body : BitVec 21)

/-- The body of a word is its low 21 bits. -/
theorem extractLsb'_mkWord {k n : Nat} (h : k + n ≤ 21) : (mkWord set s cl op body).extractLsb' k n = body.extractLsb' k n :=
  BitVec.extractLsb'_append_eq_of_add_le h

@[simp] theorem set_mkWord : (mkWord set s cl op body).extractLsb' 31 1 = set := by
  simp (disch := decide) [mkWord, BitVec.extractLsb'_append_eq_of_le, -Nat.reduceAdd]

@[simp] theorem fS_mkWord : fS (mkWord set s cl op body) = s := by
  simp (disch := decide) [fS, mkWord, BitVec.extractLsb'_append_eq_of_le, BitVec.extractLsb'_append_eq_of_add_le, -Nat.reduceAdd]

@[simp] theorem fCL_mkWord : fCL (mkWord set s cl op body) = cl := by
  simp (disch := decide) [fCL, mkWord, BitVec.extractLsb'_append_eq_of_le, BitVec.extractLsb'_append_eq_of_add_le, -Nat.reduceAdd]

@[simp] theorem fOP_mkWord : fOP (mkWord set s cl op body) = op := by
  simp (disch := decide) [fOP, mkWord, BitVec.extractLsb'_append_eq_of_le, BitVec.extractLsb'_append_eq_of_add_le, -Nat.reduceAdd]

@[simp] theorem fD_mkWord : fD (mkWord set s cl op body) = body.extractLsb' 14 7 := extractLsb'_mkWord _ _ _ _ _ (by decide)
@[simp] theorem fA_mkWord : fA (mkWord set s cl op body) = body.extractLsb' 7 7 := extractLsb'_mkWord _ _ _ _ _ (by decide)
@[simp] theorem fB_mkWord : fB (mkWord set s cl op body) = body.extractLsb' 0 7 := extractLsb'_mkWord _ _ _ _ _ (by decide)
@[simp] theorem fI14_mkWord : fI14 (mkWord set s cl op body) = body.extractLsb' 0 14 := extractLsb'_mkWord _ _ _ _ _ (by decide)
@[simp] theorem fI21_mkWord : fI21 (mkWord set s cl op body) = body :=
  (extractLsb'_mkWord _ _ _ _ _ (by decide)).trans BitVec.extractLsb'_eq_self
@[simp] theorem fM_mkWord : fM (mkWord set s cl op body) = body.extractLsb' 3 4 := extractLsb'_mkWord _ _ _ _ _ (by decide)
@[simp] theorem fZ_mkWord : fZ (mkWord set s cl op body) = body.extractLsb' 0 3 := extractLsb'_mkWord _ _ _ _ _ (by decide)

/-- The class and the operation of a word together. -/
@[simp] theorem slot_mkWord : (mkWord set s cl op body).extractLsb' 21 8 = cl ++ op := by
  simp (disch := decide) [mkWord, BitVec.extractLsb'_append_eq_of_le, -Nat.reduceAdd]
  simp [BitVec.extractLsb'_append_eq_ite, -Nat.reduceAdd]

@[simp] theorem getElem_31_mkWord : (mkWord set s cl op body)[31] = set[0] := by
  have := BitVec.getElem_extractLsb' (x := mkWord set s cl op body) (start := 31) (len := 1) (i := 0) (by decide)
  simpa using this.symm

end

/-! ### The operands in a body (R34): formats FR and FI, FL and FB, FM -/

section
variable (d a b : BitVec 7) (i : BitVec 14) (m : BitVec 4) (z : BitVec 3)

@[simp] theorem extractLsb'_fr_d : (d ++ a ++ b).extractLsb' 14 7 = d := by
  simp (disch := decide) [BitVec.extractLsb'_append_eq_of_le, -Nat.reduceAdd]
@[simp] theorem extractLsb'_fr_a : (d ++ a ++ b).extractLsb' 7 7 = a := by
  simp (disch := decide) [BitVec.extractLsb'_append_eq_of_le, BitVec.extractLsb'_append_eq_of_add_le, -Nat.reduceAdd]
@[simp] theorem extractLsb'_fr_b : (d ++ a ++ b).extractLsb' 0 7 = b := by
  simp (disch := decide) [BitVec.extractLsb'_append_eq_of_add_le, -Nat.reduceAdd]

@[simp] theorem extractLsb'_fl_d : (d ++ i).extractLsb' 14 7 = d := by
  simp (disch := decide) [BitVec.extractLsb'_append_eq_of_le, -Nat.reduceAdd]
@[simp] theorem extractLsb'_fl_i : (d ++ i).extractLsb' 0 14 = i := by
  simp (disch := decide) [BitVec.extractLsb'_append_eq_of_add_le, -Nat.reduceAdd]

@[simp] theorem extractLsb'_fm_d : (d ++ a ++ m ++ z).extractLsb' 14 7 = d := by
  simp (disch := decide) [BitVec.extractLsb'_append_eq_of_le, -Nat.reduceAdd]
@[simp] theorem extractLsb'_fm_a : (d ++ a ++ m ++ z).extractLsb' 7 7 = a := by
  simp (disch := decide) [BitVec.extractLsb'_append_eq_of_le, BitVec.extractLsb'_append_eq_of_add_le, -Nat.reduceAdd]
@[simp] theorem extractLsb'_fm_m : (d ++ a ++ m ++ z).extractLsb' 3 4 = m := by
  simp (disch := decide) [BitVec.extractLsb'_append_eq_of_le, BitVec.extractLsb'_append_eq_of_add_le, -Nat.reduceAdd]
@[simp] theorem extractLsb'_fm_z : (d ++ a ++ m ++ z).extractLsb' 0 3 = z := by
  simp (disch := decide) [BitVec.extractLsb'_append_eq_of_add_le, -Nat.reduceAdd]

/-- DIGEST.fold stands beside DIGEST in one operation: its body is not zero below D (R201). -/
theorem extractLsb'_fold_ne_zero : (d ++ a ++ 1#7).extractLsb' 0 14 ≠ 0#14 := by
  intro h
  have hb : ((d ++ a ++ 1#7).extractLsb' 0 14).extractLsb' 0 7 = 1#7 :=
    (BitVec.extractLsb'_extractLsb'_of_le (by decide)).trans (extractLsb'_fr_b d a 1#7)
  rw [h] at hb
  exact absurd hb (by decide)

end

/-! ### The row of the opcode map that a word names (R46 to R55) -/

/-- The row of the opcode map at a set, a class and an operation, applied to a word. -/
def mapRow (set : BitVec 1) (cl : BitVec 2) (op : BitVec 6) (w : Word) : Option Instr :=
  if set = 0#1 then
    match cl.toNat with
    | 0 => decodeL00 op.toNat w
    | 1 => decodeL01 op.toNat w
    | 2 => decodeL10 op.toNat w
    | _ => decodeL11 op.toNat w
  else
    match cl.toNat with
    | 0 => decodeG00 op.toNat w
    | 1 => decodeG01 op.toNat w
    | 2 => decodeG10 op.toNat w
    | _ => decodeG11 op.toNat w

theorem decodeDefined_eq_mapRow (w : Word) : decodeDefined w = mapRow (w.extractLsb' 31 1) (fCL w) (fOP w) w := rfl

theorem decodeDefined_mkWord (set : BitVec 1) (s cl : BitVec 2) (op : BitVec 6) (body : BitVec 21) :
    decodeDefined (mkWord set s cl op body) = mapRow set cl op (mkWord set s cl op body) := by
  rw [decodeDefined_eq_mapRow, set_mkWord, fCL_mkWord, fOP_mkWord]

/-- The word of every instruction of the L-set decodes to it (R46 to R52): the rows of one form, RAND, and the rows with a sub-operation or with
fields that are fixed. -/
theorem decodeDefined_wordOf_lSet {i : Instr} (h : i.isG = false ∧ encode i = [wordOf i]) (hr : ∀ w, i ≠ .reservedSlot w) :
    decodeDefined (wordOf i) = some i := by
  cases i with
  | iadd | isub | imul | imulhi | nmulhi | imad | and | or | xor | andn | shl | shr | sar | rotl | imin | imax | nmin | nmax | islt | isle | nslt
  | nsle | ieq | ine | sel | fadd | fsub | fmul | ffma | fmin | fmax | fslt | fsle | fseq | fsne | fsun | fldexp | badd2 | bmul2 | bfma2 | bdot2
  | iadd64 | isub64 | imadw | nmadw | shl64 | shr64 | shfl | shflx | shflu | shfld | iaddi | andi | ori | xori | shli | shri | sari | rotli | islti
  | ieqi | shl64i | shr64i | add64i | cvtf | cvti | qcvt | bmaxa | movi | rds | ld | lds | st | ldk | ldga | ldx | stx | ldl | stl | atadd | atmin
  | atmax | atand | ator | atxor | atxch | atcas | redadd | redmin | redmax | redand | redor | redxor | append | appendt | latadd | latmin | latmax
  | latcas | bra | bnz | bz | call | meet | trapl | bkptl =>
    refine (decodeDefined_mkWord _ _ _ _ _).trans (congrArg some ?_)
    simp
  | rand =>
    refine (decodeDefined_mkWord _ _ _ _ _).trans (congrArg some ?_)
    simp (disch := decide) [extractLsb'_mkWord, BitVec.extractLsb'_append_eq_of_le, BitVec.extractLsb'_append_eq_of_add_le,
      -Nat.reduceAdd]
  | not | neg | abs | clz | popc | brev | sext8 | sext16 | zext8 | zext16 | fneg | fabs | frcp | frsq | fsqrt | fexp2 | flog2 | fsin | fcos | ftanh
  | ferf | ffloor | fceil | ftrunc | frint | cvtt | pack | unpk | scalef | pref | ldw | ldc | stf | stfs | feset | feget | callr | ret | jmpr
  | exit | nop =>
    refine (decodeDefined_mkWord _ _ _ _ _).trans ?_
    simp (disch := decide) [mapRow, decodeL01, decodeL10, decodeL11, extractLsb'_mkWord, BitVec.extractLsb'_append_eq_of_le,
      BitVec.extractLsb'_append_eq_of_add_le, -Nat.reduceAdd]
  | reservedSlot w => exact absurd rfl (hr w)
  | _ => exact absurd h (by rintro ⟨⟨⟩, ⟨⟩⟩)

/-- The word of every instruction of the G-set decodes to it, but that MWRITE and MSTAT stand outside the map (R53 to R55, R306 to R314): the rows of
one form, the loads and stores, and the rows with a sub-operation or with fields that are fixed. -/
theorem decodeDefined_wordOf_gSet {i : Instr} (h : i.isG = true ∧ encode i = [wordOf i]) (hw : ∀ s d c a, i ≠ .mwrite s d c a)
    (hs : ∀ s d, i ≠ .mstat s d) : decodeDefined (wordOf i) = some i := by
  cases i with
  | gadd | gsub | gmul | gmulhi | gnmulhi | gand | gor | gxor | gshl | gshr | gsar | gmin | gmax | gnmin | gnmax | gslt | gsle | gnslt | gnsle
  | geq | gne | gsel | gadd64 | gsub64 | gshl64 | gshr64 | gmadw | lread | lwrite | gfadd | gfmul | gffma | gfmin | gfmax | gfslt | gmovi | gaddi
  | gandi | gori | gshli | gshri | glui | grds | gwrs | wait | jpost | ttload | ttset | gbra | gbnz | gbz | trap | bkpt =>
    refine (decodeDefined_mkWord _ _ _ _ _).trans (congrArg some ?_)
    simp
  | gld | gst | gldk =>
    refine (decodeDefined_mkWord _ _ _ _ _).trans (congrArg some ?_)
    simp (disch := decide) [extractLsb'_mkWord, BitVec.extractLsb'_append_eq_of_le, BitVec.extractLsb'_append_eq_of_add_le,
      -Nat.reduceAdd]
  | lballot | lany | lall | lsum | lfsum | lmax | lmin | lfmax | lpopc | lfirst | fence | barWait | barArrive | yield | gatom | cpy | cpyq
  | cpystat | sealPage | txbegin | txcommit | txcommitForce | txabort | txstat | setpk | getpk | rdtime | digest | gexit | trapret | gnop | mloadb
  | mloop | mloopg | mfence | mzero | mstore | mread =>
    refine (decodeDefined_mkWord _ _ _ _ _).trans ?_
    simp (disch := decide) [mapRow, decodeG00, decodeG10, decodeG11, extractLsb'_mkWord, BitVec.extractLsb'_append_eq_of_le,
      BitVec.extractLsb'_append_eq_of_add_le, -Nat.reduceAdd]
  | digestFold s d a =>
    refine (decodeDefined_mkWord _ _ _ _ _).trans ?_
    simp [mapRow, decodeG10, extractLsb'_mkWord, extractLsb'_fold_ne_zero]
  | mwrite s d c a => exact absurd rfl (hw s d c a)
  | mstat s d => exact absurd rfl (hs s d)
  | _ => exact absurd h (by rintro ⟨⟨⟩, ⟨⟩⟩)

/-! ### MWRITE, MSTAT and EXT, which stand outside the map (R54, R311, R314) -/

theorem decodeWord_of_decodeDefined {w : Word} {i : Instr} (h : decodeDefined w = some i) : decodeWord w = i := by
  simp only [decodeWord, h]

theorem decodeWord_of_isMwriteWord {w : Word} (hn : decodeDefined w = none) (h : isMwriteWord w = true) :
    decodeWord w = .mwrite (fS w) (fD w) (w.extractLsb' 11 3) (w.extractLsb' 4 7) := by
  simp only [decodeWord, hn, h, if_true]

theorem decodeWord_of_isMstatWord {w : Word} (hn : decodeDefined w = none) (h : isMstatWord w = true) :
    decodeWord w = .mstat (fS w) (fD w) := by
  simp only [decodeWord, hn, Machine.isMwriteWord_of_isMstatWord h, h, if_true, Bool.false_eq_true, if_false]

theorem decodeWord_mwrite (s : BitVec 2) (d : BitVec 7) (c : BitVec 3) (a : BitVec 7) :
    decodeWord (wordOf (.mwrite s d c a)) = .mwrite s d c a := by
  refine (decodeWord_of_isMwriteWord (w := mkWord 1#1 s 3#2 0x17#6 (d ++ c ++ a ++ 0#4)) (decodeDefined_mkWord _ _ _ _ _) ?_).trans ?_ <;>
  simp (disch := decide) [isMwriteWord, extractLsb'_mkWord, BitVec.extractLsb'_append_eq_of_le, BitVec.extractLsb'_append_eq_of_add_le,
    -Nat.reduceAdd]

theorem decodeWord_mstat (s : BitVec 2) (d : BitVec 7) : decodeWord (wordOf (.mstat s d)) = .mstat s d := by
  refine (decodeWord_of_isMstatWord (w := mkWord 1#1 s 3#2 0x18#6 (d ++ 0#14)) (decodeDefined_mkWord _ _ _ _ _) ?_).trans ?_ <;>
  simp [isMstatWord, extractLsb'_mkWord]

/-- The word of every instruction word decodes to it, unless it is the word of no row. -/
theorem decodeWord_wordOf {i : Instr} (h : encode i = [wordOf i]) (hr : ∀ w, i ≠ .reservedSlot w) : decodeWord (wordOf i) = i := by
  cases hG : i.isG with
  | false => exact decodeWord_of_decodeDefined (decodeDefined_wordOf_lSet ⟨hG, h⟩ hr)
  | true =>
    by_cases hw : ∃ s d c a, i = .mwrite s d c a
    · obtain ⟨s, d, c, a, rfl⟩ := hw
      exact decodeWord_mwrite s d c a
    · by_cases hs : ∃ s d, i = .mstat s d
      · obtain ⟨s, d, rfl⟩ := hs
        exact decodeWord_mstat s d
      · exact decodeWord_of_decodeDefined (decodeDefined_wordOf_gSet ⟨hG, h⟩ (fun s d c a e => hw ⟨s, d, c, a, e⟩)
          (fun s d e => hs ⟨s, d, e⟩))

/-- EXT is in no row that decodes one word. -/
theorem decodeDefined_of_isExtWord {w : Word} (h : isExtWord w = true) : decodeDefined w = none := by
  simp only [isExtWord, Bool.and_eq_true, beq_iff_eq] at h
  obtain ⟨hset, hslot⟩ := h
  have hset' : w.extractLsb' 31 1 = 1#1 := BitVec.eq_of_getLsbD_eq_iff.2 (by simpa using hset)
  have hcl : fCL w = 1#2 := by
    rw [fCL, ← extractLsb'_of_extractLsb' (x := w) (start := 21) (len := 8) (k := 6) (by decide), hslot]; rfl
  have hop : fOP w = 0x3F#6 := by
    rw [fOP, ← extractLsb'_of_extractLsb' (x := w) (start := 21) (len := 8) (k := 0) (by decide), hslot]; rfl
  rw [decodeDefined_eq_mapRow, hset', hcl, hop]; rfl

theorem decodeWord_of_isExtWord {w : Word} (h : isExtWord w = true) : decodeWord w = .reservedSlot w := by
  have hslot : w.extractLsb' 21 8 = 0x7F#8 := by
    simp only [isExtWord, Bool.and_eq_true, beq_iff_eq] at h
    exact h.2
  simp [decodeWord, decodeDefined_of_isExtWord h, isMwriteWord, isMstatWord, hslot]

/-- A word that decodes to an instruction of its own is not EXT. -/
theorem isExtWord_wordOf {i : Instr} (h : encode i = [wordOf i]) (hr : ∀ w, i ≠ .reservedSlot w) : isExtWord (wordOf i) = false := by
  rw [← Bool.not_eq_true]
  intro hx
  exact hr _ ((decodeWord_wordOf h hr).symm.trans (decodeWord_of_isExtWord hx))

theorem isExtWord_ext (s : BitVec 2) (e : BitVec 21) : isExtWord (mkWord 1#1 s 1#2 0x3F#6 e) = true := by
  simp [isExtWord]

/-! ### Words in memory (R33, R35, R58) -/

theorem wordOfBytes_bytesOfWord (w : Word) :
    wordOfBytes (w.extractLsb' 0 8) (w.extractLsb' 8 8) (w.extractLsb' 16 8) (w.extractLsb' 24 8) = w := by
  simp only [wordOfBytes, BitVec.extractLsb'_append_extractLsb'_eq_extractLsb' (x := w) (start₁ := 16) (len₁ := 8) rfl,
    BitVec.extractLsb'_append_extractLsb'_eq_extractLsb' (x := w) (start₁ := 8) (len₁ := 8) rfl,
    BitVec.extractLsb'_append_extractLsb'_eq_extractLsb' (x := w) (start₁ := 0) (len₁ := 8) rfl, BitVec.extractLsb'_eq_self]

/-- A word that is not EXT is decoded alone (R35). -/
theorem decodeBytes_word {w : Word} (h : isExtWord w = false) (rest : List Byte) :
    decodeBytes (bytesOfWord w ++ rest) = .ok (decodeWord w, rest) := by
  simp only [bytesOfWord, List.cons_append, List.nil_append, decodeBytes, wordOfBytes_bytesOfWord, h, Bool.false_eq_true, if_false]

/-- EXT takes its follower with it, whatever it is (R58). -/
theorem decodeBytes_pair {w : Word} (h : isExtWord w = true) (f : Word) (rest : List Byte) :
    decodeBytes (bytesOfWord w ++ (bytesOfWord f ++ rest)) = .ok (.ext (fS w) (fI21 w) f, rest) := by
  simp only [bytesOfWord, List.cons_append, List.nil_append, decodeBytes, wordOfBytes_bytesOfWord, h, if_true]

/-- An instruction word that issues for the group at the turn, as the checks of R45 find it. -/
def IssuesAsWord (i : Instr) : Prop :=
  ∃ f body, f.word = wordOf i ∧ (∀ sh, f.detail sh = illegalDetail sh i) ∧ ∀ s, Machine.exec i s = Machine.issueForm f none body s

theorem issuesAsWord_of_issue {i : Instr} {body : Machine.Ctx → Machine.State → Machine.Res}
    (h : ∀ s, Machine.exec i s = Machine.issue i none body s) : IssuesAsWord i :=
  ⟨Machine.formOf i, body, rfl, fun _ => rfl, h⟩

/-- The forms of MWRITE and MSTAT are checked as the rest is (R45): neither has a field to check but its registers. -/
theorem mwriteForm_detail (s : BitVec 2) (d : BitVec 7) (c : BitVec 3) (a : BitVec 7) (sh : Shape) :
    (Machine.mwriteForm s d c a).detail sh = illegalDetail sh (.mwrite s d c a) := by
  show (if regsOk sh [yS d, gS a] then none else some 2) = if !regsOk sh [yS d, gS a] then some 2 else none
  cases regsOk sh [yS d, gS a] <;> rfl

theorem mstatForm_detail (s : BitVec 2) (d : BitVec 7) (sh : Shape) : (Machine.mstatForm s d).detail sh = illegalDetail sh (.mstat s d) := by
  show (if regsOk sh [gD d] then none else some 2) = if !regsOk sh [gD d] then some 2 else none
  cases regsOk sh [gD d] <;> rfl

/-- A step of the device has no word, EXT has its follower with it, and every other instruction is one word (R33, R56, R58). -/
theorem encode_cases (i : Instr) :
    encode i = [] ∨ (∃ s e w, i = .ext s e w) ∨ (∃ w, i = .reservedSlot w) ∨ (encode i = [wordOf i] ∧ IssuesAsWord i) := by
  cases i with
  | deviceQueueTake | clusterQueueTake | teamPlace | groupRestore | preemptionRequest | groupEvict | pendingWriteLands | sliceStorePerform
  | sliceAtomicPerform | sliceAppendPerform | sliceSealPerform | sliceFeAccess | leaseExpiry | groupStarved | waitTimeout | waitPoll | fePollTry
  | feTimeout | gatePoll | placementWaitExpiry | launchQuiet | haltAtBoundary | carterStart | carterPayloadComplete | carterCompletionWord
  | carterPoison | loomStepGrant | loomCommandRetire | txPreemptExpiry | overflowInterval | hardwarePrefetch | replicaDrop | peerRequestArrive
  | peerTimeout | myentRead | myentPostedWrite | myentFetchAdd | myentCompareAndSwap | queueTailWrite | queueEnable | kill | cartrel | resdone
  | freepg | freePageDone | l2quota | assayclr | assayTableEmpty | haltreq | groupResume | frozenRelease | clkctl | clockChangeApply | droopDetect
  | droopFloorRelease | currentInterval | thermalLevelChange | smhb | smctl | watchdogExpiry | railStepUp | guardBandDown | migreq | ueSend
  | ueTaggedSend | uePut | ueGet | uePostTaggedReceive | uePostReceive | uePacketArrive | ueCardComplete | correctedError | uncorrectableError
  | patrolScrub | reset | stageAReady | bootctl | stageBComplete | attctl | attestationReportReady | registerWrite | loomStepRetire
  | peerAcknowledgement | hostAcknowledgement | linkLevelRetry => exact .inl rfl
  | ext s e w => exact .inr (.inl ⟨s, e, w, rfl⟩)
  | reservedSlot w => exact .inr (.inr (.inl ⟨w, rfl⟩))
  | mwrite s d c a =>
    exact .inr (.inr (.inr ⟨rfl, Machine.mwriteForm s d c a, _, rfl, mwriteForm_detail s d c a, fun _ => rfl⟩))
  | mstat s d =>
    exact .inr (.inr (.inr ⟨rfl, Machine.mstatForm s d, _, rfl, mstatForm_detail s d, fun _ => rfl⟩))
  | _ => exact .inr (.inr (.inr ⟨rfl, issuesAsWord_of_issue fun _ => rfl⟩))

/-- Settles O58, by the words of the instruction: none, one that its row of the opcode map decodes, or EXT with its follower. -/
theorem decodeEncodeRoundTrip : Obligations.DecodeEncodeRoundTrip := by
  intro i rest hwf hne
  rcases encode_cases i with h | ⟨s, e, w, rfl⟩ | ⟨w, rfl⟩ | ⟨h, -⟩
  · exact absurd h hne
  · rw [encodeBytes, show encode (.ext s e w) = [mkWord 1#1 s 1#2 0x3F#6 e, w] from rfl, List.flatMap_cons, List.flatMap_singleton,
      List.append_assoc, decodeBytes_pair (isExtWord_ext s e), fS_mkWord, fI21_mkWord]
  · exact absurd hwf Bool.false_ne_true
  · have hr : ∀ w, i ≠ .reservedSlot w := by
      rintro w rfl
      exact absurd hwf Bool.false_ne_true
    rw [encodeBytes, h, List.flatMap_singleton, decodeBytes_word (isExtWord_wordOf h hr), decodeWord_wordOf h hr]

/-- Settles O57: each word is evaluated. -/
theorem specWordsDecode : Obligations.SpecWordsDecode := by
  unfold Obligations.SpecWordsDecode
  exact ⟨rfl, rfl, rfl, rfl, rfl, rfl, rfl, rfl, rfl, rfl, rfl, rfl, rfl⟩

end Sys2Proof
end

section
/-! PROOF. EXT pairs whose follower computes (spec/03 R36, R57 to R59): the results of the immediate forms of the L-set and of the uniform
arithmetic, behind EXT or alone. -/

namespace Sys2Proof.Machine

open Says

/-! ### Results of one register, of a pair and of a G register -/

section
variable {i : Instr} {p : Prefix} {body : Ctx → State → Res} {s : State} {at_ : Site} {g : Group}

/-- A result in V register D of every issuing lane. -/
theorem issue_writes_v (d : BitVec 7) (x : Nat → Word) (h : Issues i p s at_ g) (hlat : i.latency ≠ 0)
    (hb : ∀ st, body (ctxOf i s at_ g) st = .ok ((ctxOf i s at_ g).write ((LaneSet.toList at_.lanes).map (fun l => wV l d (x l))) st)) :
    ∃ t, issue i p body s = .next t ∧ Writes at_.gid (laneWrites at_ (fun l => [(Reg.v d.toNat, x l)])) s t ∧ IssueFrame at_ s t :=
  issue_lane_writes _ h hlat (by simp) (by simp) (fun st => by rw [hb, List.map_eq_flatMap]; rfl)

/-- A result in the V pair D of every issuing lane. -/
theorem issue_writes_v64 (d : BitVec 7) (x : Nat → DWord) (h : Issues i p s at_ g) (hlat : i.latency ≠ 0)
    (hb : ∀ st, body (ctxOf i s at_ g) st = .ok ((ctxOf i s at_ g).write ((LaneSet.toList at_.lanes).flatMap (fun l => wV64 l d (x l))) st)) :
    ∃ t, issue i p body s = .next t ∧ Writes at_.gid (laneWrites at_ (fun l => pairOf .v d (x l))) s t ∧ IssueFrame at_ s t :=
  issue_lane_writes _ h hlat (by simp [pairOf]) (by simp [pairOf]) hb

/-- A result in G register D. -/
theorem issue_writes_g (d : BitVec 7) (x : Word) (h : Issues i p s at_ g) (hlat : i.latency ≠ 0)
    (hb : ∀ st, body (ctxOf i s at_ g) st = .ok ((ctxOf i s at_ g).write [wG d x] st)) :
    ∃ t, issue i p body s = .next t ∧ Writes at_.gid (fun _ => [(Reg.g d.toNat, x)]) s t ∧ IssueFrame at_ s t := by
  obtain ⟨t, ht, hf, hr⟩ := issue_writes [wG d x] h hlat (by simp [wG]) hb
  refine ⟨t, ht, fun l r => ?_, hf⟩
  rw [hr, ← lastWrite_asWrites l [(Reg.g d.toNat, x)] (by simp) r]; rfl

/-- D := f(a) in every issuing lane (R103). -/
theorem laneUn_writes {f : Word → Word} {d a : BitVec 7} (x : Nat → Word) (h : Issues i p s at_ g) (hlat : i.latency ≠ 0)
    (hx : ∀ l, f (g.val l a) = x l) :
    ∃ t, issue i p (laneUn f d a) s = .next t ∧ Writes at_.gid (laneWrites at_ (fun l => [(Reg.v d.toNat, x l)])) s t ∧ IssueFrame at_ s t :=
  issue_writes_v d x h hlat (fun st => by simp only [laneUn, ctxOf_val, hx]; rfl)

/-- The pair D := f(pair A) in every issuing lane (R103). -/
theorem laneUn64_writes {f : DWord → DWord} {d a : BitVec 7} (x : Nat → DWord) (h : Issues i p s at_ g) (hlat : i.latency ≠ 0)
    (hx : ∀ l, f (g.val64 l a) = x l) :
    ∃ t, issue i p (laneUn64 f d a) s = .next t ∧ Writes at_.gid (laneWrites at_ (fun l => pairOf .v d (x l))) s t ∧ IssueFrame at_ s t :=
  issue_writes_v64 d x h hlat (fun st => by simp only [laneUn64, ctxOf_val64, hx]; rfl)

/-- G[D] := f(G[A]) (R159). -/
theorem uniUn_writes {f : Word → Word} {d a : BitVec 7} (x : Word) (h : Issues i p s at_ g) (hlat : i.latency ≠ 0) (hx : f (g.gval a) = x) :
    ∃ t, issue i p (uniUn f d a) s = .next t ∧ Writes at_.gid (fun _ => [(Reg.g d.toNat, x)]) s t ∧ IssueFrame at_ s t :=
  issue_writes_g d x h hlat (fun st => by simp only [uniUn, ctxOf_gv, hx])

end

/-! ### The immediate forms behind EXT -/

/-- ISLTI compares A, sign-extended, with the 64-bit immediate (R36, R103). -/
theorem flag_slt_signExtend (v : Word) (n : DWord) : flag ((v.signExtend 64).slt n) = if v.toInt < n.toInt then 1#32 else 0#32 := by
  simp [flag, BitVec.slt, BitVec.toInt_signExtend_of_le]

/-- A pair whose follower takes the bits of EXT is that follower with them (R57, R58). -/
theorem exec_ext_of_formPrefixed {e : BitVec 21} {i : Instr} {s : State} {r : Host.Outcome State Fault Refusal}
    (hd : decodeDefined (wordOf i) = some i) (hr : formPrefixed e i s = some r) : exec (.ext 0#2 e (wordOf i)) s = r := by
  have hx : isExtWord (wordOf i) = false := by
    rw [← Bool.not_eq_true]
    intro hx
    rw [decodeDefined_of_isExtWord hx] at hd
    cases hd
  show execExt 0#2 e (wordOf i) s = r
  simp [execExt, hx, hd, hr]

theorem ext_laneImmediate {e : BitVec 21} {i : Instr} {s : State} {at_ : Site} {g : Group} {ws : Nat → List (Reg × Word)}
    (hd : decodeDefined (wordOf i) = some i) (h : Issues i (some e) s at_ g) (hws : laneImmediate i (some e) g = some ws) :
    ∃ t, exec (.ext 0#2 e (wordOf i)) s = .next t ∧ Writes at_.gid (laneWrites at_ ws) s t ∧ IssueFrame at_ s t := by
  cases i with
  | iaddi | andi | ori | xori =>
    obtain rfl := Option.some.inj hws
    rw [exec_ext_of_formPrefixed hd rfl]
    exact laneUn_writes _ h Nat.one_ne_zero (fun _ => rfl)
  | islti =>
    obtain rfl := Option.some.inj hws
    rw [exec_ext_of_formPrefixed hd rfl]
    exact laneUn_writes _ h Nat.one_ne_zero (fun _ => flag_slt_signExtend _ _)
  | ieqi =>
    obtain rfl := Option.some.inj hws
    rw [exec_ext_of_formPrefixed hd rfl]
    exact laneUn_writes _ h Nat.one_ne_zero (fun _ => by simp [flag, lo32])
  | add64i =>
    obtain rfl := Option.some.inj hws
    rw [exec_ext_of_formPrefixed hd rfl]
    exact laneUn64_writes _ h Nat.one_ne_zero (fun _ => rfl)
  | movi =>
    obtain rfl := Option.some.inj hws
    rw [exec_ext_of_formPrefixed hd rfl]
    exact issue_writes_v _ _ h Nat.one_ne_zero (fun _ => rfl)
  | _ => nomatch hws

theorem ext_uniformImmediate {e : BitVec 21} {i : Instr} {s : State} {at_ : Site} {g : Group} {ws : List (Reg × Word)}
    (hd : decodeDefined (wordOf i) = some i) (h : Issues i (some e) s at_ g) (hws : uniformImmediate i (some e) g = some ws) :
    ∃ t, exec (.ext 0#2 e (wordOf i)) s = .next t ∧ Writes at_.gid (fun _ => ws) s t ∧ IssueFrame at_ s t := by
  cases i with
  | gmovi =>
    obtain rfl := Option.some.inj hws
    rw [exec_ext_of_formPrefixed hd rfl]
    exact issue_writes_g _ _ h Nat.one_ne_zero (fun _ => rfl)
  | gaddi | gandi | gori =>
    obtain rfl := Option.some.inj hws
    rw [exec_ext_of_formPrefixed hd rfl]
    exact uniUn_writes _ h Nat.one_ne_zero rfl
  | _ => nomatch hws

/-- Settles O3: the follower runs with the bits of its EXT, and its body writes what its row of results says. -/
theorem extPairResults : Obligations.ExtPairResults := by
  unfold Obligations.ExtPairResults
  exact fun e i s at_ g hd h => ⟨fun ws => ext_laneImmediate hd h, fun ws => ext_uniformImmediate hd h⟩

end Sys2Proof.Machine
end

section
/-! PROOF. Traps that a handler takes (spec/10 R212 to R219), and the words that R45 finds defective: the whole issue set enters the handler before
any effect. -/

namespace Sys2Proof.Machine

open Says

/-! ### The entry of the handler (R212, R217) -/

/-- What the special registers of a group say of it, one by one. -/
theorem Group.fields_of_specials {g g' : Group} (h : g'.specials = g.specials) :
    g'.handler = g.handler ∧ g'.trapcause = g.trapcause ∧ g'.traplanes = g.traplanes ∧ g'.trapaddr = g.trapaddr ∧ g'.trapword = g.trapword
      ∧ g'.trapf = g.trapf ∧ g'.trappc = g.trappc ∧ g'.hset = g.hset ∧ g'.trapvec = g.trapvec ∧ g'.frozen = g.frozen := by
  simp only [Group.specials, Prod.mk.injEq, List.cons.injEq, and_true] at h
  obtain ⟨⟨-, -, hvec, hcause, hpc, hword, hf, haddr⟩, ⟨-, hhandler, hfrozen⟩, hlanes, hhset⟩ := h
  have hnarrow : ∀ x y : Word, x.zeroExtend 64 = y.zeroExtend 64 → x = y := by
    intro x y he
    have := congrArg (BitVec.setWidth 32) he
    simpa using this
  have hcause' : g'.trapcause = g.trapcause := by
    have := congrArg (fun w : Word => w.extractLsb' 0 17) (hnarrow _ _ hcause)
    simpa (disch := decide) [Group.trapcauseWord, BitVec.extractLsb'_append_eq_of_add_le, -Nat.reduceAdd] using this
  exact ⟨hhandler, hcause', hlanes, haddr, hnarrow _ _ hword, hf, hpc, hhset, hvec, hfrozen⟩

/-- A group as a cause that runs its handler leaves it (R217): the trap registers written, its issue set at TRAPVEC. -/
def enteredGroup (at_ : Site) (c : Cause) (g : Group) : Group :=
  Group.modLanes { g with
    dues := [], trapcause := causeBits c.why.code c.detail at_.pfx.isSome, handler := true, entered := c.why.code, traplanes := c.lanes,
    trapaddr := c.addr, trapword := at_.word, trapf := trapF at_.pfx at_.word,
    trappc := (if c.why = .trap ∨ c.why = .ladderExhausted then at_.next else at_.pc), hset := at_.lanes }
    at_.lanes (fun _ t => { t with pc := g.trapvec })

/-- A user-level cause runs the handler of a group that has one and is not in it. -/
theorem takeCause_eq_enteredGroup {at_ : Site} {c : Cause} {s : State} {g : Group} (hg : Tab.get? s.groups at_.gid = some g)
    (hf : g.frozen = false) (hu : c.why.user = true) (hh : g.handler = false) (hv : g.trapvec ≠ 0#64) :
    takeCause at_ c at_.lanes s = s.setGroup at_.gid (enteredGroup at_ c g) := by
  simp [takeCause, hg, hf, hu, hh, hv, enteredGroup]

theorem enteredGroup_threads (at_ : Site) (c : Cause) (g : Group) (l : Nat) :
    (enteredGroup at_ c g).thread l = if at_.lanes.has l ∧ l < g.threads.length then { g.thread l with pc := g.trapvec } else g.thread l :=
  Group.thread_modLanes _ _ _ _

theorem enteredGroup_reg (at_ : Site) (c : Cause) (g : Group) (l : Nat) (r : Reg) : (enteredGroup at_ c g).reg l r = g.reg l r := by
  refine (Group.reg_modLanes _ at_.lanes (fun _ t => { t with pc := g.trapvec }) (fun _ _ => rfl) l r).trans ?_
  cases r <;> rfl

/-- What the choice of the next issue set keeps of the threads and blocks outside an issue set is kept from any group that agrees there. -/
theorem OthersKept.of_chosen {lanes : LaneSet} {g g1 g' : Group} (ht : ∀ l, lanes.has l = false → g1.thread l = g.thread l)
    (hb : g1.blocks = g.blocks) (h : Chosen g1 g') : OthersKept lanes g g' :=
  ⟨fun l hl => ht l hl ▸ h.calls l, fun l hl hy => by rw [← ht l hl] at hy ⊢; exact h.pcs l (hb ▸ hy),
   fun k b hk hy => h.blocks k b (hb ▸ hk) (hb ▸ hy)⟩

/-- An issue set enters the handler of its group, and nothing outside the group changes. -/
theorem finishIssue_takeCause_entered {at_ : Site} {c : Cause} {s : State} {g : Group} (hg : Tab.get? s.groups at_.gid = some g)
    (hlen : ∀ l, at_.lanes.has l = true → l < g.threads.length) (hf : g.frozen = false) (hu : c.why.user = true) (hh : g.handler = false)
    (hv : g.trapvec ≠ 0#64) :
    Entered at_ g c.why.code c.detail c.lanes c.addr (if c.why = .trap ∨ c.why = .ladderExhausted then at_.next else at_.pc)
        (finishIssue at_ (takeCause at_ c at_.lanes s))
      ∧ SameOutside at_.gid s (finishIssue at_ (takeCause at_ c at_.lanes s)) := by
  rw [takeCause_eq_enteredGroup hg hf hu hh hv]
  obtain ⟨ho, g', hg', hr, hc⟩ := finishIssue_spec at_ (s.setGroup at_.gid (enteredGroup at_ c g)) (Tab.get?_put_self _ _ _)
  obtain ⟨hhandler, hcause, hlanes, haddr, hword, htf, hpc, hhset, hvec, hfrozen⟩ := Group.fields_of_specials hr.specials
  refine ⟨⟨g', hg', hhandler, hcause, hlanes, haddr, hword, htf, hpc, hhset, hvec, hfrozen.trans hf, fun l hl hw => ?_, fun l r => ?_, ?_⟩,
    (sameOutside_setGroup s _ _).trans ho⟩
  · have ht : (enteredGroup at_ c g).thread l = { g.thread l with pc := g.trapvec } := by
      rw [enteredGroup_threads, if_pos ⟨hl, hlen l hl⟩]
    have := (hc.pcs l (fun e _ _ => by rw [ht, hw]; exact Wait.noConfusion)).1
    rw [this, ht]
  · rw [hr.regs, enteredGroup_reg]
  · exact .of_chosen (g1 := enteredGroup at_ c g) (fun l hl => by rw [enteredGroup_threads, if_neg (by simp [hl])]) rfl hc

/-! ### Defective words (R45, R56, R100) -/

/-- A word that R45 finds defective, where nothing else comes before it, traps with the detail found. -/
theorem issueForm_of_detail {f : Form} {p : Prefix} {body : Ctx → State → Res} {s : State} {at_ : Site} {g : Group} {d : Nat}
    (hsite : siteOf s f.word p = some (at_, g)) (hhalt : haltDue s g = none) (hpc : pcMatch s g at_.pc at_.lanes = none)
    (hsus : suspended s at_.gid g = false) (hpops : owedPops s at_ g = []) (hd : f.detail (shapeOf s g) = some d) :
    issueForm f p body s = .next (finishIssue at_ (takeCause at_ { why := .illegalOp, detail := d, lanes := at_.lanes, addr := 0#64 } at_.lanes
      (s.setGroup at_.gid g))) := by
  simp [issueForm, hsite, issueAt, hsus, hhalt, hpc, hpops, hd, dataMatch_nil, pickCause_nil]

/-- Such a word enters the handler with its whole issue set. -/
theorem issueForm_of_detail_entered {f : Form} {p : Prefix} {body : Ctx → State → Res} {s : State} {at_ : Site} {g : Group} {d : Nat}
    (hsite : siteOf s f.word p = some (at_, g)) (hhalt : haltDue s g = none) (hpc : pcMatch s g at_.pc at_.lanes = none)
    (hsus : suspended s at_.gid g = false) (hpops : owedPops s at_ g = []) (hd : f.detail (shapeOf s g) = some d) (hh : g.handler = false)
    (hv : g.trapvec ≠ 0#64) :
    ∃ t, issueForm f p body s = .next t ∧ Entered at_ g 0x01 d at_.lanes 0#64 at_.pc t ∧ t.mem = s.mem := by
  obtain ⟨-, -, -, -, hf, -, -, -, hlen⟩ := siteOf_spec hsite
  obtain ⟨he, ho⟩ := finishIssue_takeCause_entered (c := { why := .illegalOp, detail := d, lanes := at_.lanes, addr := 0#64 })
    (s := s.setGroup at_.gid g) (Tab.get?_put_self _ _ _) hlen hf rfl hh hv
  exact ⟨_, issueForm_of_detail hsite hhalt hpc hsus hpops hd, he, (congrArg State.mem ho.rest :)⟩

/-- Settles O13, by the form that every instruction word issues with, and by that of a word of no row. -/
theorem illegalWordTraps : Obligations.IllegalWordTraps := by
  unfold Obligations.IllegalWordTraps
  refine ⟨fun i s at_ g d hone hr hsite hhalt hpc hsus hpops hd hh hv => ?_, fun w s at_ g hsite hhalt hpc hsus hpops hh hv =>
    issueForm_of_detail_entered hsite hhalt hpc hsus hpops rfl hh hv⟩
  rcases encode_cases i with h | ⟨st, e, w, rfl⟩ | ⟨w, rfl⟩ | ⟨-, f, body, hword, hdetail, hexec⟩
  · rw [h] at hone
    cases hone
  · cases hone
  · exact absurd rfl (hr w)
  · rw [hexec]
    exact issueForm_of_detail_entered (by rw [hword]; exact hsite) hhalt hpc hsus hpops (by rw [hdetail]; exact hd) hh hv

end Sys2Proof.Machine
end

section
/-! PROOF. A result or a load that lands (spec/03 R63, spec/07 R127 to R130 and R150, spec/10 R210, spec/12 R262): the registers that it writes, what
the read of its bytes leaves as it was, and the bytes that it finds where nothing lies between the core and their home. -/

namespace Sys2Proof.Machine

open Says

/-! ### The registers that a landing writes (R63, R150) -/

/-- The last write of a list to a register of a lane is the last of those that name both. -/
theorem lastWrite_eq_getLast? (ws : List RegWrite) (l : Nat) (r : Reg) :
    lastWrite ws l r = ((ws.filter (fun w => decide (w.target = r ∧ (w.lane = none ∨ w.lane = some l)))).getLast?).map RegWrite.val := by
  induction ws with
  | nil => rfl
  | cons w ws ih =>
    rw [lastWrite, ih]
    by_cases hit : w.target = r ∧ (w.lane = none ∨ w.lane = some l)
    · simp only [List.filter_cons, decide_eq_true_eq, if_pos hit, List.getLast?_cons]
      cases (ws.filter _).getLast? <;> rfl
    · simp only [List.filter_cons, decide_eq_true_eq, if_neg hit]
      cases (ws.filter _).getLast? <;> rfl

/-- A lane without a thread has none that lives. -/
theorem Group.lt_length_of_live {g : Group} {l : Nat} (h : (g.thread l).live = true) : l < g.threads.length := by
  by_contra hl
  rw [Group.thread, List.getD_eq_default _ _ (Nat.le_of_not_lt hl)] at h
  cases h

/-- What the registers hold once writes have landed. -/
theorem Group.reg_land (g : Group) (ws : List RegWrite) (l : Nat) (r : Reg) : (g.land ws).reg l r = landed g ws l r := by
  unfold Group.land landed
  refine (Group.reg_applyAll _ g (fun w hw k hk => ?_) l r).trans ?_
  · have hlive := (List.mem_filter.1 hw).2
    rw [hk] at hlive
    exact Group.lt_length_of_live hlive
  · rw [lastWrite_eq_getLast?, List.filter_filter]
    congr 4
    funext w
    cases hl : w.lane with
    | none => simp [beq_eq_decide]
    | some k => simp [beq_eq_decide, Bool.and_left_comm, Bool.and_comm, Bool.and_assoc]

/-- Writes that land, in a group that then goes on and may choose. -/
theorem landResult_lands {s : State} {g : Group} {gid : Nat} (n : Nat) (ws : List RegWrite) (hg : Tab.get? s.groups gid = some g) :
    ∃ g', Tab.get? (landResult n gid ws s).groups gid = some g' ∧ ∀ l q, g'.reg l q = landed g ws l q := by
  refine ⟨_, by rw [landResult, State.modGroup_groups, Tab.get?_modify_self, State.delReq_groups, hg]; rfl, fun l q => ?_⟩
  dsimp only
  split
  · exact (((sameRegs_goOn _ _).trans (sameRegs_rechoose _)).regs l q).trans (g.reg_land ws l q)
  · exact ((sameRegs_rechoose _).regs l q).trans (g.reg_land ws l q)

/-- A result that no halt holds lands: its request ends, its group has the registers, and no other group and no memory changes. -/
theorem landWrites_lands {s : State} {g : Group} {n gid : Nat} (ws : List RegWrite) (hg : Tab.get? s.groups gid = some g)
    (hh : heldByHalt s n gid = false) :
    Tab.get? (landWrites n gid ws s).reqs n = none
      ∧ (∃ g', Tab.get? (landWrites n gid ws s).groups gid = some g' ∧ ∀ l q, g'.reg l q = landed g ws l q)
      ∧ (landWrites n gid ws s).mem = s.mem
      ∧ ∀ k, k ≠ gid → Tab.get? (landWrites n gid ws s).groups k = Tab.get? s.groups k := by
  have e : landWrites n gid ws s = landResult n gid ws s := by rw [landWrites, hh]; rfl
  rw [e]
  exact ⟨Tab.get?_del_self _ _, landResult_lands n ws hg, rfl, fun k hk => Tab.get?_modify_ne _ _ hk⟩

/-! ### What the read of a load leaves as it was (R258, R262, R268, R272) -/

/-- Whether something waits rests on the requests and the groups. -/
theorem noWaiters_congr {s t : State} (hr : t.reqs = s.reqs) (hg : t.groups = s.groups) (h : NoWaiters s) : NoWaiters t := by
  rw [noWaiters_iff] at h ⊢
  rwa [hr, hg]

/-- Where nothing waits no word is awaited. -/
theorem awaited_of_noWaiters {s : State} (h : NoWaiters s) : awaited s = [] := by
  obtain ⟨hreqs, hgroups⟩ := (noWaiters_iff s).1 h
  rw [awaited, List.append_eq_nil_iff, List.filterMap_eq_nil_iff, List.flatMap_eq_nil_iff]
  refine ⟨fun e he => ?_, fun e he => List.flatMap_eq_nil_iff.2 fun b hb => ?_⟩
  · split
    · next hk => rw [hreqs e he _ _ _ _ _ _ _ hk]; rfl
    · rfl
  · split
    · next hk =>
      rw [List.map_eq_nil_iff, List.filter_eq_nil_iff]
      intro x hx hc
      rw [Bool.and_eq_true] at hc
      obtain ⟨hm, hw⟩ := hc
      rw [hgroups e he b hb _ _ _ _ hk x hx hm] at hw
      cases hw
    · rfl

theorem wakeWhere_of_noWaiters {s : State} (h : NoWaiters s) (hit : Nat → Bool) : wakeWhere hit s = s := by
  rw [wakeWhere, awaited_of_noWaiters h]; rfl

/-- A lookup at a key that a filter keeps. -/
theorem Tab.get?_filter_key {α : Type} (t : Tab α) (f : Nat → Bool) {n : Nat} (h : f n = true) :
    Tab.get? (t.filter (fun e => f e.1)) n = Tab.get? t n := by
  induction t with
  | nil => rfl
  | cons e t ih =>
    obtain ⟨k, v⟩ := e
    by_cases hk : k = n
    · subst hk; simp [h, Tab.get?_cons]
    · rw [List.filter_cons, Tab.get?_cons, if_neg hk]
      split
      · rw [Tab.get?_cons, if_neg hk, ih]
      · exact ih

/-- A page that is copied changes bytes of its new place alone. -/
theorem byte_copyPage (src dst n : Nat) (s : State) {a : Nat} (ha : a < dst ∨ dst + n ≤ a) : (copyPage src dst n s).byte a = s.byte a := by
  have hfold : ∀ (cs m : List Host.Cell), (∀ c ∈ cs, src ≤ c.1 ∧ c.1 < src + n) →
      Sparse.get memDefault (cs.foldl (fun m c => Sparse.set memDefault m (dst + (c.1 - src)) c.2) m) a = Sparse.get memDefault m a := by
    intro cs
    induction cs with
    | nil => exact fun _ _ => rfl
    | cons c cs ih =>
      intro m hc
      have := hc c List.mem_cons_self
      exact (ih _ fun c' hc' => hc c' (List.mem_cons_of_mem _ hc')).trans (Sparse.get_set_ne memDefault _ _ (by omega))
  refine (hfold _ _ fun c hc => of_decide_eq_true (List.mem_filter.1 hc).2).trans ?_
  exact congrArg (·.getD memDefault) (Tab.get?_filter_key s.mem (fun x => decide (x < dst) || decide (dst + n ≤ x)) (by simpa using ha))

/-- The first address of a die's replica pool, and the one behind it. -/
def Die.pool (d : Die) : Nat × Nat := (d.replbase.toNat * 0x200000, d.replbase.toNat * 0x200000 + d.replsize.toNat * 0x200000)

/-- A place that is found lies in the pool. -/
theorem poolPlace_in_pool {d : Die} {n at_ : Nat} (h : poolPlace d n = some at_) : d.pool.1 ≤ at_ ∧ at_ + n ≤ d.pool.2 := by
  have := List.find?_some h
  simp only [Bool.and_eq_true, decide_eq_true_eq] at this
  exact this.1

/-- What the replication of a page and the copies of lines leave of a state: requests and groups, the mode and the pool of the die, and memory but for
the pool, which a deterministic machine leaves too. -/
structure LoadKeeps (die : Nat) (s t : State) : Prop where
  reqs : t.reqs = s.reqs
  groups : t.groups = s.groups
  mode : t.mode = s.mode
  pool : (t.die die).pool = (s.die die).pool
  det : s.mode.getLsbD 3 = true → t.mem = s.mem
  bytes : ∀ a, a < (s.die die).pool.1 ∨ (s.die die).pool.2 ≤ a → t.byte a = s.byte a

theorem LoadKeeps.refl (die : Nat) (s : State) : LoadKeeps die s s := ⟨rfl, rfl, rfl, rfl, fun _ => rfl, fun _ _ => rfl⟩

theorem LoadKeeps.trans {die : Nat} {s t u : State} (h : LoadKeeps die s t) (k : LoadKeeps die t u) : LoadKeeps die s u where
  reqs := k.reqs.trans h.reqs
  groups := k.groups.trans h.groups
  mode := k.mode.trans h.mode
  pool := k.pool.trans h.pool
  det hd := (k.det (by rwa [h.mode])).trans (h.det hd)
  bytes a ha := (k.bytes a (by rwa [h.pool])).trans (h.bytes a ha)

/-- Nothing is waited for, or the machine is deterministic: then the replication of a page wakes nothing. -/
def Quiet (s : State) : Prop := s.mode.getLsbD 3 = true ∨ NoWaiters s

theorem LoadKeeps.quiet {die : Nat} {s t : State} (h : LoadKeeps die s t) (hq : Quiet s) : Quiet t :=
  hq.imp (fun hd => by rwa [h.mode]) (noWaiters_congr h.reqs h.groups)

/-- A load that reads its bytes part by part. -/
theorem LoadKeeps.foldl {α : Type} {die : Nat} {f : State → α → State} (hf : ∀ s x, Quiet s → LoadKeeps die s (f s x)) (xs : List α)
    {s : State} (hq : Quiet s) : LoadKeeps die s (xs.foldl f s) := by
  induction xs generalizing s with
  | nil => exact .refl die s
  | cons x xs ih => exact (hf s x hq).trans (ih ((hf s x hq).quiet hq))

/-- A page copied into the pool, with its entry in the table of replicas. -/
theorem loadKeeps_copyPage {die base at_ n : Nat} {s : State} (hd : s.mode.getLsbD 3 = false) (hp : poolPlace (s.die die) n = some at_) :
    LoadKeeps die s ((copyPage base at_ n s).modDie die (fun d => { d with replicas := Tab.put d.replicas base (at_, n) })) where
  reqs := rfl
  groups := rfl
  mode := rfl
  pool := by simp [State.die, copyPage, Die.pool]
  det h := by rw [hd] at h; cases h
  bytes a ha := byte_copyPage base at_ n s (by have := poolPlace_in_pool hp; omega)

/-- R262: the replication of a page, where it wakes nothing. -/
theorem loadKeeps_replicate {s : State} (hq : Quiet s) (launch core : Nat) (x : LoadPart) : LoadKeeps (dieOf core) s (replicate launch core x s) := by
  unfold replicate
  dsimp only
  split
  · exact .refl _ s
  next e pa _ =>
  split
  · next hc =>
    simp only [Bool.and_eq_true, Bool.not_eq_true'] at hc
    obtain ⟨⟨⟨⟨⟨⟨-, hd⟩, -⟩, -⟩, -⟩, -⟩, -⟩ := hc
    split
    · next at_ hp =>
      have hcopy := loadKeeps_copyPage (base := e.pageBase pa) hd hp
      have hwait := (hcopy.quiet hq).resolve_left (by rw [hcopy.mode, hd]; exact Bool.false_ne_true)
      rw [wakeWhere_of_noWaiters hwait]
      split
      · exact hcopy
      · exact .refl _ s
    · exact .refl _ s
  · exact .refl _ s

/-- What a line that a holder keeps leaves of a state: requests, groups, the mode, the dies and memory. -/
def behindCaches (s : State) : Tab Req × Tab Group × BitVec 5 × Tab Die × List Host.Cell := (s.reqs, s.groups, s.mode, s.dies, s.mem)

theorem behindCaches_install (h : Holder) (core : Nat) (p : Path) (pa lease : Nat) (s : State) :
    behindCaches (install h core p pa lease s) = behindCaches s := by
  have hroom : behindCaches (makeRoom h s) = behindCaches s := by rw [makeRoom_eq]; rfl
  unfold install
  dsimp only
  rw [apply_ite behindCaches, apply_ite behindCaches, apply_ite behindCaches]
  exact ite_eq_iff'.2 ⟨fun _ => rfl, fun _ => ite_eq_iff'.2 ⟨fun _ => rfl, fun _ => ite_eq_iff'.2 ⟨fun _ => hroom, fun _ => hroom⟩⟩⟩

theorem LoadKeeps.of_behindCaches {die : Nat} {s t : State} (h : behindCaches t = behindCaches s) : LoadKeeps die s t := by
  simp only [behindCaches, Prod.mk.injEq] at h
  obtain ⟨hreqs, hgroups, hmode, hdies, hmem⟩ := h
  exact ⟨hreqs, hgroups, hmode, by rw [State.die, hdies]; rfl, fun _ => hmem, fun a _ => congrArg (Sparse.get memDefault · a) hmem⟩

theorem loadKeeps_bring (die : Nat) (hs : List Holder) (core : Nat) (p : Path) (pa lease : Nat) {s : State} (hq : Quiet s) :
    LoadKeeps die s (bring hs core p pa lease s) :=
  .foldl (fun s h _ => .of_behindCaches (behindCaches_install h core p pa lease s)) _ hq

/-! ### What the threads of a load note (R272) -/

/-- A group whose threads note what they have read. -/
def Group.noted (s : State) (lanes : LaneSet) (inFlight : NatSet) (until_ : Nat) (g : Group) : Group :=
  g.modLanes lanes (fun _ t => t.noted s inFlight until_)

/-- What is noted of a read ends no thread and writes no register, so that the same writes land. -/
theorem landed_noted (s : State) (lanes : LaneSet) (inFlight : NatSet) (until_ : Nat) (g : Group) (ws : List RegWrite) (l : Nat) (r : Reg) :
    landed (g.noted s lanes inFlight until_) ws l r = landed g ws l r := by
  have hlive : ∀ k, ((g.noted s lanes inFlight until_).thread k).live = (g.thread k).live := fun k => by
    rw [Group.noted, Group.thread_modLanes]
    split <;> rfl
  have hreg : (g.noted s lanes inFlight until_).reg l r = g.reg l r := 
    Group.reg_modLanes g lanes (fun _ t => t.noted s inFlight until_) (fun _ _ => rfl) l r
  simp only [landed, hlive, hreg]

theorem noteLogged_eq (r : Req) (parts : List LoadPart) (s : State) :
    noteLogged r parts s = { s with teams := (noteLogged r parts s).teams } := by
  unfold noteLogged
  split
  · split <;> rfl
  · rfl

/-- What a read notes leaves the blocks of every group, so that what waits stays as it was. -/
theorem noteRead_noWaiters {s : State} (h : NoWaiters s) (gid : Nat) (lanes : LaneSet) (inFlight : NatSet) (until_ : Nat) :
    NoWaiters (noteRead gid lanes inFlight until_ s) := by
  obtain ⟨hreqs, hgroups⟩ := (noWaiters_iff s).1 h
  refine (noWaiters_iff _).2 ⟨hreqs, fun e he => ?_⟩
  rw [noteRead, State.modGroup_groups, Tab.modify] at he
  split at he
  · next g hg =>
    rcases Tab.mem_put he with rfl | he
    · exact hgroups (gid, g) (Tab.mem_of_get? hg)
    · exact hgroups e he
  · exact hgroups e he

/-! ### The bytes of a load that nothing lies before (R127, R128, R262, R270) -/

/-- A byte of local memory with no copy, no replica and no store in flight between a core and its home. -/
structure ReadsHome (s : State) (core : Nat) (p : Path) (pa : Nat) : Prop where
  aperture : aperture pa = 0
  copies : supplier s core p pa = none
  replicas : replicaOf s core pa = pa
  stores : p = .gen → withStores s (clusterOf core) pa (s.byte pa) = s.byte pa

theorem ReadsHome.loadByte_eq {s : State} {core pa : Nat} {p : Path} (h : ReadsHome s core p pa) : loadByte s core p pa = s.byte pa := by
  have hc := h.copies
  unfold supplier at hc
  simpa [loadByte, byteFrom, h.aperture, hc, h.replicas] using h.stores

/-- A team's own shadows are no part of what lies between. -/
theorem ReadsHome.ownView {s : State} {core pa : Nat} {p : Path} (h : ReadsHome s core p pa) (team : Nat) : ReadsHome (s.ownView team) core p pa :=
  ⟨h.aperture, h.copies, h.replicas, h.stores⟩

/-- The bytes of a part that are read at their homes, and that the team's own log leaves. -/
theorem partBytes_eq_bytes {s : State} {team core : Nat} {p : Path} {x : LoadPart} (hb : ∀ k, k < x.size → ReadsHome s core p (x.pa + k)
      ∧ ∀ y, (s.team team).tx = some y → logByte y.log (x.pa + k) (s.byte (x.pa + k)) = s.byte (x.pa + k)) :
    partBytes s team core p x = s.bytes x.pa x.size := by
  unfold partBytes State.bytes
  split
  · exact List.map_congr_left fun k hk => (hb k (List.mem_range.1 hk)).1.loadByte_eq
  · next y hy =>
    refine List.map_congr_left fun k hk => ?_
    obtain ⟨hhome, hlog⟩ := hb k (List.mem_range.1 hk)
    rw [(hhome.ownView team).loadByte_eq]
    exact hlog y hy

/-! ### Results and loads land (R63, R127, R210) -/

/-- R63, R150: a result whose time has come. -/
theorem exec_pendingWriteLands_value {n : Nat} {s : State} {r : Req} {ws : List RegWrite} (lease : Nat) (hr : Tab.get? s.reqs n = some r)
    (hk : r.kind = .value ws) (ht : r.notBefore ≤ s.time) : exec (.pendingWriteLands n lease) s = .next (landWrites n r.group ws s) := by
  show execPendingWriteLands n lease s = _
  rw [execPendingWriteLands, hr]
  simp only [hk, ht, if_true]

/-- A load that reads its bytes: what it has noted, the pages that it has replicated and the copies that it has brought, before its result lands. -/
theorem exec_pendingWriteLands_load {n lease : Nat} {s : State} {r : Req} {p : Path} {parts : List LoadPart} (hr : Tab.get? s.reqs n = some r)
    (hk : r.kind = .load p parts) (hready : loadReady s n r parts = true) (hpoison : ∀ x ∈ parts, partPoisoned s r p x = false)
    (hq : Quiet s) :
    ∃ inFlight until_ t, LoadKeeps (dieOf r.core) (noteLogged r parts (noteRead r.group r.lanes inFlight until_ s)) t
      ∧ exec (.pendingWriteLands n lease) s
        = .next (landWrites n r.group (parts.flatMap (fun x => loadWrites x (partBytes s r.team r.core p x))) t) := by
  have hbad : parts.filter (partPoisoned s r p) = [] := List.filter_eq_nil_iff.2 fun x hx => by rw [hpoison x hx]; exact Bool.false_ne_true
  have hnoted : ∀ inFlight until_, Quiet (noteLogged r parts (noteRead r.group r.lanes inFlight until_ s)) := fun inFlight until_ => by
    rw [noteLogged_eq]
    exact hq.imp id (fun h => noWaiters_congr rfl rfl (noteRead_noWaiters h r.group r.lanes inFlight until_))
  have e : exec (.pendingWriteLands n lease) s = .next (landLoad n r p parts lease s) := by
    show execPendingWriteLands n lease s = _
    rw [execPendingWriteLands, hr]
    simp only [hk]
  rw [e]
  simp only [landLoad, hready, hbad, Bool.not_true, Bool.false_eq_true, if_false]
  generalize storesSeen s r.core p _ = inFlight
  generalize List.foldl max 0 _ = until_
  refine ⟨inFlight, until_, _, ?_, rfl⟩
  have hrep := LoadKeeps.foldl (fun s x h => loadKeeps_replicate h r.launch r.core x) parts (hnoted inFlight until_)
  split
  · exact hrep
  · exact hrep.trans (.foldl (fun s x h => loadKeeps_bring _ _ r.core p x.pa lease h) parts (hrep.quiet (hnoted inFlight until_)))

/-- R63, R127, R128, R262: a load lands. -/
theorem load_lands {n lease : Nat} {s : State} {r : Req} {p : Path} {parts : List LoadPart} {g : Group} (hr : Tab.get? s.reqs n = some r)
    (hk : r.kind = .load p parts) (hready : loadReady s n r parts = true) (hpoison : ∀ x ∈ parts, partPoisoned s r p x = false)
    (hg : Tab.get? s.groups r.group = some g) (hh : heldByHalt s n r.group = false) (hq : Quiet s) :
    ∃ t g', exec (.pendingWriteLands n lease) s = .next t ∧ Tab.get? t.reqs n = none ∧ Tab.get? t.groups r.group = some g'
      ∧ (∀ l q, g'.reg l q = landed g (parts.flatMap (fun x => loadWrites x (partBytes s r.team r.core p x))) l q)
      ∧ (s.mode.getLsbD 3 = true → t.mem = s.mem)
      ∧ ∀ a, a < (s.die (dieOf r.core)).pool.1 ∨ (s.die (dieOf r.core)).pool.2 ≤ a → t.byte a = s.byte a := by
  obtain ⟨inFlight, until_, u, hf, he⟩ := exec_pendingWriteLands_load (lease := lease) hr hk hready hpoison hq
  rw [noteLogged_eq] at hf
  have hgu : Tab.get? u.groups r.group = some (g.noted s r.lanes inFlight until_) := by
    rw [hf.groups]
    show Tab.get? (Tab.modify s.groups r.group _) r.group = _
    rw [Tab.get?_modify_self, hg]
    rfl
  have hhu : heldByHalt u n r.group = false := by
    rw [heldByHalt, hg] at hh
    rw [heldByHalt, hgu]
    exact hh
  obtain ⟨hreq, ⟨g', hg', hregs⟩, hmem, -⟩ := landWrites_lands
    (parts.flatMap (fun x => loadWrites x (partBytes s r.team r.core p x))) hgu hhu
  refine ⟨_, g', he, hreq, hg', fun l q => (hregs l q).trans (landed_noted _ _ _ _ _ _ _ _), fun hd => hmem.trans (hf.det hd), fun a ha => ?_⟩
  exact (congrArg (Sparse.get memDefault · a) hmem).trans (hf.bytes a ha)

/-- Settles O42: a landing is one application of writes, and the read of a load before it changes no more than `LoadKeeps` says. -/
theorem resultsLand : Obligations.ResultsLand := by
  unfold Obligations.ResultsLand
  refine ⟨fun n lease s r ws g hr hk ht hg hh => ?_, fun n lease s r p parts g hr hk hready hpoison hg hh hq => ?_, fun s r p x hx => ?_⟩
  · obtain ⟨hreq, ⟨g', hg', hregs⟩, hmem, hothers⟩ := landWrites_lands ws hg hh
    exact ⟨_, g', exec_pendingWriteLands_value lease hr hk ht, hreq, hg', hregs, hmem, hothers⟩
  · exact load_lands hr hk hready hpoison hg hh hq
  · refine partBytes_eq_bytes fun k hk => ?_
    obtain ⟨hap, hsup, hrep, hst, hlog⟩ := hx k hk
    exact ⟨⟨hap, hsup, hrep, hst⟩, hlog⟩

end Sys2Proof.Machine
end

section
/-! PROOF. The uniform arithmetic (spec/08 R156 to R159): what its pure functions give as integers, and the results in G[D] or its pair. -/

namespace Sys2Proof.Machine

open Says

/-! ### The pure functions of 32 and 64 bits as integers (R101, R102) -/

theorem isltF_eq (a b : Word) : isltF a b = if a.toInt < b.toInt then 1#32 else 0#32 := by simp [isltF, flag, BitVec.slt]
theorem isleF_eq (a b : Word) : isleF a b = if a.toInt ≤ b.toInt then 1#32 else 0#32 := by simp [isleF, flag, BitVec.sle]
theorem nsltF_eq (a b : Word) : nsltF a b = if a.toNat < b.toNat then 1#32 else 0#32 := by simp [nsltF, flag, BitVec.ult]
theorem nsleF_eq (a b : Word) : nsleF a b = if a.toNat ≤ b.toNat then 1#32 else 0#32 := by simp [nsleF, flag, BitVec.ule]
theorem ieqF_eq (a b : Word) : ieqF a b = if a = b then 1#32 else 0#32 := by simp [ieqF, flag]
theorem ineF_eq (a b : Word) : ineF a b = if a = b then 0#32 else 1#32 := by simp [ineF, flag]

/-- The least and the greatest of two words: where they are equal it is no matter which is taken. -/
theorem iminF_eq (a b : Word) : iminF a b = if a.toInt ≤ b.toInt then a else b := by
  rcases lt_trichotomy a.toInt b.toInt with h | h | h
  · simp [iminF, BitVec.slt, h, h.le]
  · simp [iminF, BitVec.toInt_inj.1 h]
  · simp [iminF, BitVec.slt, h.not_gt, h.not_ge]

theorem imaxF_eq (a b : Word) : imaxF a b = if a.toInt ≤ b.toInt then b else a := by
  rcases lt_trichotomy a.toInt b.toInt with h | h | h
  · simp [imaxF, BitVec.slt, h, h.le]
  · simp [imaxF, BitVec.toInt_inj.1 h]
  · simp [imaxF, BitVec.slt, h.not_gt, h.not_ge]

theorem nminF_eq (a b : Word) : nminF a b = if a.toNat ≤ b.toNat then a else b := by
  rcases lt_trichotomy a.toNat b.toNat with h | h | h
  · simp [nminF, BitVec.ult, h, h.le]
  · simp [nminF, BitVec.eq_of_toNat_eq h]
  · simp [nminF, BitVec.ult, h.not_gt, h.not_ge]

theorem nmaxF_eq (a b : Word) : nmaxF a b = if a.toNat ≤ b.toNat then b else a := by
  rcases lt_trichotomy a.toNat b.toNat with h | h | h
  · simp [nmaxF, BitVec.ult, h, h.le]
  · simp [nmaxF, BitVec.eq_of_toNat_eq h]
  · simp [nmaxF, BitVec.ult, h.not_gt, h.not_ge]

/-- Bits [63:32] of a 64-bit number are its quotient by 2^32. -/
theorem extractLsb'_ofInt_high (p : Int) : (BitVec.ofInt 64 p).extractLsb' 32 32 = BitVec.ofInt 32 (p / 2 ^ 32) := by
  apply BitVec.eq_of_toNat_eq
  simp only [BitVec.extractLsb'_toNat, BitVec.toNat_ofInt, Nat.shiftRight_eq_div_pow]
  omega

theorem imulhiF_eq (a b : Word) : imulhiF a b = BitVec.ofInt 32 (a.toInt * b.toInt / 2 ^ 32) := by
  rw [← extractLsb'_ofInt_high, BitVec.ofInt_mul]
  rfl

theorem nmulhiF_eq (a b : Word) : nmulhiF a b = BitVec.ofNat 32 (a.toNat * b.toNat / 2 ^ 32) := by
  apply BitVec.eq_of_toNat_eq
  simp only [nmulhiF, BitVec.extractLsb'_toNat, BitVec.toNat_mul, BitVec.truncate_eq_setWidth, BitVec.toNat_setWidth, BitVec.toNat_ofNat,
    Nat.shiftRight_eq_div_pow, Nat.mod_eq_of_lt (Nat.lt_trans a.isLt (by decide : 2 ^ 32 < 2 ^ 64)),
    Nat.mod_eq_of_lt (Nat.lt_trans b.isLt (by decide : 2 ^ 32 < 2 ^ 64))]
  omega

theorem imadwF_eq (a b : Word) (d : DWord) : imadwF a b d = BitVec.ofInt 64 (a.toInt * b.toInt) + d := by
  rw [BitVec.ofInt_mul]
  rfl

/-- A shift count is taken modulo the width (R101, R102). -/
theorem toNat_and_31 (b : Word) : (b &&& 31#32).toNat = b.toNat % 32 := by
  rw [BitVec.toNat_and]
  exact Nat.and_two_pow_sub_one_eq_mod b.toNat 5

theorem toNat_and_63 (b : Word) : (b &&& 63#32).toNat = b.toNat % 64 := by
  rw [BitVec.toNat_and]
  exact Nat.and_two_pow_sub_one_eq_mod b.toNat 6

theorem sarF_eq (a b : Word) : sarF a b = BitVec.ofInt 32 (a.toInt / 2 ^ (b &&& 31#32).toNat) := by
  rw [toNat_and_31, sarF, BitVec.sshiftRight, Int.shiftRight_eq_div_pow]
  norm_cast

theorem fsltF_eq (a b : Word) : fsltF a b = if (valF32 a).lt (valF32 b) then 1#32 else 0#32 := rfl

/-- GLUI puts 14 bits above the low 18 (R159). -/
theorem glui_eq (n : BitVec 14) (v : Word) :
    (n.zeroExtend 32 <<< 18) ||| (v &&& 0x3FFFF#32) = BitVec.ofNat 32 (n.toNat * 2 ^ 18 + v.toNat % 2 ^ 18) := by
  have hv : v.toNat % 2 ^ 18 < 2 ^ 18 := Nat.mod_lt _ (by decide)
  have hn : n.toNat < 2 ^ 14 := n.isLt
  apply BitVec.eq_of_toNat_eq
  have hand : (v &&& 0x3FFFF#32).toNat = v.toNat % 2 ^ 18 := by
    rw [BitVec.toNat_and]; exact Nat.and_two_pow_sub_one_eq_mod v.toNat 18
  have hshl : (n.zeroExtend 32 <<< 18).toNat = n.toNat <<< 18 := by
    simp only [BitVec.toNat_shiftLeft, BitVec.truncate_eq_setWidth, BitVec.toNat_setWidth, Nat.shiftLeft_eq]
    omega
  rw [BitVec.toNat_or, hand, hshl, ← Nat.shiftLeft_add_eq_or_of_lt hv, BitVec.toNat_ofNat, Nat.shiftLeft_eq, Nat.mod_eq_of_lt (a := _ + _) (by omega)]

/-! ### Results in G[D] and in the pair D -/

theorem ctxOf_gp (i : Instr) (s : State) (at_ : Site) (g : Group) (x : BitVec 7) : (ctxOf i s at_ g).gp x = g.gval64 x := ctxOf_g64 i s at_ g x.toNat

section
variable {i : Instr} {p : Prefix} {body : Ctx → State → Res} {s : State} {at_ : Site} {g : Group}

/-- A result in the G pair D. -/
theorem issue_writes_g64 (d : BitVec 7) (x : DWord) (h : Issues i p s at_ g) (hlat : i.latency ≠ 0)
    (hb : ∀ st, body (ctxOf i s at_ g) st = .ok ((ctxOf i s at_ g).write (wG64 d x) st)) :
    ∃ t, issue i p body s = .next t ∧ Writes at_.gid (fun _ => pairOf .g d x) s t ∧ IssueFrame at_ s t := by
  obtain ⟨t, ht, hf, hr⟩ := issue_writes (wG64 d x) h hlat (by simp [wG64]) hb
  refine ⟨t, ht, fun l r => ?_, hf⟩
  rw [hr, ← lastWrite_asWrites l (pairOf .g d x) (by simp [pairOf]) r]
  rfl

/-- G[D] := f(G[A], G[B]) (R156, R158). -/
theorem uniBin_writes {f : Word → Word → Word} {d a b : BitVec 7} (x : Word) (h : Issues i p s at_ g) (hlat : i.latency ≠ 0)
    (hx : f (g.gval a) (g.gval b) = x) :
    ∃ t, issue i p (uniBin f d a b) s = .next t ∧ Writes at_.gid (fun _ => [(Reg.g d.toNat, x)]) s t ∧ IssueFrame at_ s t :=
  issue_writes_g d x h hlat (fun st => by simp only [uniBin, ctxOf_gv, hx])

/-- G[D] := f(G[A], G[B], G[D]) (R156, R158). -/
theorem uniTer_writes {f : Word → Word → Word → Word} {d a b : BitVec 7} (x : Word) (h : Issues i p s at_ g) (hlat : i.latency ≠ 0)
    (hx : f (g.gval a) (g.gval b) (g.gval d) = x) :
    ∃ t, issue i p (uniTer f d a b) s = .next t ∧ Writes at_.gid (fun _ => [(Reg.g d.toNat, x)]) s t ∧ IssueFrame at_ s t :=
  issue_writes_g d x h hlat (fun st => by simp only [uniTer, ctxOf_gv, hx])

/-- The pair D := f(pair A, pair B) (R157). -/
theorem uniBin64_writes {f : DWord → DWord → DWord} {d a b : BitVec 7} (x : DWord) (h : Issues i p s at_ g) (hlat : i.latency ≠ 0)
    (hx : f (g.gval64 a) (g.gval64 b) = x) :
    ∃ t, issue i p (uniBin64 f d a b) s = .next t ∧ Writes at_.gid (fun _ => pairOf .g d x) s t ∧ IssueFrame at_ s t :=
  issue_writes_g64 d x h hlat (fun st => by simp only [uniBin64, ctxOf_gp, hx])

/-- The pair D := f(pair A, G[B]) (R157). -/
theorem uniShift64_writes {f : DWord → Word → DWord} {d a b : BitVec 7} (x : DWord) (h : Issues i p s at_ g) (hlat : i.latency ≠ 0)
    (hx : f (g.gval64 a) (g.gval b) = x) :
    ∃ t, issue i p (uniShift64 f d a b) s = .next t ∧ Writes at_.gid (fun _ => pairOf .g d x) s t ∧ IssueFrame at_ s t :=
  issue_writes_g64 d x h hlat (fun st => by simp only [uniShift64, ctxOf_gp, ctxOf_gv, hx])

end

/-! ### The rows of the uniform arithmetic -/

section
variable {i : Instr} {s : State} {at_ : Site} {g : Group} {ws : List (Reg × Word)}

theorem uniform32_writes (hws : uniform32 i g = some ws) (h : Issues i none s at_ g) :
    ∃ t, exec i s = .next t ∧ Writes at_.gid (fun _ => ws) s t ∧ IssueFrame at_ s t := by
  cases i with
  | gadd | gsub | gmul | gand | gor | gxor =>
    obtain rfl := Option.some.inj hws
    exact uniBin_writes _ h (Nat.succ_ne_zero _) rfl
  | gmulhi => obtain rfl := Option.some.inj hws; exact uniBin_writes _ h (Nat.succ_ne_zero _) (imulhiF_eq _ _)
  | gnmulhi => obtain rfl := Option.some.inj hws; exact uniBin_writes _ h (Nat.succ_ne_zero _) (nmulhiF_eq _ _)
  | gshl | gshr =>
    obtain rfl := Option.some.inj hws
    rw [toNat_and_31]
    exact uniBin_writes _ h (Nat.succ_ne_zero _) rfl
  | gsar => obtain rfl := Option.some.inj hws; exact uniBin_writes _ h (Nat.succ_ne_zero _) (sarF_eq _ _)
  | gmin => obtain rfl := Option.some.inj hws; exact uniBin_writes _ h (Nat.succ_ne_zero _) (iminF_eq _ _)
  | gmax => obtain rfl := Option.some.inj hws; exact uniBin_writes _ h (Nat.succ_ne_zero _) (imaxF_eq _ _)
  | gnmin => obtain rfl := Option.some.inj hws; exact uniBin_writes _ h (Nat.succ_ne_zero _) (nminF_eq _ _)
  | gnmax => obtain rfl := Option.some.inj hws; exact uniBin_writes _ h (Nat.succ_ne_zero _) (nmaxF_eq _ _)
  | gslt => obtain rfl := Option.some.inj hws; exact uniBin_writes _ h (Nat.succ_ne_zero _) (isltF_eq _ _)
  | gsle => obtain rfl := Option.some.inj hws; exact uniBin_writes _ h (Nat.succ_ne_zero _) (isleF_eq _ _)
  | gnslt => obtain rfl := Option.some.inj hws; exact uniBin_writes _ h (Nat.succ_ne_zero _) (nsltF_eq _ _)
  | gnsle => obtain rfl := Option.some.inj hws; exact uniBin_writes _ h (Nat.succ_ne_zero _) (nsleF_eq _ _)
  | geq => obtain rfl := Option.some.inj hws; exact uniBin_writes _ h (Nat.succ_ne_zero _) (ieqF_eq _ _)
  | gne => obtain rfl := Option.some.inj hws; exact uniBin_writes _ h (Nat.succ_ne_zero _) (ineF_eq _ _)
  | gsel => obtain rfl := Option.some.inj hws; exact uniTer_writes _ h (Nat.succ_ne_zero _) rfl
  | _ => nomatch hws

theorem uniformWide_writes (hws : uniformWide i g = some ws) (h : Issues i none s at_ g) :
    ∃ t, exec i s = .next t ∧ Writes at_.gid (fun _ => ws) s t ∧ IssueFrame at_ s t := by
  cases i with
  | gadd64 | gsub64 => obtain rfl := Option.some.inj hws; exact uniBin64_writes _ h (Nat.succ_ne_zero _) rfl
  | gshl64 | gshr64 =>
    obtain rfl := Option.some.inj hws
    rw [toNat_and_63]
    exact uniShift64_writes _ h (Nat.succ_ne_zero _) rfl
  | gmadw =>
    obtain rfl := Option.some.inj hws
    exact issue_writes_g64 _ _ h (Nat.succ_ne_zero _) (fun st => by simp only [ctxOf_gv, ctxOf_gp, imadwF_eq])
  | gfadd | gfmul | gfmin | gfmax => obtain rfl := Option.some.inj hws; exact uniBin_writes _ h (Nat.succ_ne_zero _) rfl
  | gffma => obtain rfl := Option.some.inj hws; exact uniTer_writes _ h (Nat.succ_ne_zero _) rfl
  | gfslt => obtain rfl := Option.some.inj hws; exact uniBin_writes _ h (Nat.succ_ne_zero _) (fsltF_eq _ _)
  | _ => nomatch hws

theorem uniformImmediate_writes (hws : uniformImmediate i none g = some ws) (h : Issues i none s at_ g) :
    ∃ t, exec i s = .next t ∧ Writes at_.gid (fun _ => ws) s t ∧ IssueFrame at_ s t := by
  cases i with
  | gmovi => obtain rfl := Option.some.inj hws; exact issue_writes_g _ _ h (Nat.succ_ne_zero _) (fun _ => rfl)
  | gaddi | gandi | gori => obtain rfl := Option.some.inj hws; exact uniUn_writes _ h (Nat.succ_ne_zero _) rfl
  | _ => nomatch hws

/-- A word without a defect is in the range that R45 gives its immediate, and its operation is enabled. -/
theorem illegalDetail_none {sh : Shape} {i : Instr} (hr : ∀ w, i ≠ .reservedSlot w) (h : illegalDetail sh i = none) :
    i.rangeOk sh = true ∧ i.enabledOk sh = true := by
  unfold illegalDetail at h
  split at h
  · exact absurd rfl (hr _)
  · split_ifs at h with hregs hz hrange hspecial henabled
    exact ⟨by simpa using hrange, by simpa using henabled⟩

theorem Issues.rangeOk {p : Prefix} (h : Issues i p s at_ g) (hr : ∀ w, i ≠ .reservedSlot w) : i.rangeOk (shapeOf s g) = true :=
  (illegalDetail_none hr h.legal).1

theorem Issues.enabledOk {p : Prefix} (h : Issues i p s at_ g) (hr : ∀ w, i ≠ .reservedSlot w) : i.enabledOk (shapeOf s g) = true :=
  (illegalDetail_none hr h.legal).2

theorem uniformFixed_writes (hws : uniformFixed i g = some ws) (h : Issues i none s at_ g) :
    ∃ t, exec i s = .next t ∧ Writes at_.gid (fun _ => ws) s t ∧ IssueFrame at_ s t := by
  cases i with
  | gshli _ _ _ n | gshri _ _ _ n =>
    obtain rfl := Option.some.inj hws
    have hn : n.toNat ≤ 31 := of_decide_eq_true (h.rangeOk (fun _ => Instr.noConfusion))
    have hmod : (n.zeroExtend 32).toNat % 32 = n.toNat := by
      simp only [BitVec.truncate_eq_setWidth, BitVec.toNat_setWidth]
      omega
    exact uniUn_writes _ h (Nat.succ_ne_zero _) (by simp only [shlF, shrF, hmod])
  | glui => obtain rfl := Option.some.inj hws; exact issue_writes_g _ _ h (Nat.succ_ne_zero _) (fun st => by simp only [ctxOf_gv, glui_eq])
  | _ => nomatch hws

end

/-- Settles O6: each row's body writes what its table of results says, and nothing else. -/
theorem uniformResults : Obligations.UniformResults := by
  unfold Obligations.UniformResults
  intro i s at_ g ws hws h
  rcases hws with hws | hws | hws | hws
  · exact uniform32_writes hws h
  · exact uniformWide_writes hws h
  · exact uniformImmediate_writes hws h
  · exact uniformFixed_writes hws h

end Sys2Proof.Machine
end

section
/-! PROOF. What an instruction's own effect sees of its issuing group, and how its issue ends where the group goes on: the frame `Passes`
for an effect outside the groups. -/

namespace Sys2Proof.Machine

/-! ### The owed pops keep the address of the issue set -/

theorem topEntry_pc {s : State} {g : Group} {l : Nat} {t t' : Thread} {e : StackEntry} (h : topEntry s g l t = .ok (some (e, t'))) :
    t'.pc = t.pc := by
  unfold topEntry at h
  split at h
  · simp only [Except.ok.injEq, Option.some.injEq, Prod.mk.injEq] at h
    rw [← h.2]
  · split at h
    · simp at h
    · simp only at h
      split at h
      · simp at h
      · split at h
        · simp at h
        · split at h
          · simp at h
          · simp only [Except.ok.injEq, Option.some.injEq, Prod.mk.injEq] at h
            rw [← h.2]
            rfl

theorem popEntry_pc {s : State} {g : Group} {l : Nat} {t t' : Thread} (h : popEntry s g l t = .done t') : t'.pc = t.pc := by
  unfold popEntry at h
  split at h
  · cases h
  · cases h; rfl
  · rename_i he
    split at h
    · cases h; rfl
    · split at h
      · cases h
      · cases h; exact (topEntry_pc he :)

theorem popMeeting_pc {s : State} {gid : Nat} {g : Group} {l : Nat} {t t' : Thread} (h : popMeeting s gid g l t = .done t') :
    t'.pc = t.pc := by
  unfold popMeeting at h
  split at h
  · exact popEntry_pc h
  · split at h
    · cases h
    · split at h
      · cases h
      · split at h
        · cases h
        · exact popEntry_pc h

theorem owedPops_pc {s : State} {at_ : Site} {g : Group} {e : Nat × PopOut} (he : e ∈ owedPops s at_ g) {t : Thread} (ht : e.2 = .done t) :
    t.pc = (g.thread e.1).pc := by
  unfold owedPops at he
  split at he
  · cases he
  · obtain ⟨l, -, hl⟩ := List.mem_filterMap.1 he
    simp only at hl
    split at hl
    · cases hl; exact popMeeting_pc ht
    · cases hl

theorem popped_pc (s : State) (at_ : Site) (g : Group) (l : Nat) : ((poppedGroup s at_ g).thread l).pc = (g.thread l).pc := by
  suffices H : ∀ (ps : List (Nat × PopOut)) (x : Group), (∀ e ∈ ps, e ∈ owedPops s at_ g) → (x.thread l).pc = (g.thread l).pc →
      ((ps.foldl Group.popDone x).thread l).pc = (g.thread l).pc from H _ g (fun _ h => h) rfl
  intro ps
  induction ps with
  | nil => intro x _ hx; exact hx
  | cons e t ih =>
    intro x hm hx
    refine ih _ (fun e' he' => hm e' (List.mem_cons_of_mem _ he')) ?_
    unfold Group.popDone
    split
    · rename_i t' ht'
      rw [Group.thread_modThread]
      split
      · rename_i h; rw [h.1]; exact owedPops_pc (hm e List.mem_cons_self) ht'
      · exact hx
    · exact hx

/-- An issue set is not empty. -/
theorem siteOf_cur_ne {s : State} {w : Word} {p : Prefix} {at_ : Site} {g : Group} (h : siteOf s w p = some (at_, g)) : g.cur ≠ 0#64 := by
  unfold siteOf at h
  cases hg : Tab.get? s.groups s.turn with
  | none => simp [hg] at h
  | some g0 =>
    simp only [hg] at h
    split at h
    · cases h
    · split at h
      · cases h
      · rename_i hc
        cases h
        intro h0
        simp [h0] at hc

theorem LaneSet.toList_ne_nil {m : LaneSet} (h : m ≠ 0#64) : LaneSet.toList m ≠ [] := by
  intro hn
  refine h (BitVec.eq_of_getLsbD_eq fun k hk => ?_)
  have : m.has k ≠ true := fun hc => by simpa [hn] using (LaneSet.mem_toList m k).2 hc
  simpa [LaneSet.has] using this

theorem popped_nextPc {s : State} {w : Word} {p : Prefix} {at_ : Site} {g : Group} (h : siteOf s w p = some (at_, g)) :
    (poppedGroup s at_ g).nextPc = g.nextPc := by
  have hcur : (poppedGroup s at_ g).cur = g.cur := (congrArg Group.cur (popped_eq s at_ g) :)
  obtain ⟨l, ls, hl⟩ := List.exists_cons_of_ne_nil (LaneSet.toList_ne_nil (siteOf_cur_ne h))
  simp only [Group.nextPc, hcur, hl, List.head?_cons, popped_pc]

/-! ### What a context reads of its group -/

section
variable (i : Instr) (s : State) (at_ : Site) (g : Group)

@[simp] theorem ctxOf_core : (ctxOf i s at_ g).core = g.core := (congrArg Group.core (popped_eq s at_ g) :)
@[simp] theorem ctxOf_g_core : (ctxOf i s at_ g).g.core = g.core := (congrArg Group.core (popped_eq s at_ g) :)
@[simp] theorem ctxOf_g_team : (ctxOf i s at_ g).g.team = g.team := (congrArg Group.team (popped_eq s at_ g) :)
@[simp] theorem ctxOf_g_launch : (ctxOf i s at_ g).g.launch = g.launch := (congrArg Group.launch (popped_eq s at_ g) :)
@[simp] theorem ctxOf_g_gid : (ctxOf i s at_ g).g.gid = g.gid := (congrArg Group.gid (popped_eq s at_ g) :)
@[simp] theorem ctxOf_g_handler : (ctxOf i s at_ g).g.handler = g.handler := (congrArg Group.handler (popped_eq s at_ g) :)
@[simp] theorem ctxOf_g_keyperm : (ctxOf i s at_ g).g.keyperm = g.keyperm := (congrArg Group.keyperm (popped_eq s at_ g) :)
@[simp] theorem ctxOf_g_width : (ctxOf i s at_ g).g.width = g.width := (congrArg Group.width (popped_eq s at_ g) :)
@[simp] theorem ctxOf_team : (ctxOf i s at_ g).team (issuedState s at_ g) = s.team g.team := congrArg s.team (ctxOf_g_team i s at_ g)
@[simp] theorem ctxOf_tx : (ctxOf i s at_ g).tx (issuedState s at_ g) = (s.team g.team).tx := congrArg Team.tx (ctxOf_team i s at_ g)
@[simp] theorem ctxOf_launch : (ctxOf i s at_ g).launch (issuedState s at_ g) = s.launch g.launch := congrArg s.launch (ctxOf_g_launch i s at_ g)
@[simp] theorem ctxOf_site : (ctxOf i s at_ g).site = at_ := rfl
@[simp] theorem ctxOf_mask : (ctxOf i s at_ g).mask = at_.lanes := rfl
@[simp] theorem ctxOf_lanes : (ctxOf i s at_ g).lanes = LaneSet.toList at_.lanes := rfl
@[simp] theorem ctxOf_req (dest : List Reg) (k : ReqKind) :
    (ctxOf i s at_ g).req (issuedState s at_ g) dest k = (ctxOf i s at_ g).req s dest k := rfl

/-- A request depends on the state by its time alone. -/
theorem ctxOf_req_congr {s t : State} (htime : t.time = s.time) (dest : List Reg) (k : ReqKind) :
    (ctxOf i t at_ g).req t dest k = (ctxOf i s at_ g).req s dest k := by
  simp only [Ctx.req, ctxOf_core, ctxOf_g_launch, ctxOf_g_team, ctxOf_site, ctxOf_mask, htime]

theorem sent_of_time (s u : State) (htime : u.time = s.time) (dest : List Reg) (k : ReqKind) :
    Says.sent i u at_ g dest k = u.addReq ((ctxOf i s at_ g).req s dest k) :=
  congrArg u.addReq (ctxOf_req_congr i at_ g htime dest k)

@[simp] theorem ctxOf_areg (a : BitVec 4) : (ctxOf i s at_ g).areg a = g.areg a := ctxOf_g64 i s at_ g _

/-- The checks of an access see the group as it was. -/
@[simp] theorem accessVa_ctxOf (acc : Acc) (align size : Nat) (va : DWord) :
    accessVa (issuedState s at_ g) (ctxOf i s at_ g).g acc align size va = accessVa s g acc align size va := by
  unfold accessVa
  rw [ctxOf_g_launch, ctxOf_g_keyperm, ctxOf_g_core]
  rfl

@[simp] theorem clash_ctxOf (ps : List (Nat × Nat)) : clash (issuedState s at_ g) (ctxOf i s at_ g) ps = clash s (ctxOf i s at_ g) ps := rfl

end

/-- No comparator matches an access of the issuing group as its instruction's own effect sees it. -/
theorem Unwatched.ctxOf {i : Instr} {s : State} {w : Word} {p : Prefix} {at_ : Site} {g : Group} (h : Unwatched s g)
    (hs : siteOf s w p = some (at_, g)) (ts : List Touch) : dataMatch (issuedState s at_ g) (ctxOf i s at_ g).g ts = none := by
  have hplace : (poppedGroup s at_ g).place = g.place := (congrArg Group.place (popped_eq s at_ g) :)
  have hres : (poppedGroup s at_ g).resumed = g.resumed := (congrArg Group.resumed (popped_eq s at_ g) :)
  have hlaunch : (poppedGroup s at_ g).launch = g.launch := (congrArg Group.launch (popped_eq s at_ g) :)
  rw [← h ts]
  unfold dataMatch passesComparators debugOf
  rw [show (Machine.ctxOf i s at_ g).g = poppedGroup s at_ g from rfl, popped_nextPc hs, hplace, hres, hlaunch]
  rfl

/-- Without a matching comparator an effect is that of its body. -/
theorem watched_eq {i : Instr} {s : State} {p : Prefix} {at_ : Site} {g : Group} (hu : Unwatched s g) (h : Issues i p s at_ g) (ts : List Touch)
    (r : Res) : (ctxOf i s at_ g).watched (issuedState s at_ g) ts r = r := by
  unfold Ctx.watched
  rw [hu.ctxOf h.site]
  split <;> rfl

/-! ### The issue set goes on -/

/-- The end of an issue whose effect leaves the issuing group as the effect found it, and otherwise made `u`. -/
theorem finishIssue_passes {at_ : Site} {s1 u : State} {g g1 : Group} (hg : Tab.get? u.groups at_.gid = some g) (ho : SameOutside at_.gid u s1)
    (hg1 : Tab.get? s1.groups at_.gid = some g1) (hi : Issued at_ g g1) : Passes at_ u (finishIssue at_ s1) := by
  obtain ⟨ho2, g2, hg2, hr, hc⟩ := finishIssue_spec at_ s1 hg1
  have hsame := hi.same.trans hr
  obtain ⟨hissuers, hothers⟩ := hi.frame hc hg hg2
  exact ⟨⟨ho.trans ho2, sameRegs_state hg hg2 hsame, ⟨g, g2, hg, hg2, hsame.specials, hsame.budgets⟩, hothers⟩, hissuers⟩

/-- An instruction whose effect is outside the groups. -/
theorem issue_passes {i : Instr} {p : Prefix} {body : Ctx → State → Res} {s u : State} {at_ : Site} {g : Group} (h : Issues i p s at_ g)
    (hu : u.groups = s.groups) (hb : body (ctxOf i s at_ g) (issuedState s at_ g) = .ok { u with groups := (issuedState s at_ g).groups }) :
    ∃ t, issue i p body s = .next t ∧ Passes at_ u t := by
  obtain ⟨hg, -, -, -, -, -, -, -, hlen⟩ := siteOf_spec h.site
  obtain ⟨ho, g1, hg1, hi⟩ := issuedState_spec s at_ g hlen
  exact ⟨_, issue_completes h hb, finishIssue_passes (hu ▸ hg) ⟨rfl, fun _ => rfl, fun n hn => hu ▸ ho.groups n hn⟩ hg1 hi⟩

/-- An instruction that sends one request and goes on. -/
theorem issue_sends {i : Instr} {p : Prefix} {body : Ctx → State → Res} {s : State} {at_ : Site} {g : Group} {dest : List Reg} {k : ReqKind}
    (h : Issues i p s at_ g)
    (hb : body (ctxOf i s at_ g) (issuedState s at_ g) = .ok ((issuedState s at_ g).addReq ((ctxOf i s at_ g).req s dest k))) :
    ∃ t, issue i p body s = .next t ∧ Passes at_ (Says.sent i s at_ g dest k) t :=
  issue_passes (u := Says.sent i s at_ g dest k) h rfl hb

end Sys2Proof.Machine
end

section
/-! PROOF. GATOM and SEAL (spec/08 R179, R191). -/

namespace Sys2Proof.Machine

open Says

theorem gatom_sends {st : BitVec 2} {d : BitVec 7} {a : BitVec 4} {z : BitVec 3} {p : BitVec 4} {s : State} {at_ : Site} {g : Group} {pa : Nat}
    (h : Issues (.gatom st d a z p) none s at_ g) (hu : Unwatched s g) (htx : (s.team g.team).tx = none)
    (hpa : accessVa s g .atomic (typeSize z) (typeSize z) (g.areg a) = .ok pa)
    (hclash : clash s (ctxOf (.gatom st d a z p) s at_ g) [(pa, typeSize z)] = false) :
    let v := atomOperands (fun k => g.greg (d.toNat + k)) (gatomOp p) z
    ∃ t, exec (.gatom st d a z p) s = .next t ∧ Passes at_ (sent (.gatom st d a z p) s at_ g (destRegs .g d.toNat (typeSize z))
      (.atomic (gatomOp p) z (g.areg a) pa [{ lane := none, x := v.1, new := v.2 }] (some d.toNat))) t := by
  refine issue_sends h ?_
  simp only [watched_eq hu h, accessVa_ctxOf, ctxOf_areg, hpa, ctxOf_tx, htx, Option.isSome_none, Bool.false_eq_true, if_false, clash_ctxOf, hclash,
    ctxOf_gAt, ctxOf_req]

theorem sealPage_sends {st : BitVec 2} {d a : BitVec 7} {s : State} {at_ : Site} {g : Group} {pa : Nat}
    (h : Issues (.sealPage st d a) none s at_ g) (hu : Unwatched s g) (htx : (s.team g.team).tx = none)
    (hpa : accessVa s g .append 1 1 (g.gval64 a) = .ok pa)
    (hrel : (ctxOf (.sealPage st d a) s at_ g).mayRelease (issuedState s at_ g) 4 = true) :
    ∃ t, exec (.sealPage st d a) s = .next t ∧ Passes at_ (sent (.sealPage st d a) s at_ g [.g d.toNat]
      (.seal (appendPage (s.launch g.launch) (g.gval64 a) pa).1 d.toNat)) t := by
  refine issue_sends h ?_
  simp only [watched_eq hu h, accessVa_ctxOf, ctxOf_gp, hpa, ctxOf_tx, htx, Option.isSome_none, Bool.false_eq_true, if_false, hrel, Bool.not_true,
    ctxOf_launch, ctxOf_req]

/-- Settles O28: each sends its one request to the home slice and goes on. -/
theorem gatomAndSealSend : Obligations.GatomAndSealSend := by
  unfold Obligations.GatomAndSealSend
  exact ⟨fun _ _ _ _ _ _ _ _ _ h hu htx hpa hclash => gatom_sends h hu htx hpa hclash,
    fun _ _ _ _ _ _ _ h hu htx hpa hrel => sealPage_sends h hu htx hpa hrel⟩

end Sys2Proof.Machine
end

section
/-! PROOF. Cross-lane instructions and readings of status (spec/08 R164 to R166, R186, R195, R199 to R201), the task digest and KEYPERM (R198, R201). -/

namespace Sys2Proof.Machine

open Says

/-! ### Results in flight -/

/-- Where an effect is outside the groups, the group goes on from the state before the issue as well. -/
theorem Goes.goesOn {at_ : Site} {s u t : State} (h : Passes at_ u t) (hu : u.groups = s.groups) : GoesOn at_ s t := by
  obtain ⟨⟨-, hregs, hspecials, hothers⟩, hissuers⟩ := h
  unfold SameSpecials at hspecials
  unfold SameOthers at hothers
  unfold IssuersAt at hissuers
  rw [hu] at hspecials hothers hissuers
  refine ⟨fun l r => ?_, hspecials, hissuers, hothers⟩
  rw [hregs]
  simp only [State.reg, hu]
  rfl

/-- What stands outside the groups and the cores after an issue is that of the state that its effect made. -/
theorem Goes.outside {at_ : Site} {pc : Nat → DWord} {u t : State} (h : Goes at_ pc u t) :
    t.mem = u.mem ∧ t.reqs = u.reqs ∧ t.teams = u.teams ∧ t.cmds = u.cmds ∧ t.uid = u.uid := by
  have hr := h.follows.outside.rest
  exact ⟨(congrArg State.mem hr :), (congrArg State.reqs hr :), (congrArg State.teams hr :), (congrArg State.cmds hr :), (congrArg State.uid hr :)⟩

section
variable {i : Instr} {p : Prefix} {body : Ctx → State → Res} {s : State} {at_ : Site} {g : Group}

/-- A result sent is in flight. -/
theorem InFlight.of_passes {ws : List RegWrite} {t : State} (h : Passes at_ (sent i s at_ g (dedupRegs (ws.map RegWrite.target)) (.value ws)) t) :
    InFlight at_ ws s t := by
  obtain ⟨hmem, hreqs, -⟩ := h.outside
  obtain ⟨hregs, hspecials, hissuers, hothers⟩ := h.goesOn (s := s) rfl
  refine ⟨⟨(ctxOf i s at_ g).req s (dedupRegs (ws.map RegWrite.target)) (.value ws), ?_, rfl, rfl, rfl⟩, fun n hn => ?_, hmem, hregs, hspecials, hissuers, hothers⟩
  · rw [hreqs]; exact Tab.get?_put_self _ _ _
  · rw [hreqs]; exact Tab.get?_put_ne _ _ hn

/-- An instruction of variable latency sends its result as it reads the state in which it issues. -/
theorem issue_sendsResult (ws : List RegWrite) (h : Issues i p s at_ g) (hlat : i.latency = 0)
    (hb : body (ctxOf i s at_ g) (issuedState s at_ g) = .ok ((ctxOf i s at_ g).write ws (issuedState s at_ g))) :
    ∃ t, issue i p body s = .next t ∧ InFlight at_ ws s t := by
  have hw : (ctxOf i s at_ g).write ws (issuedState s at_ g) = (issuedState s at_ g).addReq
      ((ctxOf i s at_ g).req s (dedupRegs (ws.map RegWrite.target)) (.value ws)) := if_pos hlat
  obtain ⟨t, ht, hp⟩ := issue_sends h (hb.trans (congrArg Res.ok hw))
  exact ⟨t, ht, .of_passes hp⟩

end

/-! ### What the lanes' values come to (R165, R166) -/

theorem laneSet_of_filter (f : Nat → Word) (ls : List Nat) :
    LaneSet.of (ls.filter (fun l => f l != 0#32)) = ls.foldl (fun m l => if f l = 0#32 then m else m ||| BitVec.ofNat 64 (2 ^ l)) 0#64 := by
  rw [LaneSet.of, List.foldl_filter]
  congr 1
  funext m l
  by_cases h : f l = 0#32 <;> simp [h, LaneSet.one]

theorem foldl_add_eq (vs : List Word) (x : Word) : vs.foldl (· + ·) x = BitVec.ofNat 32 (x.toNat + (vs.map BitVec.toNat).sum) := by
  induction vs generalizing x with
  | nil => simp
  | cons v t ih =>
    rw [List.foldl_cons, ih, List.map_cons, List.sum_cons]
    apply BitVec.eq_of_toNat_eq
    simp only [BitVec.toNat_ofNat, BitVec.toNat_add]
    omega

theorem toInt_imaxF (a b : Word) : (imaxF a b).toInt = max a.toInt b.toInt := by
  rw [imaxF_eq]
  split <;> omega

theorem toInt_iminF (a b : Word) : (iminF a b).toInt = min a.toInt b.toInt := by
  rw [iminF_eq]
  split <;> omega

/-- A fold of a word operation that computes an integer operation. -/
theorem foldl_toInt {f : Word → Word → Word} {h : Int → Int → Int} (hf : ∀ a b, (f a b).toInt = h a.toInt b.toInt) (vs : List Word) (v : Word) :
    vs.foldl f v = BitVec.ofInt 32 (vs.foldl (fun m x => h m x.toInt) v.toInt) := by
  rw [← BitVec.ofInt_toInt (x := vs.foldl f v)]
  congr 1
  induction vs generalizing v with
  | nil => rfl
  | cons x t ih => rw [List.foldl_cons, List.foldl_cons, ih, hf]

theorem flag_any (vs : List Word) : flag (vs.any (fun v => v != 0#32)) = if ∃ v ∈ vs, v ≠ 0#32 then 1#32 else 0#32 := by
  simp [flag]

theorem flag_all (vs : List Word) : flag (vs.all (fun v => v != 0#32)) = if ∀ v ∈ vs, v ≠ 0#32 then 1#32 else 0#32 := by
  simp [flag]

theorem length_filter_map (f : Nat → Word) (ls : List Nat) :
    (ls.filter (fun l => f l != 0#32)).length = ((ls.map f).filter (fun v => v ≠ 0#32)).length := by
  rw [List.filter_map, List.length_map]
  congr 1
  refine List.filter_congr fun l _ => ?_
  by_cases h : f l = 0#32 <;> simp [h]

theorem head?_filter_ne (f : Nat → Word) (ls : List Nat) : (ls.filter (fun l => f l != 0#32)).head? = ls.find? (fun l => f l ≠ 0#32) := by
  rw [List.head?_filter]
  congr 1
  funext l
  by_cases h : f l = 0#32 <;> simp [h]

section
variable (i : Instr) (s : State) (at_ : Site) (g : Group) (a : BitVec 7)

@[simp] theorem ctxOf_xvals : (ctxOf i s at_ g).xvals a = (LaneSet.toList at_.lanes).map (fun l => g.xval l a) := by
  simp only [Ctx.xvals, ctxOf_xval, ctxOf_lanes]

@[simp] theorem ctxOf_xset : (ctxOf i s at_ g).xset a = (LaneSet.toList at_.lanes).filter (fun l => g.xval l a != 0#32) := by
  simp only [Ctx.xset, ctxOf_xval, ctxOf_lanes]

end

/-! ### The rows -/

section
variable {i : Instr} {s : State} {at_ : Site} {g : Group} {ws : List (Reg × Word)}

/-- G[D] := a function of the lanes' values. -/
theorem across_sends {f : List Word → Word} {d a : BitVec 7} (x : Word) (h : Issues i none s at_ g) (hlat : i.latency = 0)
    (hx : f ((LaneSet.toList at_.lanes).map (fun l => g.xval l a)) = x) :
    ∃ t, issue i none (across f d a) s = .next t ∧ InFlight at_ (asWrites none [(Reg.g d.toNat, x)]) s t :=
  issue_sendsResult _ h hlat (by rw [across, ctxOf_xvals, hx]; rfl)

theorem acrossLanes_sends (hws : acrossLanes i at_ g = some ws) (h : Issues i none s at_ g) :
    ∃ t, exec i s = .next t ∧ InFlight at_ (asWrites none ws) s t := by
  cases i with
  | lballot =>
    obtain rfl := Option.some.inj hws
    exact issue_sendsResult _ h rfl (by rw [ctxOf_xset, laneSet_of_filter]; rfl)
  | lany => obtain rfl := Option.some.inj hws; exact across_sends _ h rfl (flag_any _)
  | lall => obtain rfl := Option.some.inj hws; exact across_sends _ h rfl (flag_all _)
  | lread =>
    obtain rfl := Option.some.inj hws
    exact issue_sendsResult _ h rfl (by simp only [ctxOf_gv, ctxOf_xval, ctxOf_g_width]; rfl)
  | lsum =>
    obtain rfl := Option.some.inj hws
    exact across_sends _ h rfl ((foldl_add_eq _ _).trans (by rw [BitVec.toNat_ofNat, Nat.zero_mod, Nat.zero_add]))
  | lfsum => obtain rfl := Option.some.inj hws; exact across_sends _ h rfl (by beta_reduce; generalize List.map _ _ = vs; cases vs <;> rfl)
  | lmax =>
    obtain rfl := Option.some.inj hws
    refine across_sends _ h rfl ?_
    beta_reduce
    generalize List.map _ _ = vs
    cases vs with
    | nil => rfl
    | cons v t => exact foldl_toInt toInt_imaxF t v
  | lmin =>
    obtain rfl := Option.some.inj hws
    refine across_sends _ h rfl ?_
    beta_reduce
    generalize List.map _ _ = vs
    cases vs with
    | nil => rfl
    | cons v t => exact foldl_toInt toInt_iminF t v
  | lfmax => obtain rfl := Option.some.inj hws; exact across_sends _ h rfl (by beta_reduce; generalize List.map _ _ = vs; cases vs <;> rfl)
  | lpopc =>
    obtain rfl := Option.some.inj hws
    exact issue_sendsResult _ h rfl (by rw [ctxOf_xset, length_filter_map]; rfl)
  | lfirst =>
    obtain rfl := Option.some.inj hws
    exact issue_sendsResult _ h rfl (by rw [ctxOf_xset, head?_filter_ne]; rfl)
  | _ => nomatch hws

theorem statusRead_sends (hws : statusRead i s g = some ws) (h : Issues i none s at_ g) :
    ∃ t, exec i s = .next t ∧ InFlight at_ (asWrites none ws) s t := by
  cases i with
  | cpystat st d a =>
    obtain rfl := Option.some.inj hws
    refine issue_sendsResult _ h rfl ?_
    rw [ctxOf_gv, ctxOf_g_team, statusWord, show ticketStatus (issuedState s at_ g) g.team (g.gval a) = ticketStatus s g.team (g.gval a) from rfl]
    cases ticketStatus s g.team (g.gval a) <;> rfl
  | txstat st d n =>
    obtain rfl := Option.some.inj hws
    refine issue_sendsResult _ h rfl ?_
    rw [ctxOf_tx]
    cases (s.team g.team).tx with
    | none => rfl
    | some x => generalize n.toNat = k; rcases k with _ | _ | _ | k <;> rfl
  | getpk => obtain rfl := Option.some.inj hws; exact issue_sendsResult _ h rfl (by rw [ctxOf_g_keyperm, ctxOf_launch]; rfl)
  | rdtime => obtain rfl := Option.some.inj hws; exact issue_sendsResult _ h rfl rfl
  | digest => obtain rfl := Option.some.inj hws; exact issue_sendsResult _ h rfl (by rw [ctxOf_g_team, ctxOf_launch]; rfl)
  | _ => nomatch hws

/-- LWRITE to a lane that issues, and to one that does not (R165). -/
theorem lwrite_sends {st : BitVec 2} {d a b : BitVec 7} (h : Issues (.lwrite st d a b) none s at_ g) (hj : at_.lanes.has (g.gval b).toNat = true) :
    ∃ t, exec (.lwrite st d a b) s = .next t ∧ InFlight at_ [{ lane := some (g.gval b).toNat, reg := d.toNat - 64, val := g.gval a }] s t := by
  refine issue_sendsResult _ h rfl ?_
  simp only [ctxOf_gv, ctxOf_lanes, List.contains_iff_mem, LaneSet.mem_toList, hj, if_true]

theorem lwrite_passes {st : BitVec 2} {d a b : BitVec 7} (h : Issues (.lwrite st d a b) none s at_ g) (hj : at_.lanes.has (g.gval b).toNat = false) :
    ∃ t, exec (.lwrite st d a b) s = .next t ∧ Passes at_ s t := by
  refine issue_passes h rfl ?_
  simp only [ctxOf_gv, ctxOf_lanes, List.contains_iff_mem, LaneSet.mem_toList, hj, Bool.false_eq_true, if_false]
  rfl

end

/-- Settles O15: each row sends the value that its table gives, and LWRITE its operand where its lane issues. -/
theorem readingsSendResults : Obligations.ReadingsSendResults := by
  unfold Obligations.ReadingsSendResults
  refine ⟨fun i s at_ g ws hws h => ?_, fun _ _ _ _ _ _ _ h => ⟨lwrite_sends h, lwrite_passes h⟩⟩
  rcases hws with hws | hws
  · exact acrossLanes_sends hws h
  · exact statusRead_sends hws h

/-! ### The task digest and KEYPERM (R198, R201) -/

/-- The state in which a team's task digest has a value. -/
def digested (s : State) (g : Group) (v : DWord) : State := s.modTeam g.team (fun x => { x with digest := v })

theorem digestFold_passes {st : BitVec 2} {d a : BitVec 7} {s : State} {at_ : Site} {g : Group} {v : DWord} (h : Issues (.digestFold st d a) none s at_ g)
    (hdet : (s.launch g.launch).det = true) (hv : (s.team g.team).digest + genF (g.gval64 a) = v) :
    ∃ t, exec (.digestFold st d a) s = .next t ∧ Passes at_ (sent (.digestFold st d a) (digested s g v) at_ g
      (dedupRegs ((asWrites none (pairOf .g d v)).map RegWrite.target)) (.value (asWrites none (pairOf .g d v)))) t := by
  refine issue_passes h rfl ?_
  have hteam : ((issuedState s at_ g).team g.team).digest + genF (g.gval64 a) = v := hv
  simp only [ctxOf_launch, hdet, if_true, ctxOf_g_team, ctxOf_gp, hteam]
  rw [sent_of_time _ _ _ s (digested s g v) rfl]
  rfl

theorem digestFold_adds {st : BitVec 2} {d a : BitVec 7} {s : State} {at_ : Site} {g : Group} {v : DWord} (h : Issues (.digestFold st d a) none s at_ g)
    (hdet : (s.launch g.launch).det = true) (hv : (s.team g.team).digest + genF (g.gval64 a) = v) :
    ∃ t, exec (.digestFold st d a) s = .next t
      ∧ Tab.get? t.teams g.team = (Tab.get? s.teams g.team).map (fun x => { x with digest := v })
      ∧ (∃ r, Tab.get? t.reqs s.uid = some r ∧ r.group = at_.gid ∧ r.kind = .value (asWrites none (pairOf .g d v)))
      ∧ t.mem = s.mem ∧ GoesOn at_ s t := by
  obtain ⟨t, ht, hp⟩ := digestFold_passes h hdet hv
  rw [sent_of_time _ _ _ s (digested s g v) rfl] at hp
  obtain ⟨hmem, hreqs, hteams, -⟩ := hp.outside
  refine ⟨t, ht, ?_, ⟨(ctxOf (.digestFold st d a) s at_ g).req s (dedupRegs ((asWrites none (pairOf .g d v)).map RegWrite.target))
    (.value (asWrites none (pairOf .g d v))), ?_, rfl, rfl⟩, hmem, hp.goesOn rfl⟩
  · rw [hteams]; exact Tab.get?_modify_self _ _ _
  · rw [hreqs]; exact Tab.get?_put_self _ _ _

theorem digestFold_reads_zero {st : BitVec 2} {d a : BitVec 7} {s : State} {at_ : Site} {g : Group} (h : Issues (.digestFold st d a) none s at_ g)
    (hdet : (s.launch g.launch).det = false) :
    ∃ t, exec (.digestFold st d a) s = .next t ∧ InFlight at_ (asWrites none (pairOf .g d 0#64)) s t :=
  issue_sendsResult _ h rfl (by simp only [ctxOf_launch, hdet, Bool.false_eq_true, if_false]; rfl)

/-- The KEYPERM that SETPK leaves (R198). -/
def newKeyperm (s : State) (g : Group) (a b : BitVec 7) : DWord :=
  ((g.keyperm &&& ~~~(g.gval64 b)) ||| (g.gval64 a &&& g.gval64 b)) &&& (s.launch g.launch).keymax

theorem newKeyperm_bit (s : State) (g : Group) (a b : BitVec 7) {k : Nat} (hk : k < 64) :
    (newKeyperm s g a b).getLsbD k
      = ((if (g.gval64 b).getLsbD k then (g.gval64 a).getLsbD k else g.keyperm.getLsbD k) && (s.launch g.launch).keymax.getLsbD k) := by
  simp only [newKeyperm, BitVec.getLsbD_and, BitVec.getLsbD_or, BitVec.getLsbD_not, hk, decide_true, Bool.true_and]
  cases (g.gval64 b).getLsbD k <;> simp

theorem Issued.withKeyperm {at_ : Site} {g g1 : Group} (h : Issued at_ g g1) (x : DWord) :
    Issued at_ { g with keyperm := x } { g1 with keyperm := x } where
  same := by
    refine ⟨fun l r => (by cases r <;> rfl : _ = g1.reg l r).trans ((h.same.regs l r).trans (by cases r <;> rfl)), ?_, h.same.budgets, h.same.length⟩
    have hs := h.same.specials
    simp only [Group.specials, Prod.mk.injEq, List.cons.injEq] at hs ⊢
    exact ⟨⟨trivial, hs.1.2⟩, hs.2⟩
  blocks := h.blocks
  kept := h.kept
  past := h.past

theorem setpk_sets {st : BitVec 2} {a b : BitVec 7} {s : State} {at_ : Site} {g : Group} (h : Issues (.setpk st a b) none s at_ g) :
    ∃ t, exec (.setpk st a b) s = .next t ∧ Passes at_ (s.modGroup at_.gid (fun x => { x with keyperm := newKeyperm s g a b })) t := by
  obtain ⟨hg, -, -, -, -, -, -, -, hlen⟩ := siteOf_spec h.site
  obtain ⟨ho, g1, hg1, hi⟩ := issuedState_spec s at_ g hlen
  have hkey : g1.keyperm = g.keyperm := by
    have := hi.same.specials
    simp only [Group.specials, Prod.mk.injEq, List.cons.injEq] at this
    exact this.1.1
  refine ⟨_, issue_completes h rfl, finishIssue_passes (g := { g with keyperm := newKeyperm s g a b })
    (g1 := { g1 with keyperm := newKeyperm s g a b }) ?_ ⟨rfl, fun _ => rfl, fun n hn => ?_⟩ ?_ (hi.withKeyperm _)⟩
  · rw [State.modGroup_groups, Tab.get?_modify_self, hg]; rfl
  · rw [State.modGroup_groups, State.modGroup_groups, Tab.get?_modify_ne _ _ hn, ctxOf_site, Tab.get?_modify_ne _ _ hn]; exact ho.groups n hn
  · rw [State.modGroup_groups, ctxOf_site, Tab.get?_modify_self, hg1]
    simp only [Option.map_some, hkey, ctxOf_gp, ctxOf_launch]
    rfl

/-- The group of a state after the instruction has passed has the KEYPERM that its effect gave it. -/
theorem Goes.keyperm {at_ : Site} {u t : State} {g : Group} (h : Passes at_ u t) (hg : Tab.get? u.groups at_.gid = some g) :
    ∃ g', Tab.get? t.groups at_.gid = some g' ∧ g'.keyperm = g.keyperm := by
  obtain ⟨x, g', hx, hg', hs, -⟩ := h.follows.specials
  cases hx.symm.trans hg
  simp only [Group.specials, Prod.mk.injEq, List.cons.injEq] at hs
  exact ⟨g', hg', hs.1.1⟩

/-- Settles O16: the digest and its reading take F of the pair, and KEYPERM the bits that SETPK names under the ceiling. -/
theorem digestFoldAndSetpk : Obligations.DigestFoldAndSetpk := by
  unfold Obligations.DigestFoldAndSetpk
  refine ⟨fun _ _ _ _ _ _ h => ⟨fun hdet => digestFold_adds h hdet rfl, digestFold_reads_zero h⟩, fun st a b s at_ g h => ?_⟩
  obtain ⟨t, ht, hp⟩ := setpk_sets h
  obtain ⟨hg, -⟩ := siteOf_spec h.site
  obtain ⟨g', hg', hkey⟩ := hp.keyperm (g := { g with keyperm := newKeyperm s g a b }) (by
    rw [State.modGroup_groups, Tab.get?_modify_self, hg]; rfl)
  rw [show ({ g with keyperm := newKeyperm s g a b } : Group).keyperm = newKeyperm s g a b from rfl] at hkey
  refine ⟨t, g', ht, hg', fun k hk => ?_, hkey ▸ hp⟩
  rw [hkey, newKeyperm_bit s g a b hk]

end Sys2Proof.Machine
end

section
/-! PROOF. FENCE (spec/08 R167, R168, spec/14 R271, R273): the copies that its acquire discards. -/

namespace Sys2Proof.Machine

open Says

/-- What the acquire of a FENCE on a core leaves: the copies on the paths named, below its scope, are gone, and with more than one path also those nearby. -/
def fenced (core : Nat) (span : Bool) (k : BitVec 2) (scope : Nat) (h : BitVec 4) (s : State) : State :=
  let s := if k = 1#2 then s else acquireAt core scope span (pathsOf h) s
  if manyPaths h then dropNear core (pathsOf h) s else s

/-- It changes no group, and does the same whatever the groups are. -/
theorem fenced_withGroups (core : Nat) (span : Bool) (k : BitVec 2) (scope : Nat) (h : BitVec 4) (s : State) (gs : Tab Group) :
    fenced core span k scope h { s with groups := gs } = { fenced core span k scope h s with groups := gs } := by
  unfold fenced
  by_cases hk : k = 1#2 <;> by_cases hm : manyPaths h = true <;> simp only [hk, hm, if_true, if_false, Bool.false_eq_true] <;> rfl

theorem fenced_keeps (core : Nat) (span : Bool) (k : BitVec 2) (scope : Nat) (h : BitVec 4) (s : State) :
    (fenced core span k scope h s).groups = s.groups ∧ (fenced core span k scope h s).mem = s.mem
      ∧ (fenced core span k scope h s).reqs = s.reqs := by
  unfold fenced
  by_cases hk : k = 1#2 <;> by_cases hm : manyPaths h = true <;> simp [hk, hm, acquireAt, dropNear, dropCopies]

theorem mem_dropNear (core : Nat) (paths : Path → Bool) (s : State) (e : Nat × Copy) :
    e ∈ (dropNear core paths s).copies
      ↔ e ∈ s.copies ∧ ¬ (paths e.2.path = true ∧ (e.2.holder = .l1 core ∨ e.2.holder = .cluster (clusterOf core))) := by
  rw [dropNear, mem_dropCopies]; simp

theorem mem_fenced (core : Nat) (span : Bool) (k : BitVec 2) (scope : Nat) (h : BitVec 4) (s : State) (e : Nat × Copy) :
    e ∈ (fenced core span k scope h s).copies ↔ e ∈ s.copies
      ∧ ¬ (k ≠ 1#2 ∧ pathsOf h e.2.path = true ∧ e.2.holder.below core scope span = true)
      ∧ ¬ (manyPaths h = true ∧ pathsOf h e.2.path = true ∧ (e.2.holder = .l1 core ∨ e.2.holder = .cluster (clusterOf core))) := by
  unfold fenced
  by_cases hk : k = 1#2 <;> by_cases hm : manyPaths h = true <;>
    simp only [hk, hm, if_true, if_false, Bool.false_eq_true, mem_dropNear, mem_acquireAt, ne_eq, not_true_eq_false, not_false_eq_true, false_and,
      true_and, and_true, and_assoc]

theorem fence_passes {st k : BitVec 2} {p : BitVec 3} {h : BitVec 4} {s : State} {at_ : Site} {g : Group} (hi : Issues (.fence st k p h) none s at_ g)
    (hready : fenceReady k p.toNat h (ctxOf (.fence st k p h) s at_ g) (issuedState s at_ g) = true) :
    ∃ t, exec (.fence st k p h) s = .next t ∧ Passes at_ (fenced g.core (s.team g.team).spans k p.toNat h s) t := by
  refine issue_passes hi (fenced_keeps _ _ _ _ _ _).1 ?_
  simp only [hready, Bool.not_true, Bool.false_eq_true, if_false, ctxOf_core, ctxOf_team]
  exact congrArg Res.ok (fenced_withGroups _ _ _ _ _ s (issuedState s at_ g).groups)

/-- Settles O30: a FENCE that is ready makes its acquire, which drops copies alone, and goes on. -/
theorem fenceCompletes : Obligations.FenceCompletes := by
  unfold Obligations.FenceCompletes
  intro st k p h s at_ g hi hready
  obtain ⟨t, ht, hp⟩ := fence_passes hi hready
  have hcopies : t.copies = (fenced g.core (s.team g.team).spans k p.toNat h s).copies := (congrArg State.copies hp.follows.outside.rest :)
  obtain ⟨hmem, hreqs, -⟩ := hp.outside
  obtain ⟨hgroups, hmem', hreqs'⟩ := fenced_keeps g.core (s.team g.team).spans k p.toNat h s
  exact ⟨t, ht, hmem.trans hmem', hreqs.trans hreqs', hp.goesOn hgroups, fun e => by rw [hcopies, mem_fenced]⟩

end Sys2Proof.Machine
end

section
/-! PROOF. TRAPRET (spec/08 R205, spec/10 R218, R219): the threads of the handler resume at TRAPPC, and those whose wait has ended go on. -/

namespace Sys2Proof.Machine

/-- The issuing group in the state from which its instruction's own effect starts. -/
def issuedGroup (s : State) (at_ : Site) (g : Group) : Group := (poppedGroup s at_ g).modLanes at_.lanes (fun _ t => { t with pc := at_.next })

theorem issuedState_get? (s : State) (at_ : Site) (g : Group) :
    Tab.get? (issuedState s at_ g).groups at_.gid = some (issuedGroup s at_ g) := by
  simp [issuedState, advance, issuedGroup]

/-- In an open handler no pop is owed (R23). -/
theorem issuedGroup_of_handler {g : Group} (hh : g.handler = true) (s : State) (at_ : Site) :
    issuedGroup s at_ g = g.modLanes at_.lanes (fun _ t => { t with pc := at_.next }) := by
  simp [issuedGroup, poppedGroup, owedPops, hh]

/-- A group whose handler has closed, before the waits that ended meanwhile go on. -/
def Group.closed (g : Group) : Group := { g.modLanes g.hset (fun _ t => if t.live then { t with pc := g.trappc } else t) with handler := false }

theorem trapReturn_eq (g : Group) :
    trapReturn g = (g.closed.blocks.filter (fun b => b.2.kind == .over)).foldl (fun x b => x.unblock b.1) g.closed := rfl

theorem Group.closed_thread (g : Group) (l : Nat) : g.closed.thread l
    = if g.hset.has l ∧ l < g.threads.length then (if (g.thread l).live then { g.thread l with pc := g.trappc } else g.thread l) else g.thread l :=
  Group.thread_modLanes g g.hset (fun _ t => if t.live then { t with pc := g.trappc } else t) l

theorem sameRegs_trapReturn (g : Group) : SameRegs g.closed (trapReturn g) := by
  rw [trapReturn_eq]
  exact sameRegs_foldl (fun (x : Group) (e : Nat × Block) => x.unblock e.1) (fun g e => sameRegs_unblock g e.1) _ g.closed

theorem trapReturn_handler (g : Group) : (trapReturn g).handler = false := (Group.fields_of_specials (sameRegs_trapReturn g).specials).1

theorem trapReturn_reg (g : Group) (l : Nat) (r : Reg) : (trapReturn g).reg l r = g.reg l r := by
  refine ((sameRegs_trapReturn g).regs l r).trans ?_
  refine (?_ : g.closed.reg l r = _).trans (Group.reg_modLanes g g.hset (fun _ t => if t.live then { t with pc := g.trappc } else t)
    (fun _ t => by split <;> rfl) l r)
  cases r <;> rfl

/-- A live thread of the handler that may run resumes at TRAPPC (R219). -/
theorem trapReturn_resumes {g : Group} {l : Nat} (hl : l < g.threads.length) (hset : g.hset.has l = true) (hlive : (g.thread l).live = true)
    (hw : (g.thread l).wait = .run) : ((trapReturn g).thread l).pc = g.trappc ∧ ((trapReturn g).thread l).wait = .run := by
  have hc : g.closed.thread l = { g.thread l with pc := g.trappc } := by rw [Group.closed_thread, if_pos ⟨hset, hl⟩, if_pos hlive]
  rw [trapReturn_eq, Group.foldl_unblock_of_run _ (by rw [hc]; exact hw), hc]
  exact ⟨rfl, hw⟩

/-- A thread outside the handler whose wait has ended goes on behind its instruction (R218). -/
theorem trapReturn_goesOn {g : Group} {k l : Nat} {b : Block} (hb : Tab.get? g.blocks k = some b) (hover : b.kind = .over)
    (hw : (g.thread l).wait = .block k) (hset : g.hset.has l = false) :
    ((trapReturn g).thread l).wait = .run ∧ ((trapReturn g).thread l).pc = b.next := by
  have hc : g.closed.thread l = g.thread l := by rw [Group.closed_thread, if_neg (by simp [hset])]
  rw [trapReturn_eq]
  refine Group.foldl_unblock_thread _ hb (by rw [hc]; exact hw) ⟨(k, b), List.mem_filter.2 ⟨Tab.mem_of_get? hb, ?_⟩, rfl⟩
  simp [hover]

/-- The choice of the next issue set keeps a thread that may run where it is. -/
theorem Chosen.of_run {g g' : Group} (h : Chosen g g') {l : Nat} (hw : (g.thread l).wait = .run) :
    (g'.thread l).pc = (g.thread l).pc ∧ (g'.thread l).wait = .run := by
  obtain ⟨hpc, hwait⟩ := h.pcs l (fun _ _ _ => by rw [hw]; exact Wait.noConfusion)
  exact ⟨hpc, hwait.trans hw⟩

/-- The group of a TRAPRET after its issue: that of its return, but for the choice of the next issue set. -/
theorem trapret_returns {st : BitVec 2} {s : State} {at_ : Site} {g : Group} (h : Issues (.trapret st) none s at_ g) :
    ∃ t g', exec (.trapret st) s = .next t ∧ Tab.get? t.groups at_.gid = some g' ∧ SameOutside at_.gid s t
      ∧ SameRegs (trapReturn (issuedGroup s at_ g)) g' ∧ Chosen (trapReturn (issuedGroup s at_ g)) g' := by
  obtain ⟨-, -, -, -, -, -, -, -, hlen⟩ := siteOf_spec h.site
  obtain ⟨ho, -⟩ := issuedState_spec s at_ g hlen
  have hg : Tab.get? ((issuedState s at_ g).modGroup at_.gid trapReturn).groups at_.gid = some (trapReturn (issuedGroup s at_ g)) := by
    rw [State.modGroup_groups, Tab.get?_modify_self, issuedState_get?]; rfl
  obtain ⟨ho2, g', hg', hr, hc⟩ := finishIssue_spec at_ _ hg
  exact ⟨_, g', issue_completes h rfl, hg', ho.trans ((sameOutside_modGroup _ _ _).trans ho2), hr, hc⟩

/-- Settles O14: the return sets the threads of the handler to TRAPPC and ends the waits that are over, and the next choice keeps both. -/
theorem trapretResumes : Obligations.TrapretResumes := by
  unfold Obligations.TrapretResumes
  intro st s at_ g h
  have hh : g.handler = true := h.enabledOk (fun _ => Instr.noConfusion)
  obtain ⟨-, -, -, -, -, -, -, -, hlen⟩ := siteOf_spec h.site
  obtain ⟨t, g', ht, hg', ho, hr, hc⟩ := trapret_returns h
  obtain ⟨-, g1, hg1, hi⟩ := issuedState_spec s at_ g hlen
  cases (issuedState_get? s at_ g).symm.trans hg1
  have hwait : ∀ l, ((issuedGroup s at_ g).thread l).wait = (g.thread l).wait := by
    intro l
    cases hl : at_.lanes.has l with
    | true => exact (hi.past l hl).2.1
    | false => rw [hi.kept l hl]
  have hlive : ∀ l, ((issuedGroup s at_ g).thread l).live = (g.thread l).live := by
    intro l
    rw [issuedGroup_of_handler hh, Group.thread_modLanes]
    split <;> rfl
  obtain ⟨-, -, -, -, -, -, htrappc, hhset, -, -⟩ := Group.fields_of_specials hi.same.specials
  refine ⟨t, g', ht, hg', ?_, fun l hl hset hlv hw => ?_, fun k b l hb hover _ hw hset => ?_, fun l r => ?_, ho⟩
  · exact (Group.fields_of_specials hr.specials).1.trans (trapReturn_handler _)
  · obtain ⟨hpc, hrun⟩ := trapReturn_resumes (g := issuedGroup s at_ g) (l := l) (hi.same.length ▸ hl) (hhset ▸ hset) ((hlive l).trans hlv)
      ((hwait l).trans hw)
    exact (hc.of_run hrun).1.trans (hpc.trans htrappc)
  · obtain ⟨hrun, hpc⟩ := trapReturn_goesOn (g := issuedGroup s at_ g) (l := l) (hi.blocks ▸ hb) hover ((hwait l).trans hw) (hhset ▸ hset)
    exact ⟨(hc.of_run hrun).2, (hc.of_run hrun).1.trans hpc⟩
  · exact (hr.regs l r).trans ((trapReturn_reg _ l r).trans (hi.same.regs l r))

end Sys2Proof.Machine
end

section
/-! PROOF. An instruction that replies with one value beside an effect outside the groups; TXBEGIN (spec/08 R192, spec/16 R319). -/

namespace Sys2Proof.Machine

open Says

/-! ### A reply in G[D] -/

section
variable {i : Instr} {p : Prefix} {body : Ctx → State → Res} {s u : State} {at_ : Site} {g : Group} {d : BitVec 7} {v : Word}

/-- An instruction of variable latency whose effect is outside the groups, and which replies in G[D]. -/
theorem issue_replies (h : Issues i p s at_ g) (hlat : i.latency = 0) (hu : u.groups = s.groups) (htime : u.time = s.time)
    (hb : body (ctxOf i s at_ g) (issuedState s at_ g)
      = .ok ((ctxOf i s at_ g).write [wG d v] { u with groups := (issuedState s at_ g).groups })) :
    ∃ t, issue i p body s = .next t ∧ Passes at_ (replied i u at_ g [(.g d.toNat, v)]) t := by
  refine issue_passes h hu (hb.trans (congrArg Res.ok ?_))
  have hreq : (ctxOf i s at_ g).req { u with groups := (issuedState s at_ g).groups } [.g d.toNat] (.value [wG d v])
      = (ctxOf i s at_ g).req s [.g d.toNat] (.value [wG d v]) := by simp only [Ctx.req, htime]
  rw [Ctx.write, if_pos (show (ctxOf i s at_ g).lat = 0 from hlat), replied, sent_of_time _ _ _ s u htime]
  exact congrArg (State.addReq { u with groups := (issuedState s at_ g).groups }) hreq

/-- The request of a reply. -/
theorem Goes.reply {t : State} (h : Passes at_ (replied i u at_ g [(.g d.toNat, v)]) t) :
    ∃ r, Tab.get? t.reqs u.uid = some r ∧ r.group = at_.gid ∧ r.dest = [.g d.toNat] ∧ r.kind = .value (asWrites none [(.g d.toNat, v)]) := by
  refine ⟨(ctxOf i u at_ g).req u [.g d.toNat] (.value (asWrites none [(.g d.toNat, v)])), ?_, rfl, rfl, rfl⟩
  rw [h.outside.2.1]
  exact Tab.get?_put_self _ _ _

end

theorem State.team_of_get? {s : State} {n : Nat} {u : Team} (h : Tab.get? s.teams n = some u) : s.team n = u := by
  simp only [State.team, Tab.getD, h, Option.getD_some]

/-! ### TXBEGIN -/

/-- The rung at which a transaction starts; its reading changes the assay table alone, whatever the groups are. -/
theorem startRung_fst (s : State) (l : Launch) (t : Team) (n tile top : Nat) : (startRung s l t n tile top).1 = firstRung s l t n tile top := by
  unfold startRung firstRung
  cases t.replay with
  | none => cases l.det <;> cases assayWay s l n tile <;> rfl
  | some r =>
    by_cases hr : r.ladder = n ∧ r.tile = tile
    · simp only [hr, and_self, if_true]
    · simp only [hr, if_false]
      cases l.det <;> cases assayWay s l n tile <;> rfl

theorem startRung_snd (s : State) (l : Launch) (t : Team) (n tile top : Nat) :
    (startRung s l t n tile top).2 = s ∨ ∃ w, (startRung s l t n tile top).2 = assayPut tile w s := by
  have hpredicted : ∀ x : Nat × State, x = (if l.det then (0, s) else match assayWay s l n tile with
      | some w => (min w.rung top, assayPut tile w s)
      | none => (0, s)) → x.2 = s ∨ ∃ w, x.2 = assayPut tile w s := by
    rintro x rfl
    cases l.det with
    | true => exact .inl rfl
    | false =>
      cases assayWay s l n tile with
      | none => exact .inl rfl
      | some w => exact .inr ⟨w, rfl⟩
  unfold startRung
  cases t.replay with
  | none => exact hpredicted _ rfl
  | some r =>
    by_cases hr : r.ladder = n ∧ r.tile = tile
    · simp only [hr, and_self, if_true]; exact .inl trivial
    · simp only [hr, if_false]; exact hpredicted _ rfl

theorem startRung_withGroups (s : State) (l : Launch) (t : Team) (n tile top : Nat) (gs : Tab Group) :
    startRung { s with groups := gs } l t n tile top
      = ((startRung s l t n tile top).1, { (startRung s l t n tile top).2 with groups := gs }) := by
  have hway : assayWay { s with groups := gs } l n tile = assayWay s l n tile := rfl
  unfold startRung
  rw [hway]
  cases t.replay with
  | none => cases l.det <;> cases assayWay s l n tile <;> rfl
  | some r =>
    by_cases hr : r.ladder = n ∧ r.tile = tile
    · simp only [hr, and_self, if_true]
    · simp only [hr, if_false]
      cases l.det <;> cases assayWay s l n tile <;> rfl

/-- The transaction that a TXBEGIN opens, and the state in which it is open. -/
def openedTx (s : State) (n tile rung top : Nat) : Tx :=
  { id := s.uid, ladder := n, tile := tile, rung := rung, top := top, range := 0, cancel := 0, rtrip := false, ctrip := false, log := [], logBytes := [],
    shadows := [] }
def opened (s : State) (team : Nat) (x : Tx) (assay : Tab (List AssayWay)) : State :=
  { { s with assay := assay }.modTeam team (fun t => { t with tx := some x, replay := none }) with uid := s.uid + 1 }

theorem txbegin_opens {st : BitVec 2} {d a : BitVec 7} {n : BitVec 3} {s : State} {at_ : Site} {g : Group} {u : Team}
    (h : Issues (.txbegin st d a n) none s at_ g) (hvalid : ladderValid ((s.launch g.launch).ladders.getD n.toNat 0) = true)
    (htile : (g.gval a).toNat < 2 ^ 24) (hgid : g.gid = 0) (hteam : s.team g.team = u) (htx : u.tx = none) :
    let top := ladderTop ((s.launch g.launch).ladders.getD n.toNat 0)
    let rung := firstRung s (s.launch g.launch) u n.toNat (g.gval a).toNat top
    ∃ t assay, exec (.txbegin st d a n) s = .next t
      ∧ Passes at_ (replied (.txbegin st d a n) (opened s g.team (openedTx s n.toNat (g.gval a).toNat rung top) assay) at_ g
        [(.g d.toNat, BitVec.ofNat 32 rung)]) t := by
  intro top rung
  have hrung : startRung (issuedState s at_ g) (s.launch g.launch) u n.toNat (g.gval a).toNat top
      = (rung, { (startRung s (s.launch g.launch) u n.toNat (g.gval a).toNat top).2 with groups := (issuedState s at_ g).groups }) :=
    (startRung_withGroups s _ _ _ _ _ (issuedState s at_ g).groups).trans (by rw [startRung_fst])
  obtain ⟨assay, hassay⟩ : ∃ assay, (startRung s (s.launch g.launch) u n.toNat (g.gval a).toNat top).2 = { s with assay := assay } := by
    rcases startRung_snd s (s.launch g.launch) u n.toNat (g.gval a).toNat top with hs | ⟨w, hs⟩
    · exact ⟨s.assay, hs⟩
    · exact ⟨_, hs⟩
  rw [hassay] at hrung
  have key : ∃ t, exec (.txbegin st d a n) s = .next t
      ∧ Passes at_ (replied (.txbegin st d a n) (opened s g.team (openedTx s n.toNat (g.gval a).toNat rung top) assay) at_ g
        [(.g d.toNat, BitVec.ofNat 32 rung)]) t := by
    refine issue_replies h rfl rfl rfl ?_
    simp only [ctxOf_launch, hvalid, ctxOf_gv, htile.not_ge, decide_false, Bool.not_true, Bool.or_false, Bool.false_eq_true, if_false, ctxOf_g_gid, hgid,
      ctxOf_tx, hteam, htx, ne_eq, not_true_eq_false, Option.isSome_none, or_false, ctxOf_team, ctxOf_g_team]
    rw [hrung]
    rfl
  obtain ⟨t, ht, hp⟩ := key
  exact ⟨t, assay, ht, hp⟩

/-- Settles O34: the opened transaction is in its team, and its rung is the reply. -/
theorem txbeginOpens : Obligations.TxbeginOpens := by
  unfold Obligations.TxbeginOpens
  intro st d a n s at_ g u i l lad h hvalid htile hgid hu htx rung
  obtain ⟨t, assay, ht, hp⟩ := txbegin_opens h hvalid htile hgid (State.team_of_get? hu) htx
  obtain ⟨r, hr, -, -, hkind⟩ := hp.reply
  obtain ⟨hmem, -, hteams, -⟩ := hp.outside
  refine ⟨t, { u with tx := some (openedTx s n.toNat (g.gval a).toNat rung (ladderTop lad)), replay := none }, openedTx s n.toNat (g.gval a).toNat rung (ladderTop lad), r, ht, ?_, rfl, rfl, rfl, rfl, rfl, rfl, rfl, rfl, rfl, hr, hkind, hmem,
    hp.goesOn rfl⟩
  rw [hteams]
  exact (Tab.get?_modify_self _ _ _).trans (by rw [hu]; rfl)

end Sys2Proof.Machine
end

section
/-! PROOF. TTLOAD (spec/08 R196) in a state whose group table is out of order: the entries that it loads from register files are not those of
the state before. -/

namespace Sys2Proof.Machine

open Says

set_option exponentiation.threshold 4096

/-- The registers V0 to V15 of a lane that hold a tensor entry of 64 by 64 elements of 8 bits at 0x1_8000. -/
def entryRegs : List (Nat × Word) := [(0, 0x18000#32), (8, 64#32), (9, 64#32), (10, 128#32), (12, 129#32)]

/-- A group that loads one entry into the first row of its tensor table, and one in the next slot whose registers lie in the same rows. -/
def loaderGroup : Group := { handlerGroup 1 with handler := false, hset := 0#64, keyperm := 1#64, g := [(9, 1#32), (32, 0x18000#32)] }
def neighbourGroup : Group :=
  { handlerGroup 1 with handler := false, hset := 0#64, gid := 1, place := .resident 0 1, threads := [{ Thread.start 0x10000#64 true with v := entryRegs }] }

/-- A table in which group 5 stands before group 1, which issues; an extent of their launch maps the register file of core 0. -/
def outOfOrder : State :=
  { State.reset with
    launches := [(1, { Launch.empty with extents := [{ va := 0x18000, pa := 2 ^ 47, len := 4096, append := false, page := 0, qc := 0, key := 0, rd := true,
                                                       wr := false, fetch := false }] })]
    teams := [(1, { Team.empty with launch := 1 })]
    groups := [(5, neighbourGroup), (1, loaderGroup)], turn := 1 }

/-- Where the TTLOAD of group 1 stands, and the piece that it reads. -/
def loaderInstr : Instr := .ttload 0#2 8#7 32#7 9#7
def loaderSite : Site := { gid := 1, lanes := 1#64, pc := 0x10000#64, next := 0x10004#64, word := wordOf loaderInstr, pfx := none }
def loaderPiece : Seg := { va := 0x18000, pa := 2 ^ 47, len := 64 }

theorem outOfOrder_issues : Issues loaderInstr none outOfOrder loaderSite loaderGroup where
  site := by decide +kernel
  halt := by decide
  comparator := by decide
  fetching := by decide
  pops := by
    rw [show owedPops outOfOrder loaderSite loaderGroup = [] by decide]
    exact fun _ he => nomatch he
  legal := by decide
  notPending := by decide
  notHeld := by decide
  inTime := by decide
  sound := by decide

/-- No comparator stops a group of a launch that is not debugged (R229). -/
theorem unwatched_of_not_debug {s : State} {g : Group} (h : (s.launch g.launch).debug = false) : Unwatched s g := by
  intro ts
  unfold dataMatch
  split
  · rfl
  · simp only [h, Bool.false_and, Bool.false_eq_true, if_false]

/-- An entry of a team's tensor table after an outcome. -/
def tensorAfter (team n : Nat) : Host.Outcome State Fault Refusal → Option Tensor
  | .next t => (Tab.get? t.teams team).bind (fun u => Tab.get? u.tensors n)
  | _ => none

/-- The entry that the piece holds before the issue: it is defined, and sound. -/
def loadedEntry : Tensor := BitVec.ofNat 512 (0x18000 + 64 * 2 ^ 256 + 64 * 2 ^ 288 + 128 * 2 ^ 320 + 129 * 2 ^ 384)

theorem outOfOrder_entries : (List.range (loaderGroup.gval 9#7).toNat).map (fun k =>
    (BitVec.ofNat 512 (leNat (((piecesBytes outOfOrder loaderGroup.core [loaderPiece]).drop (64 * k)).take 64)) : Tensor)) = [loadedEntry] := by
  decide +kernel

theorem loadedEntry_valid : tValid loadedEntry = true := by decide +kernel
theorem loadedEntry_sound : tensorBad loadedEntry = false := by decide +kernel

theorem outOfOrder_after : (tensorAfter 1 0 (exec loaderInstr outOfOrder)).isNone = true := by decide +kernel

/-- Refutes O36: the issue of group 1 puts it before group 5, so that the register file reads as its own registers, which define no entry. -/
theorem not_tensorTableEntries : ¬ Obligations.TensorTableEntries := by
  intro h
  have hclaim := h.1 0#2 8#7 32#7 9#7 outOfOrder loaderSite loaderGroup [loaderPiece] outOfOrder_issues (unwatched_of_not_debug (by decide)) (by decide)
    (by decide) (by decide) (by decide +kernel) (by decide +kernel) (by decide +kernel) (by decide) (by decide)
  rw [outOfOrder_entries] at hclaim
  obtain ⟨t, ht, -, hk⟩ := hclaim (fun e he _ => List.mem_singleton.1 he ▸ loadedEntry_sound)
  obtain ⟨u', hu', hentry⟩ := hk _ rfl
  have h0 : Tab.get? u'.tensors 0 = ([loadedEntry][0]?).filter tValid := hentry 0 (by decide)
  have hafter := outOfOrder_after
  rw [show exec loaderInstr outOfOrder = .next t from ht, tensorAfter, show Tab.get? t.teams 1 = some u' from hu', Option.bind_some, h0,
    List.getElem?_cons_zero, Option.filter_some, loadedEntry_valid] at hafter
  cases hafter

end Sys2Proof.Machine
end

section
/-! PROOF. GLD, WAIT and BAR.wait in a handler (spec/08 R154) where one number names two groups: the freeze of the group that issues ends its task
(R222, AOF), and the end of the other group's task takes both from the table. -/

namespace Sys2Proof.Machine

open Says

set_option exponentiation.threshold 4096

/-- The launch of both tasks: it ends whole with one task (card bit 83), has two groups in a team (bit 113) and 4 KiB of scratchpad (bit 384), and maps
a page of the host. -/
def sharedLaunch : Launch :=
  { Launch.empty with
    card := BitVec.ofNat 1024 (2 ^ 83 + 2 ^ 113 + 2 ^ 384)
    extents := [{ va := 0x18000, pa := 3 * 2 ^ 46, len := 4096, append := false, page := 0, qc := 0, key := 0, rd := true, wr := false, fetch := false }] }

/-- A group in an open handler that may read region 0; its G10 is 1, and A0 points at the page of the host. -/
def twinGroup (team : Nat) : Group := { handlerGroup team with keyperm := 1#64, g := [(10, 1#32), (32, 0x18000#32)] }

/-- Number 1 names a group of team 1 and another of team 2; the scratchpad begins with a wait block that waits for phase 1 of barrier 0. -/
def twinState : State :=
  { State.reset with
    launches := [(1, sharedLaunch)]
    teams := [(1, { Team.empty with launch := 1 }), (2, { Team.empty with launch := 1 })]
    groups := [(1, twinGroup 1), (1, twinGroup 2)]
    cores := [(0, { State.reset.core 0 with lstore := [(7, 4#8), (8, 1#8)] })], turn := 1 }

/-- Where an instruction of group 1 stands. -/
def twinSite (i : Instr) : Site := { gid := 1, lanes := 1#64, pc := 0x10000#64, next := 0x10004#64, word := wordOf i, pfx := none }

/-- A frozen group stands in the table. -/
theorem not_froze_of_gone {i : Instr} (hgone : goneAfter 1 (exec i twinState) = true) :
    ¬ ∃ t, exec i twinState = .next t ∧ Froze (twinSite i) (twinGroup 1) 0x24 0 (twinSite i).lanes 0#64 t := by
  rintro ⟨t, ht, hfroze⟩
  obtain ⟨g', hg', -⟩ := hfroze.group
  rw [ht, goneAfter, show Tab.get? t.groups 1 = some g' from hg'] at hgone
  cases hgone

/-! ### GLD -/

def twinLoad : Instr := .gld 0#2 8#7 0#4 2#3 0#7

theorem twinLoad_issues : Issues twinLoad none twinState (twinSite twinLoad) (twinGroup 1) where
  site := by decide +kernel
  halt := by decide
  comparator := by decide
  fetching := by decide
  pops := fun e he => by cases he
  legal := by decide
  notPending := by decide
  notHeld := by decide
  inTime := by decide
  sound := by decide

theorem twinLoad_gone : goneAfter 1 (exec twinLoad twinState) = true := by decide +kernel

/-- Refutes O21: of two groups of one number the end of the other's task (R222, AOF) removes both, so that the group that a load from the host froze
in its handler does not stand. -/
theorem not_uniformLoadsSend : ¬ Obligations.UniformLoadsSend := fun h =>
  not_froze_of_gone twinLoad_gone (h.2 twinLoad none twinState (twinSite twinLoad) (twinGroup 1) .gen 4 8#7 0x18000#64 (3 * 2 ^ 46) (by decide)
    (fun hq => nomatch hq) twinLoad_issues (by decide) (by decide +kernel) (by decide))

/-! ### BAR.wait -/

def twinArrival : Instr := .barWait 0#2 8#7 9#7 0#3

theorem twinArrival_issues : Issues twinArrival none twinState (twinSite twinArrival) (twinGroup 1) where
  site := by decide +kernel
  halt := by decide
  comparator := by decide
  fetching := by decide
  pops := fun e he => by cases he
  legal := by decide
  notPending := by decide
  notHeld := by decide
  inTime := by decide
  sound := by decide

theorem twinArrival_gone : goneAfter 1 (exec twinArrival twinState) = true := by decide +kernel

/-- Refutes O39: of two groups of one number the end of the other's task (R222, AOF) removes both, so that the group that BAR.wait froze in its handler
does not stand. -/
theorem not_barriersCountArrivals : ¬ Obligations.BarriersCountArrivals := fun h =>
  not_froze_of_gone twinArrival_gone (h.2.1 twinArrival 8#7 9#7 0 twinState (twinSite twinArrival) (twinGroup 1) (by decide) twinArrival_issues
    (by decide +kernel) (by decide))

/-! ### WAIT -/

def twinWait : Instr := .wait 0#2 8#7 9#7 10#7

theorem twinWait_issues : Issues twinWait none twinState (twinSite twinWait) (twinGroup 1) where
  site := by decide +kernel
  halt := by decide
  comparator := by decide
  fetching := by decide
  pops := fun e he => by cases he
  legal := by decide
  notPending := by decide
  notHeld := by decide
  inTime := by decide
  sound := by decide

theorem twinWait_gone : goneAfter 1 (exec twinWait twinState) = true := by decide +kernel

/-- The scratchpad's first bytes, and the wait block in them. -/
def twinPlace : LocalAt := { core := 0, lrf := false, off := 0 }
def twinBlock : Nat := 2 ^ 58 + 2 ^ 64

theorem twinBlock_eq : leNat (localBytes twinState twinPlace 64) = twinBlock := by decide +kernel

theorem twinBlock_accepted : WaitAccepted twinState (twinGroup 1) twinBlock (fun _ => 0) where
  loom := .inr (by decide +kernel)
  form := by decide +kernel
  words := by decide +kernel
  tickets := by decide +kernel

/-- Refutes O31: of two groups of one number the end of the other's task (R222, AOF) removes both, so that the group that WAIT froze in its handler does
not stand. -/
theorem not_waitTestsOrBlocks : ¬ Obligations.WaitTestsOrBlocks := by
  intro h
  have hclaim := h 0#2 8#7 9#7 10#7 twinState (twinSite twinWait) (twinGroup 1) twinPlace (fun _ => 0) twinWait_issues
    (unwatched_of_not_debug (by decide)) (by decide +kernel)
  simp only [twinBlock_eq] at hclaim
  exact not_froze_of_gone twinWait_gone ((hclaim twinBlock_accepted (fun hm => absurd hm (by decide +kernel))).2.2 (by decide +kernel) (by decide) rfl)

end Sys2Proof.Machine
end

section
/-! PROOF. CPY, CPYQ and JPOST (spec/08 R180 to R185, R189, R190): the checks of a block and of its ranges see the state as it was before the issue. -/

namespace Sys2Proof.Machine

open Says

/-! ### What the checks of a block read -/

section
variable (i : Instr) (s : State) (at_ : Site) (g : Group)

theorem watchBlock_eq {i : Instr} {s : State} {p : Prefix} {at_ : Site} {g : Group} (hu : Unwatched s g) (h : Issues i p s at_ g) (la : Nat) (r : Res) :
    (ctxOf i s at_ g).watchBlock (issuedState s at_ g) la r = r :=
  watched_eq hu h _ r

@[simp] theorem localBlock_issued (c : Ctx) (la size : Nat) : localBlock (issuedState s at_ g) c la size = localBlock s c la size := rfl
@[simp] theorem localBytes_issued (x : LocalAt) (n : Nat) : localBytes (issuedState s at_ g) x n = localBytes s x n := rfl
@[simp] theorem checkRange_issued (l : Launch) (k : DWord) (a : Acc) (va n : Nat) :
    checkRange (issuedState s at_ g) l k a va n = checkRange s l k a va n := rfl
@[simp] theorem checkCompw_issued (c : Ctx) (b : BitVec 512) : checkCompw (issuedState s at_ g) c b = checkCompw s c b := rfl
@[simp] theorem command_issued (c : Ctx) (q : Bool) (b : BitVec 512) (src dst : List Seg) (comp : Nat) :
    c.command (issuedState s at_ g) q b src dst comp = c.command s q b src dst comp := rfl
@[simp] theorem cpyqBad_issued (c : Ctx) (b : BitVec 512) : cpyqBad c (issuedState s at_ g) b = cpyqBad c s b := rfl
@[simp] theorem cpyqCommand_issued (c : Ctx) (b : BitVec 512) : cpyqCommand c (issuedState s at_ g) b = cpyqCommand c s b := rfl

@[simp] theorem checkWindow_ctxOf (pa n : Nat) : checkWindow (issuedState s at_ g) (ctxOf i s at_ g).g pa n = checkWindow s g pa n := by
  unfold checkWindow
  rw [ctxOf_g_team, ctxOf_g_launch]
  rfl

end

/-! ### A block posts its command -/

theorem postBlock_posts {i : Instr} {d a : BitVec 7} {s : State} {at_ : Site} {g : Group} {x : LocalAt} {k : Cmd}
    {malformed : Ctx → State → BitVec 512 → Bool} {make : Ctx → State → BitVec 512 → Except Fail Cmd} (h : Issues i none s at_ g) (hlat : i.latency = 0)
    (hu : Unwatched s g) (hx : localBlock s (ctxOf i s at_ g) (g.gval a).toNat 64 = .ok x)
    (hgood : malformed (ctxOf i s at_ g) (issuedState s at_ g) (BitVec.ofNat 512 (leNat (localBytes s x 64))) = false)
    (hmake : make (ctxOf i s at_ g) (issuedState s at_ g) (BitVec.ofNat 512 (leNat (localBytes s x 64))) = .ok k)
    (hroom : s.cmds.countP (fun e => e.2.team == g.team) < 64) :
    ∃ t, issue i none (postBlock malformed make d a) s = .next t ∧ Passes at_ (posted i s at_ g d k) t := by
  have hroom' : ¬ 64 ≤ (issuedState s at_ g).cmds.countP (fun e => e.2.team == g.team) := Nat.not_le.2 hroom
  refine issue_replies h hlat rfl rfl ?_
  simp only [postBlock, ctxOf_gv, localBlock_issued, hx, localBytes_issued, hgood, Bool.false_eq_true, if_false, watchBlock_eq hu h, hmake, hroom',
    postCommand, ctxOf_g_team]
  rfl

/-- The command of a CPY whose addresses are aligned and whose ranges pass. -/
theorem cpyCommand_of_checks {i : Instr} {s : State} {at_ : Site} {g : Group} {b : BitVec 512} {src dst : List Seg} {comp : Nat} (hsa : cpySrc b % 8 = 0)
    (hda : cpyDst b % 8 = 0)
    (hsrc : (if srcWin b then checkWindow s g (cpySrc b) (cpyLen b) else checkRange s (s.launch g.launch) g.keyperm .load (cpySrc b) (cpyLen b)) = .ok src)
    (hdst : (if dstWin b then checkWindow s g (cpyDst b) (cpyLen b) else checkRange s (s.launch g.launch) g.keyperm .store (cpyDst b) (cpyLen b)) = .ok dst)
    (hcomp : checkCompw s (ctxOf i s at_ g) b = .ok comp) :
    cpyCommand (ctxOf i s at_ g) (issuedState s at_ g) b = .ok ((ctxOf i s at_ g).command s false b src dst comp) := by
  simp only [cpyCommand, checkWindow_ctxOf, ctxOf_launch, ctxOf_g_keyperm, checkRange_issued, checkCompw_issued, command_issued, hsrc, hdst, hcomp, hsa, hda,
    if_true, failOf, segsOf, okPa]
  rfl

/-- What the command of a CPYQ holds. -/
theorem cpyqCommand_fields {c : Ctx} {s : State} {b : BitVec 512} {k : Cmd} (h : cpyqCommand c s b = .ok k) :
    k.quant = true ∧ k.block = b ∧ k.ticket = (c.team s).ticket := by
  simp only [cpyqCommand] at h
  split at h
  · cases h
  · obtain rfl := Except.ok.inj h
    exact ⟨rfl, rfl, rfl⟩

/-! ### The issuing group in its table -/

theorem Tab.put_put {α : Type} (t : Tab α) (n : Nat) (x y : α) : Tab.put (Tab.put t n x) n y = Tab.put t n y := by
  induction t with
  | nil => simp [Tab.put]
  | cons e t ih =>
    obtain ⟨k, v⟩ := e
    simp only [Tab.put]
    split
    · simp [Tab.put]
    · split
      · simp [Tab.put]
      · next h1 h2 => simp [Tab.put, h1, h2, ih]

theorem issuedState_eq (s : State) (at_ : Site) (g : Group) :
    issuedState s at_ g = { s with groups := Tab.put s.groups at_.gid (issuedGroup s at_ g) } := by
  unfold issuedState advance State.modGroup Tab.modify
  rw [show Tab.get? (s.setGroup at_.gid (poppedGroup s at_ g)).groups at_.gid = some (poppedGroup s at_ g) from Tab.get?_put_self _ _ _]
  exact congrArg (fun gs => { s with groups := gs }) (Tab.put_put _ _ _ _)

theorem issuedGroup_blocks (s : State) (at_ : Site) (g : Group) : (issuedGroup s at_ g).blocks = g.blocks :=
  (congrArg Group.blocks (popped_eq s at_ g) :)

theorem issuedGroup_launch (s : State) (at_ : Site) (g : Group) : (issuedGroup s at_ g).launch = g.launch :=
  (congrArg Group.launch (popped_eq s at_ g) :)

/-! ### Groups that the issue leaves waiting for nothing -/

theorem Tab.any_put {α : Type} {t : Tab α} {n : Nat} {x g : α} (f : Nat × α → Bool) (hg : Tab.get? t n = some g) (hf : f (n, x) = f (n, g)) :
    (Tab.put t n x).any f = t.any f := by
  induction t with
  | nil => cases hg
  | cons e t ih =>
    obtain ⟨k, v⟩ := e
    rw [Tab.get?_cons] at hg
    by_cases hk : k = n
    · rw [if_pos hk] at hg
      obtain rfl := Option.some.inj hg
      obtain rfl := hk
      simp only [Tab.put, Nat.lt_irrefl, if_false, if_true, List.any_cons, hf]
    · rw [if_neg hk] at hg
      simp only [Tab.put]
      split
      · rw [List.any_cons, hf, Bool.or_eq_right_iff_imp]
        exact fun hx => List.any_eq_true.2 ⟨_, List.mem_cons_of_mem _ (Tab.mem_of_get? hg), hx⟩
      · rw [if_neg (Ne.symm hk), List.any_cons, ih hg, List.any_cons]

section
variable {s : State} {n : Nat} {x g : Group} (hg : Tab.get? s.groups n = some g)
include hg

theorem recordLeft_putGroup (hb : x.blocks = g.blocks) (hl : x.launch = g.launch) (sector : Nat) :
    recordLeft { s with groups := Tab.put s.groups n x } sector = recordLeft s sector := by
  unfold recordLeft
  refine congrArg₂ (· || ·) rfl (Tab.any_put _ hg ?_)
  simp only [hb, hl]

theorem noWaiters_putGroup (hb : x.blocks = g.blocks) (hl : x.launch = g.launch) (h : Says.NoWaiters s) :
    Says.NoWaiters { s with groups := Tab.put s.groups n x } := by
  obtain ⟨hreqs, hgroups⟩ := (noWaiters_iff s).1 h
  refine (noWaiters_iff _).2 ⟨hreqs, fun e he => ?_⟩
  rcases Tab.mem_put he with rfl | he
  · unfold Group.unheld
    simp only [hb, hl]
    exact hgroups _ (Tab.mem_of_get? hg)
  · exact hgroups _ he

end

/-! ### JPOST -/

/-- An offer's answer, with other groups in its state. -/
def regrouped (gs : Tab Group) (out : Nat × State) : Nat × State := (out.1, { out.2 with groups := gs })

theorem postCluster_withGroups (cluster : Nat) (card : DWord) (launch : Nat) (s : State) (gs : Tab Group) :
    postCluster cluster card launch { s with groups := gs }
      = regrouped gs (postCluster cluster card launch s) := by
  unfold postCluster
  rw [show ({ s with groups := gs } : State).cluster cluster = s.cluster cluster from rfl]
  cases listFindIdx (fun e => !e.valid) 0 (s.cluster cluster).queue <;> rfl

theorem postEngine_withGroups (q : Nat) (card : DWord) (launch : Nat) (s : State) (gs : Tab Group) :
    postEngine q card launch { s with groups := gs } = regrouped gs (postEngine q card launch s) := by
  unfold postEngine
  rw [apply_ite (regrouped gs)]
  rfl

/-- Bytes that are written change the memory and the poison alone. -/
theorem poke_eq (s : State) (pa : Nat) (bs : List Byte) : s.poke pa bs = { s with mem := (s.poke pa bs).mem, poison := (s.poke pa bs).poison } := by
  unfold State.poke
  rw [State.setBytes_eq]
  rfl

theorem poke_withGroups (s : State) (gs : Tab Group) (pa : Nat) (bs : List Byte) :
    ({ s with groups := gs } : State).poke pa bs = { s.poke pa bs with groups := gs } := by
  have key : ∀ s : State, ({ s with groups := gs } : State).setBytes pa bs = { s.setBytes pa bs with groups := gs } := by
    induction bs generalizing pa with
    | nil => exact fun _ => rfl
    | cons b t ih => exact fun s => ih (pa + 1) (s.setByte pa b)
  unfold State.poke
  rw [key]
  rfl

theorem noWaiters_poke {s : State} (h : Says.NoWaiters s) (pa : Nat) (bs : List Byte) : Says.NoWaiters (s.poke pa bs) := by
  rw [poke_eq]
  exact h

/-- The slot of a device queue's next card, written where nothing waits. -/
theorem postDevice_of_noWaiters {s : State} (h : Says.NoWaiters s) (q : Nat) (card : DWord) (launch : Nat) :
    postDevice q card launch s = if !(s.queue q).devpost || (s.queue q).ctx.toNat != (s.launch launch).ctx then (2, s)
      else if ((s.queue q).tail - (s.queue q).head).toNat = 2 ^ (s.queue q).log2n then (1, s)
      else
        let pa := (s.queue q).base.toNat + 32 * ((s.queue q).tail.toNat % 2 ^ (s.queue q).log2n)
        (0, (clearWatch (pa / 64) (s.poke pa (leBytes 32 card.toNat))).modQueue q
          (fun d => { d with tail := d.tail + 1#16, parents := Tab.put d.parents d.tail.toNat launch })) := by
  unfold postDevice
  simp only [wake_of_noWaiters (noWaiters_poke h _ _)]

theorem clearWatch_putGroup {s : State} {n : Nat} {x g : Group} (hg : Tab.get? s.groups n = some g) (hb : x.blocks = g.blocks)
    (hl : x.launch = g.launch) (sector : Nat) :
    clearWatch sector { s with groups := Tab.put s.groups n x } = { clearWatch sector s with groups := Tab.put s.groups n x } := by
  unfold clearWatch
  rw [recordLeft_putGroup hg hb hl]
  split <;> rfl

theorem postDevice_putGroup {s : State} {n : Nat} {x g : Group} (hg : Tab.get? s.groups n = some g) (hb : x.blocks = g.blocks) (hl : x.launch = g.launch)
    (h : Says.NoWaiters s) (q : Nat) (card : DWord) (launch : Nat) : postDevice q card launch { s with groups := Tab.put s.groups n x }
      = regrouped (Tab.put s.groups n x) (postDevice q card launch s) := by
  rw [postDevice_of_noWaiters h, postDevice_of_noWaiters (noWaiters_putGroup hg hb hl h)]
  have hclear : ∀ pa bs sector, clearWatch sector (({ s with groups := Tab.put s.groups n x } : State).poke pa bs)
      = { clearWatch sector (s.poke pa bs) with groups := Tab.put s.groups n x } := fun pa bs sector => by
    have hgs : (s.poke pa bs).groups = s.groups := by rw [poke_eq]
    rw [poke_withGroups, ← hgs]
    exact clearWatch_putGroup (hgs.symm ▸ hg) hb hl sector
  simp only [hclear, apply_ite (regrouped (Tab.put s.groups n x))]
  rfl

/-- An offer does not see a change of a group that keeps its blocks; for an entry of a device queue, where nothing waits. -/
theorem offer_putGroup {s : State} {n : Nat} {x g : Group} (hg : Tab.get? s.groups n = some g) (hb : x.blocks = g.blocks) (hl : x.launch = g.launch)
    (target : Word) (card : DWord) (core launch : Nat) (h : bitsAt target 0 2 = 2 → Says.NoWaiters s) :
    offer target card core launch { s with groups := Tab.put s.groups n x } = regrouped (Tab.put s.groups n x) (offer target card core launch s) := by
  unfold offer
  by_cases hbad : bitsAt target 2 6 ≠ 0 ∨ bitsAt target 22 10 ≠ 0 ∨ (bitsAt target 0 2 ≠ 1 ∧ bitsAt target 8 8 ≠ 0)
      ∨ (bitsAt target 0 2 < 2 ∧ bitsAt target 16 6 ≠ 0)
  · simp only [if_pos hbad]; rfl
  simp only [if_neg hbad]
  split
  · exact postCluster_withGroups _ _ _ s _
  · rw [apply_ite (regrouped _), postCluster_withGroups]; rfl
  · next hk => exact postDevice_putGroup hg hb hl (h hk) _ _ _
  · rw [apply_ite (regrouped _), postEngine_withGroups]; rfl

theorem clearWatch_poke_outside (s : State) (pa : Nat) (bs : List Byte) (sector : Nat) :
    (clearWatch sector (s.poke pa bs)).groups = s.groups ∧ (clearWatch sector (s.poke pa bs)).time = s.time := by
  rw [poke_eq]
  unfold clearWatch
  split <;> exact ⟨rfl, rfl⟩

/-- An offer leaves the groups and the time. -/
theorem offer_outside {s : State} (target : Word) (card : DWord) (core launch : Nat) (h : bitsAt target 0 2 = 2 → Says.NoWaiters s) :
    (offer target card core launch s).2.groups = s.groups ∧ (offer target card core launch s).2.time = s.time := by
  have hcluster : ∀ cluster, (postCluster cluster card launch s).2.groups = s.groups ∧ (postCluster cluster card launch s).2.time = s.time := by
    intro cluster
    unfold postCluster
    split <;> exact ⟨rfl, rfl⟩
  unfold offer
  dsimp only
  split
  · exact ⟨rfl, rfl⟩
  · split
    · exact hcluster _
    · split
      · exact hcluster _
      · exact ⟨rfl, rfl⟩
    · next hk =>
      rw [postDevice_of_noWaiters (h hk)]
      split
      · exact ⟨rfl, rfl⟩
      · split
        · exact ⟨rfl, rfl⟩
        · obtain ⟨hgroups, htime⟩ := clearWatch_poke_outside s _ _ _
          exact ⟨hgroups, htime⟩
    · split
      · unfold postEngine
        split <;> exact ⟨rfl, rfl⟩
      · exact ⟨rfl, rfl⟩

theorem jpost_posts {st : BitVec 2} {d a b : BitVec 7} {s : State} {at_ : Site} {g : Group} {ps : List Seg} (h : Issues (.jpost st d a b) none s at_ g)
    (hu : Unwatched s g) (halign : (g.gval64 a).toNat % 8 = 0)
    (hcard : checkRange s (s.launch g.launch) g.keyperm .load (g.gval64 a).toNat 128 = .ok ps) (htx : (s.team g.team).tx = none)
    (hmay : (ctxOf (.jpost st d a b) s at_ g).mayRelease (issuedState s at_ g) 4 = true) (hw : bitsAt (g.gval b) 0 2 = 2 → Says.NoWaiters s) :
    ∃ t, exec (.jpost st d a b) s = .next t ∧ Passes at_ (replied (.jpost st d a b) (offer (g.gval b) (g.gval64 a) g.core g.launch s).2 at_ g
      [(.g d.toNat, BitVec.ofNat 32 (offer (g.gval b) (g.gval64 a) g.core g.launch s).1)]) t := by
  obtain ⟨hg, -⟩ := siteOf_spec h.site
  have hoffer := offer_putGroup hg (issuedGroup_blocks s at_ g) (issuedGroup_launch s at_ g) (g.gval b) (g.gval64 a) g.core g.launch hw
  rw [← issuedState_eq, ← show (issuedState s at_ g).groups = Tab.put s.groups at_.gid (issuedGroup s at_ g) by rw [issuedState_eq]] at hoffer
  obtain ⟨hgroups, htime⟩ := offer_outside (g.gval b) (g.gval64 a) g.core g.launch hw
  refine issue_replies h rfl hgroups htime ?_
  simp only [watched_eq hu h, ctxOf_gp, halign, ne_eq, not_true_eq_false, if_false, ctxOf_launch, ctxOf_g_keyperm, checkRange_issued, hcard, ctxOf_tx, htx,
    Option.isSome_none, Bool.false_eq_true, hmay, Bool.not_true, ctxOf_gv, ctxOf_core, ctxOf_g_launch, hoffer]
  rfl

/-! ### What an offer answers -/

theorem offer_badTarget {target : Word} (h : bitsAt target 2 6 ≠ 0) (card : DWord) (core launch : Nat) (s : State) :
    offer target card core launch s = (2, s) := by
  unfold offer
  rw [if_pos (.inl h)]

theorem listFindIdx_none {α : Type} {p : α → Bool} {xs : List α} (h : ∀ x ∈ xs, p x = false) (n : Nat) : listFindIdx p n xs = none := by
  induction xs generalizing n with
  | nil => rfl
  | cons x t ih =>
    rw [listFindIdx, h x List.mem_cons_self]
    exact ih (fun y hy => h y (List.mem_cons_of_mem _ hy)) (n + 1)

/-- The first element of a kind comes no later than one that is known. -/
theorem listFindIdx_le {α : Type} {p : α → Bool} {xs : List α} {k : Nat} {x : α} (hx : xs[k]? = some x) (hp : p x = true) (n : Nat) :
    ∃ j, j ≤ k ∧ listFindIdx p n xs = some (n + j) := by
  induction xs generalizing n k with
  | nil => cases hx
  | cons y t ih =>
    rw [listFindIdx]
    cases hy : p y with
    | true => exact ⟨0, Nat.zero_le _, rfl⟩
    | false =>
      cases k with
      | zero => cases hx; cases hp.symm.trans hy
      | succ k =>
        obtain ⟨j, hj, hfind⟩ := ih (k := k) hx (n + 1)
        exact ⟨j + 1, Nat.succ_le_succ hj, hfind.trans (congrArg some (by omega))⟩

theorem postCluster_full {cluster : Nat} {s : State} (h : ∀ e ∈ (s.cluster cluster).queue, e.valid = true) (card : DWord) (launch : Nat) :
    postCluster cluster card launch s = (1, s) := by
  unfold postCluster
  rw [listFindIdx_none (fun e he => by rw [h e he]; rfl)]

theorem postCluster_fits {cluster k : Nat} {s : State} {e : ClusterEntry} (hk : (s.cluster cluster).queue[k]? = some e) (he : e.valid = false) (card : DWord)
    (launch : Nat) : (postCluster cluster card launch s).1 = 0 ∧ ∃ (j : Nat) (e' : ClusterEntry), j ≤ k
      ∧ ((postCluster cluster card launch s).2.cluster cluster).queue[j]? = some e' ∧ e'.valid = true ∧ e'.card = card ∧ e'.parent = launch := by
  obtain ⟨j, hj, hfind⟩ := listFindIdx_le (p := fun e : ClusterEntry => !e.valid) hk (by rw [he]; rfl) 0
  unfold postCluster
  rw [hfind, Nat.zero_add]
  refine ⟨rfl, j, { card := card, valid := true, taken := false, ctxid := (s.launch launch).ctxid, parent := launch, ctx := (s.launch launch).ctx, order := s.uid },
    hj, ?_, rfl, rfl, rfl⟩
  have hlen : j < (s.cluster cluster).queue.length := Nat.lt_of_le_of_lt hj (List.getElem?_eq_some_iff.1 hk).1
  simp only [State.cluster, State.modCluster, Tab.getD, Tab.get?_put_self, Option.getD_some, listModify_getElem?, if_true]
  exact congrArg (Option.map _) (List.getElem?_eq_getElem hlen)

/-- Settles O33: the checks see the state before the issue, and the reply is the ticket or the status. -/
theorem copiesAndCardsPost : Obligations.CopiesAndCardsPost := by
  unfold Obligations.CopiesAndCardsPost
  refine ⟨?_, ?_, ?_⟩
  · intro st d a s at_ g x src dst comp i h hu hx b hbad hsa hda hsrc hdst hcomp hroom
    exact postBlock_posts h rfl hu hx hbad (cpyCommand_of_checks hsa hda hsrc hdst hcomp) hroom
  · intro st d a s at_ g x k i h hu hx b hbad hmake hroom
    obtain ⟨hquant, hblock, hticket⟩ := cpyqCommand_fields hmake
    exact ⟨hquant, hblock, hticket.trans (congrArg Team.ticket (ctxOf_team i s at_ g)), postBlock_posts h rfl hu hx hbad hmake hroom⟩
  · intro st d a b s at_ g ps i h hu halign hcard htx hmay hw out
    refine ⟨jpost_posts h hu halign hcard htx hmay hw, fun hk => offer_badTarget hk _ _ _ _, fun hb hq => ?_, fun hb k e hk he => ?_⟩
    · exact (congrArg (fun w => offer w _ _ _ _) hb).trans (postCluster_full hq _ _)
    · rw [show out = postCluster (clusterOf g.core) (g.gval64 a) g.launch s from congrArg (fun w => offer w _ _ _ _) hb]
      exact postCluster_fits hk he _ _

end Sys2Proof.Machine
end

section
/-! PROOF. A tripped TXCOMMIT (spec/08 R193, spec/16 R325) where one number names groups of two teams. -/

namespace Sys2Proof.Machine

open Says

set_option exponentiation.threshold 4096

/-- A transaction of a group 0 that has tripped on its first rung of two, and one that has not. -/
def trippedTx : Tx :=
  { id := 0, ladder := 0, tile := 0, rung := 0, top := 1, range := 0, cancel := 0, rtrip := true, ctrip := false, log := [], logBytes := [], shadows := [] }
def untrippedTx : Tx := { trippedTx with rtrip := false }

/-- A carter command that the transaction of team 2 has deferred. -/
def strangerCmd : Cmd :=
  { launch := 1, team := 2, group := 2, gid := 0, core := 0, die := 0, ticket := 1, quant := false, block := 0, src := [], dst := [], compw := 0, state := 4,
    poison := false, clamp := 0, carter := none, out := [], performed := [], complete := 0, hostAck := false, peerAck := false, compDue := false, srcT := 0,
    dstT := 0 }

/-- A group of a team outside a handler. -/
def plainGroup (team : Nat) : Group := { handlerGroup team with handler := false, hset := 0#64 }

/-- Group 1 of team 1 commits; number 2 names a group 0 of team 2, whose transaction is open, and a group of team 1. -/
def sharedNumber : State :=
  { State.reset with
    launches := [(1, Launch.empty)]
    teams := [(1, { Team.empty with launch := 1, tx := some trippedTx }), (2, { Team.empty with launch := 1, tx := some untrippedTx })]
    groups := [(1, plainGroup 1), (2, plainGroup 2), (2, plainGroup 1)]
    cmds := [(0, strangerCmd)], uid := 1, turn := 1 }

/-- Where the TXCOMMIT of group 1 stands. -/
def committing : Instr := .txcommit 0#2 8#7
def committingSite : Site := { gid := 1, lanes := 1#64, pc := 0x10000#64, next := 0x10004#64, word := wordOf committing, pfx := none }

theorem sharedNumber_issues : Issues committing none sharedNumber committingSite (plainGroup 1) where
  site := by decide +kernel
  halt := by decide
  comparator := by decide
  fetching := by decide
  pops := by
    rw [show owedPops sharedNumber committingSite (plainGroup 1) = [] by decide]
    exact fun _ he => nomatch he
  legal := by decide
  notPending := by decide
  notHeld := by decide
  inTime := by decide
  sound := by decide

/-- After an outcome no command is held. -/
def cmdsGone : Host.Outcome State Fault Refusal → Bool
  | .next t => t.cmds.isEmpty
  | _ => false

/-- The groups that end with team 1 take the group 0 of team 2 along, whose transaction ends (R327). -/
theorem sharedNumber_cmdsGone : cmdsGone (exec committing sharedNumber) = true := by decide +kernel

/-- Refutes O35: where a number names groups of two teams, the end of the tripped team's groups ends the other team's transaction, and its deferred
command with it, which is not as it was. -/
theorem not_txcommitTrips : ¬ Obligations.TxcommitTrips := by
  intro h
  obtain ⟨hretry, -⟩ := h 0#2 8#7 sharedNumber committingSite (plainGroup 1) { Team.empty with launch := 1, tx := some trippedTx } trippedTx
    sharedNumber_issues (by decide) rfl rfl rfl (by decide)
  obtain ⟨t, -, u', ht, -, -, -, -, -, -, hdropped, -⟩ := hretry (by decide) Launch.empty (by decide) rfl
  have hkept : (0, strangerCmd) ∈ t.cmds := hdropped.kept _ (by decide) (by decide)
  have hgone := sharedNumber_cmdsGone
  rw [show exec committing sharedNumber = .next t from ht, cmdsGone, List.isEmpty_iff] at hgone
  rw [hgone] at hkept
  cases hkept

end Sys2Proof.Machine
end

section
/-! PROOF. TXABORT (spec/08 R194) of a team whose list of finished commands is longer than the sixteen of R186. -/

namespace Sys2Proof.Machine

open Says

set_option exponentiation.threshold 4096

/-- A team with an open transaction, no command, and seventeen statuses of finished ones. -/
def overfullTeam : Team :=
  { Team.empty with launch := 1, tx := some untrippedTx, finished := List.replicate 17 { ticket := 1, state := 2, poison := false, clamp := 0 } }
def overfull : State :=
  { State.reset with launches := [(1, Launch.empty)], teams := [(1, overfullTeam)], groups := [(1, plainGroup 1)], turn := 1 }

/-- Where the TXABORT of group 1 stands. -/
def aborting : Instr := .txabort 0#2
def abortingSite : Site := { gid := 1, lanes := 1#64, pc := 0x10000#64, next := 0x10004#64, word := wordOf aborting, pfx := none }

theorem overfull_issues : Issues aborting none overfull abortingSite (plainGroup 1) where
  site := by decide +kernel
  halt := by decide
  comparator := by decide
  fetching := by decide
  pops := by
    rw [show owedPops overfull abortingSite (plainGroup 1) = [] by decide]
    exact fun _ he => nomatch he
  legal := by decide
  notPending := by decide
  notHeld := by decide
  inTime := by decide
  sound := by decide

/-- How many statuses a team keeps after an outcome. -/
def finishedAfter (team : Nat) : Host.Outcome State Fault Refusal → Nat
  | .next t => (t.team team).finished.length
  | _ => 0

/-- With no deferred command the abort finishes none, and so cuts nothing off the list. -/
theorem overfull_finished : finishedAfter 1 (exec aborting overfull) = 17 := by decide +kernel

/-- Refutes O40: a TXABORT that drops no command leaves a list of more than sixteen statuses as it is, where the statement keeps its first sixteen. -/
theorem not_transactionsClose : ¬ Obligations.TransactionsClose := by
  intro h
  obtain ⟨t, u', ht, hu', -, -, -, -, hdropped, -⟩ := h.2 0#2 overfull abortingSite (plainGroup 1) overfullTeam untrippedTx overfull_issues rfl rfl rfl
    ⟨(fun _ he => nomatch he), List.Pairwise.nil⟩ (fun _ he _ hb => by rw [List.mem_singleton.1 he] at hb; cases hb) (fun _ he => nomatch he)
  have hlen : u'.finished.length ≤ 16 := by rw [hdropped.held]; exact List.length_take_le _ _
  have hafter := overfull_finished
  rw [show exec aborting overfull = .next t from ht, finishedAfter, State.team_of_get? (show Tab.get? t.teams 1 = some u' from hu')] at hafter
  omega

end Sys2Proof.Machine
end

section
/-! PROOF. What the ends of WAITs and the writes of a fault ring leave as it was (spec/08 R175, spec/22 R378). -/

namespace Sys2Proof.Machine

/-- Everything but memory with its poison and its watch bits, the copies of lines, the groups and the messages for the host. -/
def settled (s : State) : State := { s with mem := [], watched := [], poison := [], copies := [], groups := [], host := State.reset.host }

theorem write_settled (s : State) (pa n v : Nat) : settled (s.write pa n v) = settled s := by rw [State.write_eq]; rfl

theorem message_settled (s : State) (v arg : Nat) : settled (s.message v arg) = settled s := rfl

section
variable {s t : State} (h : settled t = settled s)
include h

theorem cmds_of_settled : t.cmds = s.cmds := (congrArg State.cmds h :)
theorem teams_of_settled : t.teams = s.teams := (congrArg State.teams h :)
theorem looms_of_settled : t.looms = s.looms := (congrArg State.looms h :)
theorem cores_of_settled : t.cores = s.cores := (congrArg State.cores h :)
theorem carters_of_settled : t.carters = s.carters := (congrArg State.carters h :)

end

theorem freeWatch_settled (l : Nat) (w : Watch) (s : State) : settled (freeWatch l w s) = settled s := by rw [freeWatch_eq]; rfl

theorem foldl_freeWatch_settled (launch : Nat) (es : List WaitEntry) (s : State) :
    settled (es.foldl (fun s e => freeWatch launch e.watch s) s) = settled s :=
  foldl_keeps settled (fun s (e : WaitEntry) => freeWatch launch e.watch s) (fun s e => freeWatch_settled launch e.watch s) es s

theorem waitReads_settled (gid core : Nat) (lanes : LaneSet) (es : List WaitEntry) (s : State) : settled (waitReads gid core lanes es s) = settled s := by
  unfold waitReads
  dsimp only
  split
  · rfl
  · rw [foldl_dropAll_eq core WaitEntry.pa]; rfl

theorem finishWait_settled (gid id : Nat) (r : Word) (s : State) : settled (finishWait gid id r s) = settled s := by
  unfold finishWait
  split
  · rfl
  split
  · rfl
  split
  · split
    · rfl
    · exact (waitReads_settled _ _ _ _ _).trans (foldl_freeWatch_settled _ _ s)
  · rfl

theorem retryWait_settled {gid id : Nat} {s t : State} (h : retryWait gid id s = some t) : settled t = settled s := by
  unfold retryWait at h
  split at h
  · cases h
  split at h
  · split at h
    · cases h; exact finishWait_settled gid id _ s
    · cases h
  · cases h

theorem wakeInner_settled (s : State) : settled (wakeInner s) = settled s := by
  refine foldl_keeps settled (fun s (w : Nat × Nat) => (retryWait w.1 w.2 s).getD s) (fun s w => ?_) _ s
  cases h : retryWait w.1 w.2 s with
  | none => rfl
  | some t => exact retryWait_settled h

theorem clearWatch_settled (sector : Nat) (s : State) : settled (clearWatch sector s) = settled s := by rw [clearWatch_eq]; rfl

theorem wakeWaits_settled (pa : Nat) (s : State) : settled (wakeWaits pa s) = settled s := by
  refine (clearWatch_settled _ _).trans (foldl_keeps settled _ (fun u x => ?_) _ s)
  unfold tryHeld
  split
  · split
    · cases h : retryWait x.2.1 x.2.2.1 u with
      | none => rfl
      | some t => exact retryWait_settled h
    · exact freeWatch_settled _ _ u
    · rfl
  · cases h : retryWait x.2.1 x.2.2.1 u with
    | none => rfl
    | some t => exact retryWait_settled h

theorem faultRecord_settled (ctx : Nat) (rec : BitVec 512) (s : State) : settled (faultRecord ctx rec s) = settled s := by
  unfold faultRecord
  dsimp only
  split
  · rfl
  split
  · rw [wakeWaits_settled, wakeWaits_settled, message_settled, write_settled, write_settled]
  · rw [wakeWaits_settled, write_settled]

end Sys2Proof.Machine
end

section
/-! PROOF. Carters start, complete and freeze (spec/08 R183, R185, R188). -/

namespace Sys2Proof.Machine

open Says

theorem State.setCarter_carter (s : State) (k : Nat) (x : Carter) : (s.setCarter k x).carter k = x :=
  congrArg (Option.getD · _) (Tab.get?_put_self s.carters k x)

theorem modCmd_get? {s : State} {n : Nat} {c : Cmd} (hc : Tab.get? s.cmds n = some c) (f : Cmd → Cmd) : Tab.get? (s.modCmd n f).cmds n = some (f c) := by
  rw [State.modCmd_cmds, Tab.get?_modify_self, hc]; rfl

/-- What a command and its carter are once it has started. -/
theorem carterStart_starts {n k : Nat} {s : State} {c : Cmd} (hc : Tab.get? s.cmds n = some c) (hfree : (s.carter k).cmd = none)
    (hrun : (s.carter k).frozen = false) (hdie : k / 8 = c.die) (hstart : cmdStartable s n c = true)
    (hfirst : ∀ e ∈ s.cmds, e.1 < n → e.2.die = c.die → cmdStartable s e.1 e.2 = false) :
    ∃ t c', exec (.carterStart n k) s = .next t ∧ Tab.get? t.cmds n = some c' ∧ c'.state = 1 ∧ c'.carter = some k ∧ c'.block = c.block
      ∧ t.carter k = { cmd := some n, frozen := false } ∧ t.mem = s.mem := by
  have hall : s.cmds.all (fun e => decide (n ≤ e.1) || e.2.die != c.die || !cmdStartable s e.1 e.2) = true := by
    simp only [List.all_eq_true, Bool.or_eq_true, decide_eq_true_eq, bne_iff_ne, Bool.not_eq_true']
    intro e he
    by_cases hn : n ≤ e.1
    · exact .inl (.inl hn)
    · by_cases hd : e.2.die = c.die
      · exact .inr (hfirst e he (Nat.lt_of_not_le hn) hd)
      · exact .inl (.inr hd)
  have hexec : ∀ t, (if c.quant then (s.setCarter k { cmd := some n, frozen := false }).modCmd n (fun c' => { c' with
        state := 1, carter := some k, poison := (cpyqPoison s c).isSome,
        out := (if (cpyqPoison s c).isSome then (([], 0) : List WordPut × Nat) else cpyqWords s c).1,
        clamp := (if (cpyqPoison s c).isSome then (([], 0) : List WordPut × Nat) else cpyqWords s c).2, since := s.time })
      else (s.setCarter k { cmd := some n, frozen := false }).modCmd n (fun c' => { c' with state := 1, carter := some k, since := s.time })) = t →
      exec (.carterStart n k) s = .next t := by
    rintro t rfl
    show execCarterStart n k s = _
    simp only [execCarterStart, hc, hfree, hrun, hdie, hall, hstart, Option.isNone_none, Bool.not_false, decide_true, Bool.and_self, if_true]
  have hcarter : ∀ f, ((s.setCarter k { cmd := some n, frozen := false }).modCmd n f).carter k = { cmd := some n, frozen := false } :=
    fun _ => State.setCarter_carter s k _
  cases hq : c.quant with
  | true => exact ⟨_, _, hexec _ (if_pos hq), modCmd_get? hc _, rfl, rfl, rfl, hcarter _, rfl⟩
  | false => exact ⟨_, _, hexec _ (if_neg (by simp [hq])), modCmd_get? hc _, rfl, rfl, rfl, hcarter _, rfl⟩

theorem finishCmd_spec {n : Nat} {c : Cmd} {s : State} {u : Team} (hu : Tab.get? s.teams c.team = some u) :
    Tab.get? (finishCmd n c s).cmds n = none ∧ ∃ u', Tab.get? (finishCmd n c s).teams c.team = some u'
      ∧ u'.finished.head? = some { ticket := c.ticket, state := 2, poison := c.poison, clamp := c.clamp } := by
  have hcmds : (finishCmd n c s).cmds = Tab.del s.cmds n := by
    unfold finishCmd; split <;> rfl
  have hteams : (finishCmd n c s).teams
      = Tab.modify s.teams c.team (fun t => t.finish { ticket := c.ticket, state := 2, poison := c.poison, clamp := c.clamp }) := by
    unfold finishCmd; split <;> rfl
  refine ⟨by rw [hcmds]; exact Tab.get?_del_self _ _, u.finish { ticket := c.ticket, state := 2, poison := c.poison, clamp := c.clamp }, ?_, rfl⟩
  rw [hteams, Tab.get?_modify_self, hu]
  rfl

/-- Every payload word has been performed: the command waits for its completion word, or is done. -/
theorem carterPayloadComplete_spec {n k : Nat} {s : State} {c : Cmd} {u : Team} (hk : (s.carter k).cmd = some n) (hc : Tab.get? s.cmds n = some c)
    (hstate : c.state = 1) (hpoison : c.poison = false) (hdone : c.performed.length = c.count) (hu : Tab.get? s.teams c.team = some u) :
    (compF c.block = true → ∃ t, exec (.carterPayloadComplete k) s = .next t ∧ Tab.get? t.cmds n = some { c with state := 2, compDue := true })
      ∧ (compF c.block = false → ∃ t u', exec (.carterPayloadComplete k) s = .next t ∧ Tab.get? t.cmds n = none ∧ Tab.get? t.teams c.team = some u'
        ∧ u'.finished.head? = some { ticket := c.ticket, state := 2, poison := false, clamp := c.clamp }) := by
  have hexec : exec (.carterPayloadComplete k) s = .next (if compF c.block then
      wakeInner (s.modCmd n (fun c => { c with state := 2, compDue := true })) else wakeInner (finishCmd n c s)) := by
    show execCarterPayloadComplete k s = _
    simp only [execCarterPayloadComplete, hk, hc, hstate, hpoison, hdone, Bool.not_false, and_self, if_true]
  refine ⟨fun hcomp => ⟨_, hexec.trans (congrArg _ (if_pos hcomp)), ?_⟩, fun hcomp => ?_⟩
  · rw [cmds_of_settled (wakeInner_settled _)]; exact modCmd_get? hc _
  · obtain ⟨hgone, u', hu', hhead⟩ := finishCmd_spec (n := n) hu
    have hsettled := wakeInner_settled (finishCmd n c s)
    refine ⟨_, u', hexec.trans (congrArg _ (if_neg (by simp [hcomp]))), ?_, ?_, hpoison ▸ hhead⟩
    · rw [cmds_of_settled hsettled]; exact hgone
    · rw [teams_of_settled hsettled]; exact hu'

/-- A carter that meets poison stops with its command. -/
theorem carterPoison_freezes {n k va : Nat} {s : State} {c : Cmd} (hk : (s.carter k).cmd = some n) (hc : Tab.get? s.cmds n = some c) (hstate : c.state = 1)
    (hva : cmdPoison s c = some va) : ∃ t, exec (.carterPoison k) s = .next t ∧ Tab.get? t.cmds n = some { c with state := 3, poison := true }
      ∧ t.carter k = { cmd := some n, frozen := true } := by
  have hsettled : settled (freezeCarter n k c va s)
      = settled ((s.modCmd n (fun c => { c with state := 3, poison := true })).setCarter k { cmd := some n, frozen := true }) :=
    (wakeInner_settled _).trans (faultRecord_settled _ _ _)
  refine ⟨freezeCarter n k c va s, ?_, ?_, ?_⟩
  · show execCarterPoison k s = _
    simp only [execCarterPoison, hk, hc, hstate, if_true, hva]
  · rw [cmds_of_settled hsettled]; exact modCmd_get? hc _
  · rw [State.carter, carters_of_settled hsettled]; exact State.setCarter_carter _ _ _

end Sys2Proof.Machine
end

section
/-! PROOF. A payload word and the completion word of a carter's command, where nothing waits (spec/08 R183, R284). -/

namespace Sys2Proof.Machine

open Says

/-! ### What a write at a home slice changes -/

/-- Memory with its F/E bits, the commands, the requests and the groups. -/
def homeView (s : State) : List Host.Cell × NatSet × Tab Cmd × Tab Req × Tab Group := (s.mem, s.full, s.cmds, s.reqs, s.groups)

section
variable {s t : State} (h : homeView t = homeView s)
include h

theorem mem_of_homeView : t.mem = s.mem := (congrArg (fun v => v.1) h :)
theorem full_of_homeView : t.full = s.full := (congrArg (fun v => v.2.1) h :)
theorem cmds_of_homeView : t.cmds = s.cmds := (congrArg (fun v => v.2.2.1) h :)

theorem noWaiters_of_homeView (hw : NoWaiters s) : NoWaiters t :=
  noWaiters_congr (congrArg (fun v => v.2.2.2.1) h :) (congrArg (fun v => v.2.2.2.2) h :) hw

theorem setFull_of_homeView (pa : Nat) (f : Bool) : homeView (t.setFull pa f) = homeView (s.setFull pa f) :=
  congrArg (fun v : List Host.Cell × NatSet × Tab Cmd × Tab Req × Tab Group =>
    (v.1, if f then NatSet.ins v.2.1 (pa / 8) else NatSet.del v.2.1 (pa / 8), v.2.2)) h

end

theorem stored_of_mem {u s t : State} {pa : Nat} {bs : List Byte} (h : t.mem = s.mem) (hst : Stored u s pa bs) : Stored u t pa bs := by
  intro a
  rw [State.byte, h]
  exact hst a

theorem foldTask_homeView (team : Nat) (v : DWord) (s : State) : homeView (foldTask team v s) = homeView s := by
  unfold foldTask
  dsimp only
  split <;> rfl

theorem tagLine_homeView (team pa : Nat) (s : State) : homeView (tagLine team pa s) = homeView s := by
  unfold tagLine
  dsimp only
  split
  · split
    · split <;> rfl
    · rfl
  · rfl

theorem resolveGates_homeView (pa : Nat) (s : State) : homeView (resolveGates pa s) = homeView s := rfl

theorem clearWatch_homeView (sector : Nat) (s : State) : homeView (clearWatch sector s) = homeView s := by rw [clearWatch_eq]; rfl

theorem wake_homeView {s : State} (hw : NoWaiters s) (pa : Nat) : homeView (wake pa s) = homeView s := by
  rw [wake_of_noWaiters hw]
  exact clearWatch_homeView _ s

theorem isFull_setFull (s : State) (pa : Nat) (f : Bool) : (s.setFull pa f).isFull pa = f := by
  cases f with
  | true => exact NatSet.mem_ins_self _ _
  | false => exact NatSet.mem_del_self _ _

theorem stored_poke (s : State) (pa : Nat) (bs : List Byte) : Stored s (s.poke pa bs) pa bs := State.byte_poke s pa bs

/-- A masked write of every byte is a write. -/
theorem pokeMasked_some (s : State) (pa : Nat) (bs : List Byte) : s.pokeMasked pa (bs.map some) = s.poke pa bs := by
  have hall : (bs.map some).all Option.isSome = true := by simp
  have hmap : (bs.map some).filterMap id = bs := by simp
  rw [State.pokeMasked, if_pos hall, hmap]

/-! ### A payload word (R183) -/

/-- The state that a payload word and its bit leave, but for digests, line tags, gates and watch bits. -/
def withWord (pa : Nat) (bs : List Byte) (bit : Option Bool) (s : State) : State :=
  match bit with
  | none => s.poke pa bs
  | some f => (s.poke pa bs).setFull pa f

theorem carterWrite_homeView {c : Cmd} {va : DWord} {pa : Nat} {bs : List Byte} {s : State} (bit : Option Bool) (ha : aperture pa ≤ 1) (hw : NoWaiters s) :
    homeView (carterWrite c { va := va, pa := pa, bytes := bs.map some } bit s) = homeView (withWord pa bs bit s) := by
  unfold carterWrite
  simp only [if_pos ha, pokeMasked_some]
  have hword : ∀ u : State, homeView (if aperture pa = 0 then tagLine c.team pa u else u) = homeView u := by
    intro u
    split
    · exact tagLine_homeView _ _ u
    · rfl
  have hview := (hword _).trans (foldTask_homeView c.team (foldMasked va (bs.map some)) (s.poke pa bs))
  generalize (if aperture pa = 0 then tagLine c.team pa (foldTask c.team (foldMasked va (bs.map some)) (s.poke pa bs))
    else foldTask c.team (foldMasked va (bs.map some)) (s.poke pa bs)) = u at hview ⊢
  have hnone : NoWaiters u := noWaiters_of_homeView hview (noWaiters_poke hw pa bs)
  cases bit with
  | none => exact (wake_homeView hnone pa).trans hview
  | some f =>
    have hset := setFull_of_homeView hview pa f
    have hnone' : NoWaiters (u.setFull pa f) := hnone
    cases f with
    | true => exact (wake_homeView (noWaiters_of_homeView (resolveGates_homeView pa _) hnone') pa).trans hset
    | false => exact (wake_homeView hnone' pa).trans hset

theorem carterWrite_far {c : Cmd} {va : DWord} {pa : Nat} {bs : List Byte} {s : State} (bit : Option Bool) (ha : ¬ aperture pa ≤ 1) (h2 : aperture pa ≠ 2) :
    homeView (carterWrite c { va := va, pa := pa, bytes := bs.map some } bit s) = homeView (s.poke pa bs) := by
  have h3 : aperture pa = 3 := by
    have : aperture pa < 4 := Nat.mod_lt _ (by decide)
    omega
  unfold carterWrite writeMasked foldWrite
  simp only [h3, pokeMasked_some]
  exact foldTask_homeView _ _ _

theorem withWord_stored (pa : Nat) (bs : List Byte) (bit : Option Bool) (s : State) : Stored s (withWord pa bs bit s) pa bs := by
  cases bit with
  | none => exact stored_poke s pa bs
  | some f => exact stored_poke s pa bs

theorem withWord_isFull (pa : Nat) (bs : List Byte) (bit : Option Bool) (s : State) : (withWord pa bs bit s).isFull pa = bit.getD (s.isFull pa) := by
  cases bit with
  | none => rw [withWord, poke_eq]; rfl
  | some f => exact isFull_setFull _ pa f

theorem withWord_cmds (pa : Nat) (bs : List Byte) (bit : Option Bool) (s : State) : (withWord pa bs bit s).cmds = s.cmds := by
  cases bit with
  | none => rw [withWord, poke_eq]
  | some f => rw [withWord, State.setFull_cmds, poke_eq]

/-- The word, its bit and the commands after a payload word. -/
theorem carterWrite_spec {c : Cmd} {va : DWord} {pa : Nat} {bs : List Byte} {s : State} (bit : Option Bool) (h2 : aperture pa ≠ 2) (hw : NoWaiters s) :
    let t := carterWrite c { va := va, pa := pa, bytes := bs.map some } bit s
    Stored s t pa bs ∧ t.cmds = s.cmds ∧ (aperture pa ≤ 1 → t.isFull pa = bit.getD (s.isFull pa)) := by
  intro t
  by_cases ha : aperture pa ≤ 1
  · have hview := carterWrite_homeView (c := c) (va := va) (bs := bs) bit ha hw
    refine ⟨stored_of_mem (mem_of_homeView hview) (withWord_stored pa bs bit s), (cmds_of_homeView hview).trans (withWord_cmds pa bs bit s), fun _ => ?_⟩
    rw [← withWord_isFull pa bs bit s, State.isFull, State.isFull, full_of_homeView hview]
  · have hview := carterWrite_far (c := c) (va := va) (bs := bs) (s := s) bit ha h2
    exact ⟨stored_of_mem (mem_of_homeView hview) (stored_poke s pa bs), (cmds_of_homeView hview).trans (by rw [poke_eq]), fun h => absurd h ha⟩

/-- The bit of a word that a carter has written, by the mode of its command. -/
theorem bitAfter_eq {s : State} {mode pa : Nat} {old new : Bool} : new = (carterBit s mode (some pa)).getD old →
    new = (match mode with
      | 0 => old
      | 1 => if aperture pa ≤ 1 then s.isFull pa else new
      | 2 => true
      | _ => false) := by
  intro h
  match mode with
  | 0 => exact h
  | 1 =>
    by_cases hnear : aperture pa ≤ 1
    · simp only [if_pos hnear]
      exact h.trans (by simp only [carterBit, if_pos hnear, Option.getD_some])
    · simp only [if_neg hnear]
  | 2 => exact h
  | m + 3 => exact h

theorem performWord_performs {n i : Nat} {s : State} {c : Cmd} {a b : Nat × Nat} (hreq : Tab.get? s.reqs n = none) (hc : Tab.get? s.cmds n = some c)
    (hstate : c.state = 1) (hpoison : c.poison = false) (hq : c.quant = false) (hi : i < c.count) (hnew : NatSet.mem c.performed i = false)
    (ha : pieceAt c.src (8 * i) = some a) (hb : pieceAt c.dst (8 * i) = some b) (hread : readsPoison s a.2 8 = false) (hpa : peerAnswers s a.2 = true)
    (hpb : peerAnswers s b.2 = true) (h2 : aperture b.2 ≠ 2) (hw : NoWaiters s) :
    ∃ t c', exec (.sliceStorePerform n i) s = .next t ∧ Stored s t b.2 ((List.range 8).map (fun k => homeByte s (a.2 + k)))
      ∧ Tab.get? t.cmds n = some c' ∧ c'.performed = NatSet.ins c.performed i
      ∧ (aperture b.2 ≤ 1 → t.isFull b.2 = (match feMode c.block with
        | 0 => s.isFull b.2
        | 1 => if aperture a.2 ≤ 1 then s.isFull a.2 else t.isFull b.2
        | 2 => true
        | _ => false)) := by
  let bs := (List.range 8).map (fun k => homeByte s (a.2 + k))
  let s0 : State := if feMode c.block = 1 then { s with free := s.free + 1 } else s
  have hs0 : homeView s0 = homeView s := by
    show homeView (if feMode c.block = 1 then { s with free := s.free + 1 } else s) = _
    split <;> rfl
  obtain ⟨hstored, hcmds, hbit⟩ := carterWrite_spec (c := c) (va := BitVec.ofNat 64 b.1) (bs := bs) (carterBit s (feMode c.block) (some a.2)) h2
    (noWaiters_of_homeView hs0 hw)
  have hword : c.word s i = some ({ va := BitVec.ofNat 64 b.1, pa := b.2, bytes := bs.map some }, some a.2) := by
    simp only [Cmd.word, hq, Bool.false_eq_true, if_false, ha, hb, bs, List.map_map]
    rfl
  refine ⟨(carterWrite c { va := BitVec.ofNat 64 b.1, pa := b.2, bytes := bs.map some } (carterBit s (feMode c.block) (some a.2)) s0).modCmd n
    (fun c => { c with performed := NatSet.ins c.performed i, since := s.time, complete := max c.complete (writeCompletion s b.2),
                       hostAck := c.hostAck || aperture b.2 == 3, peerAck := c.peerAck || aperture b.2 == 1 }), _, ?_, ?_, modCmd_get? (c := c) ?_ _, rfl,
    fun h1 => ?_⟩
  · show execSliceStorePerform n i s = _
    have hnot : ¬ (c.state ≠ 1 ∨ c.poison = true ∨ c.count ≤ i ∨ NatSet.mem c.performed i = true) := by
      rw [hstate, hpoison, hnew]; simp [hi]
    simp only [execSliceStorePerform, hreq, hc, performWord, if_neg hnot, hword, hread, hpa, hpb, Bool.not_true, Bool.or_self, Bool.false_eq_true, if_false]
    rfl
  · intro q
    refine (hstored q).trans ?_
    rw [State.byte, mem_of_homeView hs0]
    rfl
  · rw [hcmds, cmds_of_homeView hs0]; exact hc
  · have hfull : s0.isFull b.2 = s.isFull b.2 := by rw [State.isFull, full_of_homeView hs0]; rfl
    exact bitAfter_eq ((hbit h1).trans (congrArg (Option.getD _) hfull))

/-! ### The completion word (R183, R284) -/

theorem finishCmd_keeps (n : Nat) (c : Cmd) (s : State) : (finishCmd n c s).mem = s.mem ∧ (finishCmd n c s).full = s.full
    ∧ (finishCmd n c s).groups = s.groups ∧ (finishCmd n c s).cmds = Tab.del s.cmds n := by
  unfold finishCmd
  split <;> exact ⟨rfl, rfl, rfl, rfl⟩

/-- What CARTER_COMPLETION_WORD leaves once the payload is complete, for a word of local HBM or of a peer. -/
theorem exec_carterCompletionWord {n k : Nat} {s : State} {c : Cmd} (hk : (s.carter k).cmd = some n) (hc : Tab.get? s.cmds n = some c)
    (hdue : c.compDue = true) (htime : c.complete ≤ s.time) (hack : cmdScope c.block ≠ 5 ∨ (c.hostAck = false ∧ c.peerAck = false))
    (hpeer : peerAnswers s c.compw = true) (hap : aperture c.compw ≤ 1) :
    exec (.carterCompletionWord k) s = .next (finishCmd n c (wake c.compw (resolveGates c.compw
      ((s.poke c.compw (leBytes 8 (c.block.extractLsb' 256 64).toNat)).setFull c.compw true)))) := by
  have hgo : (c.compDue && decide (c.complete ≤ s.time) && (cmdScope c.block != 5 || (!c.hostAck && !c.peerAck))) = true := by
    simpa [hdue, htime] using hack
  have hword : ∀ out : Nat → List Byte → State → State, writeWord out c.compw (c.block.extractLsb' 256 64) s = wake c.compw (resolveGates c.compw
      ((s.poke c.compw (leBytes 8 (c.block.extractLsb' 256 64).toNat)).setFull c.compw true)) := by
    intro out
    unfold writeWord
    dsimp only
    split
    · next h2 => omega
    · next h3 => omega
    · rfl
  show execCarterCompletionWord k s = _
  simp only [execCarterCompletionWord, hk, hc, hgo, if_true, hpeer, hword]

theorem carterCompletionWord_writes {n k : Nat} {s : State} {c : Cmd} (hk : (s.carter k).cmd = some n) (hc : Tab.get? s.cmds n = some c)
    (hdue : c.compDue = true) (htime : c.complete ≤ s.time) (hack : cmdScope c.block ≠ 5 ∨ (c.hostAck = false ∧ c.peerAck = false))
    (hpeer : peerAnswers s c.compw = true) (hap : aperture c.compw ≤ 1) (hw : NoWaiters s) :
    ∃ t, exec (.carterCompletionWord k) s = .next t ∧ Stored s t c.compw (leBytes 8 (c.block.extractLsb' 256 64).toNat) ∧ t.isFull c.compw = true
      ∧ Tab.get? t.cmds n = none := by
  refine ⟨_, exec_carterCompletionWord hk hc hdue htime hack hpeer hap, ?_⟩
  generalize leBytes 8 (c.block.extractLsb' 256 64).toNat = bs
  have hnone : NoWaiters (resolveGates c.compw ((s.poke c.compw bs).setFull c.compw true)) := noWaiters_poke hw c.compw bs
  have hview : homeView (wake c.compw (resolveGates c.compw ((s.poke c.compw bs).setFull c.compw true))) = homeView (withWord c.compw bs (some true) s) :=
    wake_homeView hnone c.compw
  generalize wake c.compw (resolveGates c.compw ((s.poke c.compw bs).setFull c.compw true)) = u at hview ⊢
  obtain ⟨hmem, hfull, -, hcmds⟩ := finishCmd_keeps n c u
  refine ⟨stored_of_mem (hmem.trans (mem_of_homeView hview)) (withWord_stored c.compw bs (some true) s), ?_, ?_⟩
  · rw [State.isFull, hfull, full_of_homeView hview]
    exact withWord_isFull c.compw bs (some true) s
  · rw [hcmds]
    exact Tab.get?_del_self _ _

end Sys2Proof.Machine
end

section
/-! PROOF. A write of a word that a single WAIT awaits (spec/08 R174, R175, spec/12 R258), and the completion word that ends one (R183). -/

namespace Sys2Proof.Machine

open Says

/-! ### The waiters of a sector -/

theorem mem_insertRank {α : Type} {k : Nat × Nat × Nat} {x : α} {xs : List ((Nat × Nat × Nat) × α)} {y : (Nat × Nat × Nat) × α} :
    y ∈ insertRank k x xs ↔ y = (k, x) ∨ y ∈ xs := by
  induction xs with
  | nil => simp [insertRank]
  | cons z t ih =>
    unfold insertRank
    split
    · simp
    · simp only [List.mem_cons, ih]
      exact or_left_comm

theorem mem_foldl_insertRank {α : Type} {xs acc : List ((Nat × Nat × Nat) × α)} {y : (Nat × Nat × Nat) × α} :
    y ∈ xs.foldl (fun acc x => insertRank x.1 x.2 acc) acc ↔ y ∈ xs ∨ y ∈ acc := by
  induction xs generalizing acc with
  | nil => simp
  | cons x t ih =>
    rw [List.foldl_cons, ih, mem_insertRank, List.mem_cons]
    exact or_left_comm.trans or_assoc.symm

/-- Where groups lose blocks, sectors lose waiters. -/
theorem waitersOf_subset {s t : State} (hr : t.reqs = s.reqs)
    (hg : ∀ e ∈ t.groups, ∃ e' ∈ s.groups, e'.1 = e.1 ∧ e'.2.launch = e.2.launch ∧ ∀ b ∈ e.2.blocks, b ∈ e'.2.blocks) (sector : Nat) :
    ∀ w ∈ waitersOf t sector, w ∈ waitersOf s sector := by
  intro w hw
  unfold waitersOf at hw ⊢
  simp only [List.mem_map, mem_foldl_insertRank, List.not_mem_nil, or_false, List.mem_append, hr] at hw ⊢
  obtain ⟨y, hy, rfl⟩ := hw
  refine ⟨y, hy.imp_right fun hcond => ?_, rfl⟩
  obtain ⟨e, he, hb⟩ := List.mem_flatMap.1 hcond
  obtain ⟨b, hbm, hx⟩ := List.mem_flatMap.1 hb
  obtain ⟨e', he', hkey, hlaunch, hblocks⟩ := hg e he
  refine List.mem_flatMap.2 ⟨e', he', List.mem_flatMap.2 ⟨b, hblocks b hbm, ?_⟩⟩
  rw [hkey, hlaunch]
  exact hx

theorem wakePass_of_none {sector : Nat} {s : State} (h : ∀ w ∈ waitersOf s sector, tryWaiter s w = none) : wakePass sector s = (s, false) := by
  unfold wakePass
  generalize waitersOf s sector = ws at h
  induction ws with
  | nil => rfl
  | cons w ws ih =>
    rw [List.foldl_cons, h w List.mem_cons_self]
    exact ih (fun w' hw' => h w' (List.mem_cons_of_mem _ hw'))

/-! ### The end of a WAIT -/

/-- A group whose threads have had their reads noted. -/
structure Refreshed (g g' : Group) : Prop where
  blocks : g'.blocks = g.blocks
  launch : g'.launch = g.launch
  regs : ∀ m, g'.greg m = g.greg m
  threads : ∀ l, (g'.thread l).pc = (g.thread l).pc ∧ (g'.thread l).wait = (g.thread l).wait

theorem Refreshed.refl (g : Group) : Refreshed g g := ⟨rfl, rfl, fun _ => rfl, fun _ => ⟨rfl, rfl⟩⟩

theorem waitReads_group {gid : Nat} {s : State} {x : Group} (hx : Tab.get? s.groups gid = some x) (core : Nat) (lanes : LaneSet) (es : List WaitEntry) :
    ∃ x', Tab.get? (waitReads gid core lanes es s).groups gid = some x' ∧ Refreshed x x'
      ∧ ∀ e ∈ (waitReads gid core lanes es s).groups, e ∈ s.groups ∨ e = (gid, x') := by
  unfold waitReads
  dsimp only
  split
  · exact ⟨x, hx, .refl x, fun e he => .inl he⟩
  · rw [foldl_dropAll_groups]
    generalize ((es.filter (fun e => e.kind == 1)).map (fun e => staleUntil s e.pa (s.bytes e.pa (if e.size8 then 8 else 4)))).foldl max 0 = seen
    have hgroups : (noteRead gid lanes [] seen s).groups = Tab.put s.groups gid (x.modLanes lanes (fun _ t => t.noted s [] seen)) := by
      rw [noteRead, State.modGroup_groups, Tab.modify, hx]
    refine ⟨x.modLanes lanes (fun _ t => t.noted s [] seen), ?_, ⟨rfl, rfl, fun _ => rfl, fun l => ?_⟩, fun e he => ?_⟩
    · exact (congrArg (Tab.get? · gid) hgroups).trans (Tab.get?_put_self _ _ _)
    · rw [Group.thread_modLanes]
      split <;> exact ⟨rfl, rfl⟩
    · exact (Tab.mem_put (hgroups ▸ he)).symm

/-- A group whose WAIT has ended. -/
def Group.waitOver (g : Group) (id dest : Nat) (r : Word) : Group := ((g.goOn id).setG dest r).rechoose

section
variable {g : Group} {id dest : Nat} {b : Block} {r : Word} (hb : Tab.get? g.blocks id = some b) (hh : g.handler = false)
include hb hh

theorem Group.waitOver_blocks : ∀ e ∈ (g.waitOver id dest r).blocks, e ∈ g.blocks ∧ e.1 ≠ id := by
  intro e he
  have hfew := (chosen_rechoose ((g.goOn id).setG dest r)).fewer e he
  rw [Group.setG_blocks, Group.goOn_closed hh, Group.unblock, hb] at hfew
  exact ⟨Tab.mem_del hfew, Tab.get?_none_iff.1 (Tab.get?_del_self g.blocks id) e hfew⟩

theorem Group.waitOver_thread {l : Nat} (hl : (g.thread l).wait = .block id) :
    ((g.waitOver id dest r).thread l).wait = .run ∧ ((g.waitOver id dest r).thread l).pc = b.next := by
  have hlen : l < g.threads.length := by
    by_contra hc
    rw [Group.thread, List.getD_eq_getElem?_getD, List.getElem?_eq_none (Nat.le_of_not_lt hc)] at hl
    cases hl
  have hun := Group.thread_unblock hb hl hlen
  have hrun : (((g.goOn id).setG dest r).thread l).wait = .run := by rw [Group.thread_setG, Group.goOn_closed hh, hun]
  obtain ⟨hpc, hwait⟩ := (chosen_rechoose ((g.goOn id).setG dest r)).of_run hrun
  refine ⟨hwait, hpc.trans ?_⟩
  rw [Group.thread_setG, Group.goOn_closed hh, hun]

omit hb hh in
theorem Group.waitOver_greg (m : Nat) : (g.waitOver id dest r).greg m = if m = dest then r else g.greg m := by
  refine ((sameRegs_rechoose ((g.goOn id).setG dest r)).regs 0 (.g m)).trans ?_
  by_cases hm : m = dest
  · rw [if_pos hm, hm]; exact Group.greg_setG_self _ _ _
  · rw [if_neg hm]
    exact (Group.greg_setG_ne _ _ hm).trans ((sameRegs_goOn g id).regs 0 (.g m))

omit hb hh in
theorem Group.waitOver_launch : (g.waitOver id dest r).launch = g.launch := by
  unfold Group.waitOver
  rw [Group.rechoose_eq, Group.goOn_eq]
  rfl

end

/-! ### The test of a single WAIT -/

theorem listFindIdx_some {α : Type} {p : α → Bool} {xs : List α} {n m : Nat} (h : listFindIdx p n xs = some m) :
    ∃ i x, m = n + i ∧ xs[i]? = some x ∧ p x = true := by
  induction xs generalizing n with
  | nil => cases h
  | cons y t ih =>
    rw [listFindIdx] at h
    split at h
    · next hy => exact ⟨0, y, (Option.some.inj h).symm, rfl, hy⟩
    · obtain ⟨i, x, hm, hx, hp⟩ := ih h
      exact ⟨i + 1, x, by omega, hx, hp⟩

theorem condition_eq_holdsOn {s : State} {g : Group} {e : WaitEntry} (hk : e.kind = 1 ∨ e.kind = 2) : condition s g e = holdsOn s e := by
  rcases hk with hk | hk <;> simp only [condition, holdsOn, hk] <;> rfl

/-- The result of a WAIT with one entry in use. -/
theorem waitResult_of_one {s : State} {g : Group} {es : List WaitEntry} {j : Nat} {e : WaitEntry} (any : Bool) (hj : es[j]? = some e)
    (hk : e.kind = 1 ∨ e.kind = 2) (ho : ∀ i x, es[i]? = some x → i ≠ j → x.kind = 0) :
    waitResult s g es any = if holdsOn s e then some (if any then BitVec.ofNat 32 j else 4#32) else none := by
  have hne : e.kind ≠ 0 := by omega
  unfold waitResult
  cases any with
  | true =>
    simp only [if_true]
    cases hh : holdsOn s e with
    | true =>
      have hp : (e.kind != 0 && condition s g e) = true := by rw [condition_eq_holdsOn hk, hh]; simp [hne]
      obtain ⟨m, -, hm⟩ := listFindIdx_le (p := fun e => e.kind != 0 && condition s g e) hj hp 0
      obtain ⟨i, x, hi, hx, hpx⟩ := listFindIdx_some hm
      have hij : i = j := by
        by_contra hc
        rw [ho i x hx hc] at hpx
        cases hpx
      rw [hm, hi, hij, Nat.zero_add]
      rfl
    | false =>
      rw [listFindIdx_none (fun x hx => ?_)]
      · rfl
      · obtain ⟨i, hi⟩ := List.getElem?_of_mem hx
        by_cases hij : i = j
        · rw [hij, hj] at hi
          cases hi
          rw [condition_eq_holdsOn hk, hh, Bool.and_false]
        · rw [ho i x hi hij]
          rfl
  | false =>
    have hall : es.all (fun x => x.kind == 0 || condition s g x) = holdsOn s e := by
      cases hh : holdsOn s e with
      | true =>
        rw [List.all_eq_true]
        intro x hx
        obtain ⟨i, hi⟩ := List.getElem?_of_mem hx
        by_cases hij : i = j
        · rw [hij, hj] at hi
          cases hi
          rw [condition_eq_holdsOn hk, hh, Bool.or_true]
        · rw [ho i x hi hij]
          rfl
      | false =>
        rw [List.all_eq_false]
        refine ⟨e, List.mem_of_getElem? hj, ?_⟩
        rw [condition_eq_holdsOn hk, hh]
        simp [hne]
    simp only [Bool.false_eq_true, if_false, hall]

section
variable {s : State} {gid id j dest : Nat} {g : Group} {b : Block} {e : WaitEntry} {any : Bool} (h : AwaitsOne s gid id j g b e any dest)
include h

/-- The end of that WAIT frees no record. -/
theorem Says.AwaitsOne.finishWait_eq (r : Word) : ∃ es, finishWait gid id r s
    = waitReads gid g.core b.lanes es (s.modGroup gid (fun x => x.waitOver id dest r)) := by
  obtain ⟨es, t0, hk, hj, ho⟩ := h.kind
  obtain ⟨m, hm⟩ := h.held
  have hfree : es.foldl (fun s e => freeWatch g.launch e.watch s) s = s := by
    refine foldl_eq_of_fixed _ _ _ fun x hx => ?_
    have hparked : ∀ i, x.watch ≠ .parked i := by
      obtain ⟨i, hi⟩ := List.getElem?_of_mem hx
      by_cases hij : i = j
      · rw [hij, hj] at hi
        cases hi
        rw [hm]
        exact fun _ => Watch.noConfusion
      · exact (ho i x hi hij).2
    unfold freeWatch
    split
    · next i hi => exact absurd hi (hparked i)
    · rfl
  refine ⟨es, ?_⟩
  unfold finishWait
  simp only [h.group, h.block, hk, h.runs, Bool.false_eq_true, if_false, hfree]
  rfl

theorem Says.AwaitsOne.tryWaiter_eq (hk : e.kind = 1 ∨ e.kind = 2) : tryWaiter s (.cond gid id j)
    = if holdsOn s e then some (finishWait gid id (if any then BitVec.ofNat 32 j else 4#32) s) else none := by
  obtain ⟨es, t0, hkind, hj, ho⟩ := h.kind
  obtain ⟨m, hm⟩ := h.held
  obtain ⟨lanes, next, kind, woken⟩ := b
  obtain rfl : kind = .wait es any t0 dest := hkind
  obtain rfl : woken = none := h.fresh
  have hres := waitResult_of_one (s := s) (g := g) any hj hk (fun i x hi hij => (ho i x hi hij).1)
  unfold tryWaiter
  simp only [h.group, h.block, hj, hm, tryHeld, retryWait, hres]
  cases holdsOn s e <;> rfl

/-- That WAIT has ended: its group's registers and threads, and what else stands as it stood. -/
theorem Says.AwaitsOne.finished (r : Word) : (finishWait gid id r s).mem = s.mem ∧ (finishWait gid id r s).full = s.full
    ∧ (finishWait gid id r s).reqs = s.reqs
    ∧ (∃ g', Tab.get? (finishWait gid id r s).groups gid = some g' ∧ Refreshed (g.waitOver id dest r) g')
    ∧ ∀ e ∈ (finishWait gid id r s).groups, ∃ e' ∈ s.groups, e'.1 = e.1 ∧ e'.2.launch = e.2.launch ∧ ∀ b ∈ e.2.blocks, b ∈ e'.2.blocks := by
  have hsettled := finishWait_settled gid id r s
  obtain ⟨es, heq⟩ := h.finishWait_eq r
  have hmod : Tab.get? (s.modGroup gid (fun x => x.waitOver id dest r)).groups gid = some (g.waitOver id dest r) := by
    rw [State.modGroup_groups, Tab.get?_modify_self, h.group]; rfl
  obtain ⟨g', hg', href, hmem⟩ := waitReads_group hmod g.core b.lanes es
  have hover : ∀ b ∈ (g.waitOver id dest r).blocks, b ∈ g.blocks := fun b hb => (Group.waitOver_blocks h.block h.own b hb).1
  refine ⟨?_, (congrArg State.full hsettled :), (congrArg State.reqs hsettled :), ⟨g', heq ▸ hg', href⟩, fun e he => ?_⟩
  · rw [heq]; exact waitReads_mem _ _ _ _ _
  · rw [heq] at he
    rcases hmem e he with he | rfl
    · rw [State.modGroup_groups, Tab.modify, h.group] at he
      rcases Tab.mem_put he with rfl | he
      · exact ⟨_, Tab.mem_of_get? h.group, rfl, Group.waitOver_launch.symm, hover⟩
      · exact ⟨e, he, rfl, rfl, fun _ hb => hb⟩
    · exact ⟨_, Tab.mem_of_get? h.group, rfl, (href.launch.trans Group.waitOver_launch).symm, fun b hb => hover b (href.blocks ▸ hb)⟩

theorem Says.AwaitsOne.ended {r : Word} {v : State} (hr : r = if any then BitVec.ofNat 32 j else 4#32) (hv : v.groups = (finishWait gid id r s).groups) :
    WaitEnded gid id j g b any dest v := by
  obtain ⟨-, -, -, ⟨g', hg', href⟩, -⟩ := h.finished r
  refine ⟨g', hv ▸ hg', ?_, ?_, fun m hm => ?_, fun l hl => ?_⟩
  · rw [href.blocks]
    exact Tab.get?_none_iff.2 fun e he => (Group.waitOver_blocks h.block h.own e he).2
  · rw [href.regs, Group.waitOver_greg, if_pos rfl, hr]
  · rw [href.regs, Group.waitOver_greg, if_neg hm]
  · obtain ⟨hpc, hwait⟩ := href.threads l
    obtain ⟨hrun, hnext⟩ := Group.waitOver_thread (dest := dest) (r := r) h.block h.own hl
    exact ⟨hwait.trans hrun, hpc.trans hnext⟩

/-- With that WAIT nothing waits on its sector any more. -/
theorem Says.AwaitsOne.wakePass_finished (r : Word) : wakePass (e.pa / 64) (finishWait gid id r s) = (finishWait gid id r s, false) := by
  obtain ⟨-, -, hreqs, ⟨g', hg', href⟩, hsub⟩ := h.finished r
  refine wakePass_of_none fun w hw => ?_
  have hone := waitersOf_subset hreqs hsub _ w hw
  rw [h.alone, List.mem_singleton] at hone
  have hgone : Tab.get? g'.blocks id = none := by
    rw [href.blocks]
    exact Tab.get?_none_iff.2 fun e he => (Group.waitOver_blocks h.block h.own e he).2
  rw [hone]
  unfold tryWaiter
  simp only [hg', hgone]

/-- A write of a word on that sector ends the WAIT if its condition holds, and leaves its group else. -/
theorem Says.AwaitsOne.wake_spec (hk : e.kind = 1 ∨ e.kind = 2) {pa : Nat} (hp : e.pa / 64 = pa / 64) :
    (wake pa s).mem = s.mem ∧ (wake pa s).full = s.full ∧ (holdsOn s e = true → WaitEnded gid id j g b any dest (wake pa s))
      ∧ (holdsOn s e = false → Tab.get? (wake pa s).groups gid = some g) := by
  have hclear : ∀ v : State, (clearWatch (pa / 64) v).mem = v.mem ∧ (clearWatch (pa / 64) v).full = v.full ∧ (clearWatch (pa / 64) v).groups = v.groups :=
    fun v => by rw [clearWatch_eq]; exact ⟨rfl, rfl, rfl⟩
  have hpass : wakePass (pa / 64) s
      = if holdsOn s e then (finishWait gid id (if any then BitVec.ofNat 32 j else 4#32) s, true) else (s, false) := by
    rw [← hp]
    unfold wakePass
    rw [h.alone, List.foldl_cons, List.foldl_nil, h.tryWaiter_eq hk]
    cases holdsOn s e <;> rfl
  have hloop : wake pa s = clearWatch (pa / 64) (wakeLoop 2 (pa / 64) s) := by
    unfold wake
    dsimp only
    rw [← hp, h.alone]
    rfl
  cases hh : holdsOn s e with
  | true =>
    have hagain := h.wakePass_finished (if any then BitVec.ofNat 32 j else 4#32)
    rw [hp] at hagain
    rw [hh, if_pos rfl] at hpass
    have hdone : wake pa s = clearWatch (pa / 64) (finishWait gid id (if any then BitVec.ofNat 32 j else 4#32) s) := by
      rw [hloop, wakeLoop, hpass]
      simp only [wakeLoop, hagain]
    obtain ⟨hmem, hfull, -, -, -⟩ := h.finished (if any then BitVec.ofNat 32 j else 4#32)
    obtain ⟨cmem, cfull, cgroups⟩ := hclear (finishWait gid id (if any then BitVec.ofNat 32 j else 4#32) s)
    rw [hdone]
    exact ⟨cmem.trans hmem, cfull.trans hfull, fun _ => h.ended rfl cgroups, (fun hc => nomatch hc)⟩
  | false =>
    rw [hh, if_neg Bool.false_ne_true] at hpass
    have hdone : wake pa s = clearWatch (pa / 64) s := by rw [hloop, wakeLoop, hpass]
    obtain ⟨cmem, cfull, cgroups⟩ := hclear s
    rw [hdone]
    exact ⟨cmem, cfull, (fun hc => nomatch hc), fun _ => by rw [cgroups]; exact h.group⟩

end

theorem holdsOn_congr {s t : State} (hm : t.mem = s.mem) (hf : t.full = s.full) (e : WaitEntry) : holdsOn t e = holdsOn s e := by
  have hbyte : ∀ a, t.byte a = s.byte a := fun a => by rw [State.byte, hm]; rfl
  have hread : ∀ n, t.read e.pa n = s.read e.pa n := fun n => by
    unfold State.read State.bytes
    simp only [hbyte]
  unfold holdsOn State.isFull
  rw [hread, hread, hf]

/-- The completion word that a WAIT awaits. -/
theorem carterCompletionWord_wakes {n k gid id j dest : Nat} {s : State} {c : Cmd} {g : Group} {b : Block} {e : WaitEntry} {any : Bool}
    (hk : (s.carter k).cmd = some n) (hc : Tab.get? s.cmds n = some c) (hdue : c.compDue = true) (htime : c.complete ≤ s.time)
    (hack : cmdScope c.block ≠ 5 ∨ (c.hostAck = false ∧ c.peerAck = false)) (hpeer : peerAnswers s c.compw = true) (hap : aperture c.compw ≤ 1)
    (h : AwaitsOne s gid id j g b e any dest) (hkind : e.kind = 1 ∨ e.kind = 2) (hp : e.pa / 64 = c.compw / 64) :
    ∃ t, exec (.carterCompletionWord k) s = .next t ∧ Stored s t c.compw (leBytes 8 (c.block.extractLsb' 256 64).toNat) ∧ t.isFull c.compw = true
      ∧ (holdsOn t e = true → WaitEnded gid id j g b any dest t) ∧ (holdsOn t e = false → Tab.get? t.groups gid = some g) := by
  refine ⟨_, exec_carterCompletionWord hk hc hdue htime hack hpeer hap, ?_⟩
  generalize leBytes 8 (c.block.extractLsb' 256 64).toNat = bs
  have hview : homeView (resolveGates c.compw ((s.poke c.compw bs).setFull c.compw true)) = homeView (withWord c.compw bs (some true) s) := rfl
  have hreqs : (resolveGates c.compw ((s.poke c.compw bs).setFull c.compw true)).reqs = s.reqs := by rw [poke_eq]; rfl
  have hgroups : (resolveGates c.compw ((s.poke c.compw bs).setFull c.compw true)).groups = s.groups := by rw [poke_eq]; rfl
  generalize resolveGates c.compw ((s.poke c.compw bs).setFull c.compw true) = u at hview hreqs hgroups ⊢
  have hu : AwaitsOne u gid id j g b e any dest := { h with
    group := hgroups ▸ h.group
    alone := (show waitersOf u (e.pa / 64) = waitersOf s (e.pa / 64) by unfold waitersOf; rw [hreqs, hgroups]).trans h.alone }
  obtain ⟨hmem, hfull, hended, hstays⟩ := hu.wake_spec hkind hp
  obtain ⟨fmem, ffull, fgroups, -⟩ := finishCmd_keeps n c (wake c.compw u)
  have hholds : holdsOn (finishCmd n c (wake c.compw u)) e = holdsOn u e := holdsOn_congr (fmem.trans hmem) (ffull.trans hfull) e
  refine ⟨stored_of_mem (fmem.trans (hmem.trans (mem_of_homeView hview))) (withWord_stored c.compw bs (some true) s), ?_, fun hh => ?_, fun hh => ?_⟩
  · rw [State.isFull, ffull, hfull, full_of_homeView hview]
    exact withWord_isFull c.compw bs (some true) s
  · obtain ⟨g', hg', hrest⟩ := hended (hholds ▸ hh)
    exact ⟨g', fgroups ▸ hg', hrest⟩
  · rw [fgroups]
    exact hstays (hholds ▸ hh)

end Sys2Proof.Machine
end

section
/-! PROOF. The reservation table of the Loom and the slots of the cores, which no end of a wait, of a transaction or of a group and no record of poison
changes (spec/16 R304, R315). -/

namespace Sys2Proof.Machine

/-- The commands that have not retired, and the slots of every core. -/
def loomView (s : State) : Tab Loom × (Nat → Tab Slot) := (s.looms, fun c => (s.core c).slots)

theorem State.core_modCore (s : State) (c : Nat) (f : Core → Core) (k : Nat) : (s.modCore c f).core k = if k = c then f (s.core c) else s.core k := by
  unfold State.core
  rw [State.modCore_cores]
  by_cases h : k = c
  · rw [if_pos h, h]; exact Tab.getD_put_self _ _ _ _
  · rw [if_neg h]; exact Tab.getD_put_ne _ _ _ h

theorem loomView_of_settled {s t : State} (h : settled t = settled s) : loomView t = loomView s := by
  unfold loomView State.core
  rw [looms_of_settled h, cores_of_settled h]

theorem modCore_loomView (s : State) (c : Nat) (f : Core → Core) (hf : ∀ k, (f k).slots = k.slots) : loomView (s.modCore c f) = loomView s := by
  refine Prod.ext rfl (funext fun k => ?_)
  show ((s.modCore c f).core k).slots = (s.core k).slots
  rw [State.core_modCore]
  split
  · next h => rw [hf, h]
  · rfl

theorem clearPoison_loomView (pa n : Nat) (s : State) : loomView (clearPoison pa n s) = loomView s := rfl

theorem clearLent_loomView (core : Nat) (s : State) : loomView (clearLent core s) = loomView s :=
  (clearPoison_loomView _ _ _).trans (modCore_loomView _ _ _ (by intro k; rfl))

theorem releaseCore_loomView (launch core : Nat) (s : State) : loomView (releaseCore launch core s) = loomView s := by
  unfold releaseCore
  split
  · rfl
  · dsimp only
    have hclaim : loomView (s.modCore core (fun k => if k.claim = some launch then { k with claim := none } else k)) = loomView s :=
      modCore_loomView s core _ (fun k => by split <;> rfl)
    split
    · exact (clearLent_loomView _ _).trans ((modCore_loomView _ _ _ (by intro k; rfl)).trans hclaim)
    · exact hclaim

theorem leaveRegisters_loomView (g : Group) (s : State) : loomView (leaveRegisters g s) = loomView s := by
  unfold leaveRegisters
  split
  · rfl
  · exact modCore_loomView s _ _ (by intro k; rfl)

theorem restoreShadows_loomView (x : Tx) (s : State) : loomView (restoreShadows x s) = loomView s := by
  refine foldl_keeps loomView (fun s (h : Shadow) => h.restore s) (fun u h => ?_) x.shadows s
  exact modCore_loomView u h.core (fun k =>
    if h.lrf then { k with lrf := (List.range 1024).foldl (fun m n =>
      Sparse.set 0#32 m (h.base / 4 + n) (BitVec.ofNat 32 (leNat ((h.bytes.drop (4 * n)).take 4)))) k.lrf }
    else { k with lstore := h.bytes.zipIdx.foldl (fun m e => Sparse.set 0#8 m (h.base + e.2) e.1) k.lstore }) (by intro k; split <;> rfl)

theorem discardDeferred_loomView (team : Nat) (s : State) : loomView (discardDeferred team s) = loomView s := by
  refine (loomView_of_settled (wakeInner_settled _)).trans (foldl_keeps loomView _ (fun u e => ?_) _ s)
  split <;> rfl

theorem abortTx_loomView (team : Nat) (s : State) : loomView (abortTx team s) = loomView s := by
  unfold abortTx
  split
  · rfl
  · exact (discardDeferred_loomView team _).trans (restoreShadows_loomView _ s)

theorem withdrawBlocks_loomView (g : Group) (s : State) : loomView (withdrawBlocks g s) = loomView s := by
  refine foldl_keeps loomView _ (fun u e => ?_) _ s
  split
  · exact loomView_of_settled (foldl_freeWatch_settled g.launch _ u)
  · rfl

theorem delReq_loomView (n : Nat) (s : State) : loomView (s.delReq n) = loomView s := rfl

theorem withdrawFe_loomView (gid : Nat) (s : State) : loomView (withdrawFe gid s) = loomView s := by
  refine foldl_keeps loomView _ (fun u e => ?_) _ s
  split
  · split
    · split
      · exact (delReq_loomView _ _).trans (loomView_of_settled (freeWatch_settled _ _ u))
      · rfl
    · rfl
  · rfl

theorem endTeam_loomView (team : Nat) (froze : Bool) (s : State) : loomView (endTeam team froze s) = loomView s := by
  have hd : loomView (if froze then abortTx team s else keepDigest team (abortTx team s)) = loomView s := by
    split <;> exact abortTx_loomView team s
  unfold endTeam
  dsimp only
  rw [releaseCore_loomView]
  split
  · rw [releaseCore_loomView]; exact hd
  · exact hd

theorem removeGroup_loomView (gid : Nat) (s : State) : loomView (removeGroup gid s) = loomView s := by
  cases h : Tab.get? s.groups gid with
  | none => unfold removeGroup; rw [h]
  | some g =>
    have hw : loomView (withoutGroup gid g s) = loomView s :=
      (withdrawFe_loomView _ _).trans ((withdrawBlocks_loomView _ _).trans (leaveRegisters_loomView _ _))
    have ha : loomView (if g.gid = 0 then abortTx g.team (withoutGroup gid g s) else withoutGroup gid g s) = loomView (withoutGroup gid g s) := by
      split
      · exact abortTx_loomView _ _
      · rfl
    rw [removeGroup_of_some h]
    unfold endWith
    generalize (if g.gid = 0 then abortTx g.team (withoutGroup gid g s) else withoutGroup gid g s) = s1 at ha ⊢
    dsimp only
    split
    · exact (endTeam_loomView _ _ _).trans (ha.trans hw)
    · exact (releaseCore_loomView _ _ _).trans (ha.trans hw)

theorem dropGroups_loomView (team : Nat) (p : Nat → Group → Bool) (s : State) : loomView (dropGroups team p s) = loomView s :=
  foldl_keeps loomView (fun s (e : Nat × Group) => removeGroup e.1 s) (fun s e => removeGroup_loomView e.1 s) _ s

theorem endTask_loomView (gid : Nat) (g : Group) (s : State) : loomView (endTask gid g s) = loomView s := by
  have hd : loomView (dropGroups g.team (fun n _ => n != gid) (clearTags g.team (keepDigest g.team (abortTx g.team
      ((withdrawFe gid (withdrawBlocks g s)).modGroup gid (fun x => { x with blocks := [] })))))) = loomView s :=
    (dropGroups_loomView _ _ _).trans ((abortTx_loomView g.team _).trans ((withdrawFe_loomView _ _).trans (withdrawBlocks_loomView _ _)))
  unfold endTask
  dsimp only
  split
  · refine Eq.trans (foldl_keeps loomView _ (fun u t => ?_) _ _) hd
    split
    · rfl
    · exact dropGroups_loomView _ _ u
  · exact hd

theorem freeze_loomView (at_ : Site) (code detail : Nat) (lanes : LaneSet) (addr : DWord) (s : State) :
    loomView (freeze at_ code detail lanes addr s) = loomView s := by
  unfold freeze
  split
  · rfl
  split
  · rfl
  · exact (loomView_of_settled (faultRecord_settled _ _ _)).trans (endTask_loomView _ _ _)

/-! ### Full/empty accesses that are performed -/

theorem foldTask_loomView (team : Nat) (v : DWord) (s : State) : loomView (foldTask team v s) = loomView s := by
  unfold foldTask
  dsimp only
  split <;> rfl

theorem tagLine_loomView (team pa : Nat) (s : State) : loomView (tagLine team pa s) = loomView s := by
  unfold tagLine
  dsimp only
  split
  · split
    · split <;> rfl
    · rfl
  · rfl

theorem endRequest_loomView (n : Nat) (r : Req) (s : State) : loomView (endRequest n r s) = loomView s := by
  unfold endRequest
  split <;> rfl

theorem feEffect_loomView (team : Nat) (kind : FeKind) (va : DWord) (pa : Nat) (data : DWord) (s : State) :
    loomView (feEffect team kind va pa data s).2.1 = loomView s := by
  have hstore : loomView (resolveGates pa (foldTask team (foldBytes va (leBytes 8 data.toNat)) (tagLine team pa
      ((s.poke pa (leBytes 8 data.toNat)).setFull pa true)))) = loomView s := by
    have hpoke : loomView ((s.poke pa (leBytes 8 data.toNat)).setFull pa true) = loomView s := by rw [poke_eq]; rfl
    refine Eq.trans (Eq.trans ?_ (tagLine_loomView team pa _)) hpoke
    exact foldTask_loomView _ _ _
  cases kind with
  | ldw => rfl
  | ldc => rfl
  | stf => exact hstore
  | stfs => exact hstore
  | feset => unfold feEffect; dsimp only; split <;> rfl
  | feget => rfl

theorem noteRead_settled (gid : Nat) (lanes : LaneSet) (inFlight : NatSet) (until_ : Nat) (s : State) :
    settled (noteRead gid lanes inFlight until_ s) = settled s := rfl

theorem dropOwn_loomView (core pa : Nat) (s : State) : loomView (dropOwn core pa s) = loomView s := rfl

theorem residue_loomView (r : Req) (complete : Nat) (hostAck peerAck : Bool) (s : State) : loomView (residue r complete hostAck peerAck s) = loomView s := by
  unfold residue
  split <;> rfl

theorem feLand_loomView (r : Req) (kind : FeKind) (lane pa : Nat) (data : DWord) (reg : Nat) (w : DWord) (s : State) :
    loomView (feLand r kind lane pa data reg w s) = loomView s := by
  have hpast : ∀ u : State, loomView (if feWaits kind then goPast r.group (LaneSet.one lane) r.site.next u else u) = loomView u := by
    intro u
    split
    · unfold goPast
      split <;> rfl
    · rfl
  unfold feLand
  dsimp only
  split
  · exact hpast _
  · exact hpast _

/-- How an access that has been performed answers. -/
theorem feAnswer_loomView {v s : State} {n : Nat} {r : Req} {kind : FeKind} {lane pa reg : Nat} {data w : DWord} {bytes : List Byte} {f : Req → Req} {p : Prop}
    [Decidable p] (h : loomView v = loomView s) :
    loomView (if r.core = peerCore then answerPeer bytes (v.delReq n) else if p then v.modReq n f else feLand r kind lane pa data reg w (v.delReq n))
      = loomView s := by
  split
  · exact h
  · split
    · exact h
    · exact (feLand_loomView _ _ _ _ _ _ _ _).trans h

theorem fePerform_loomView (n : Nat) (r : Req) (kind : FeKind) (lane : Nat) (va : DWord) (pa : Nat) (data : DWord) (reg : Nat) (w : Watch) (s : State) :
    loomView (fePerform n r kind lane va pa data reg w s) = loomView s := by
  unfold fePerform
  split
  · unfold poisonStop
    split
    · rfl
    · refine (freeze_loomView _ _ _ _ _ _).trans ?_
      split
      · exact (endRequest_loomView _ _ _).trans (loomView_of_settled (freeWatch_settled _ _ s))
      · exact foldl_keeps loomView (fun s (e : Nat × Req) => endRequest e.1 e.2 s) (fun s e => endRequest_loomView e.1 e.2 s) _ s
  · dsimp only
    generalize hu : freeWatch r.launch w (noteRead r.group (LaneSet.one lane) []
      (if (kind == .ldw || kind == .ldc) = true then staleUntil s pa (s.bytes pa 8) else 0) s) = u
    have hview : loomView u = loomView s := by
      rw [← hu]
      exact loomView_of_settled ((freeWatch_settled _ _ _).trans (noteRead_settled _ _ _ _ _))
    have hout : loomView (dropOwn r.core pa (feEffect r.team kind va pa data u).2.1) = loomView s :=
      (dropOwn_loomView _ _ _).trans ((feEffect_loomView _ _ _ _ _ u).trans hview)
    generalize dropOwn r.core pa (feEffect r.team kind va pa data u).2.1 = v at hout ⊢
    refine feAnswer_loomView ?_
    split
    · exact (residue_loomView _ _ _ _ v).trans hout
    · exact hout

theorem tryWaiter_loomView {s t : State} {w : Waiter} (h : tryWaiter s w = some t) : loomView t = loomView s := by
  have hheld : ∀ (launch pa : Nat) (w : Watch) (go : Unit → Option State), (∀ v, go () = some v → loomView v = loomView s) →
      tryHeld launch pa w go s = some t → loomView t = loomView s := by
    intro launch pa w go hgo ht
    unfold tryHeld at ht
    split at ht
    · split at ht
      · exact hgo t ht
      · cases ht; exact loomView_of_settled (freeWatch_settled _ _ s)
      · cases ht
    · exact hgo t ht
  unfold tryWaiter at h
  split at h
  · split at h
    · split at h
      · refine hheld _ _ _ _ (fun v hv => ?_) h
        split at hv
        · cases hv; exact fePerform_loomView _ _ _ _ _ _ _ _ _ s
        · cases hv
      · cases h
    · cases h
  · split at h
    · split at h
      · split at h
        · exact hheld _ _ _ _ (fun v hv => loomView_of_settled (retryWait_settled hv)) h
        · cases h
      · cases h
    · cases h

theorem wakePass_loomView (sector : Nat) (s : State) : loomView (wakePass sector s).1 = loomView s := by
  unfold wakePass
  refine foldl_keeps (fun acc : State × Bool => loomView acc.1) _ (fun acc w => ?_) _ (s, false)
  split
  · next h => exact tryWaiter_loomView h
  · rfl

theorem wakeLoop_loomView (fuel sector : Nat) (s : State) : loomView (wakeLoop fuel sector s) = loomView s := by
  induction fuel generalizing s with
  | zero => rfl
  | succ fuel ih =>
    have hpass := wakePass_loomView sector s
    rw [wakeLoop]
    split
    · next h => rw [h] at hpass; exact (ih _).trans hpass
    · next h => rw [h] at hpass; exact hpass

theorem wake_loomView (pa : Nat) (s : State) : loomView (wake pa s) = loomView s :=
  (loomView_of_settled (clearWatch_settled _ _)).trans (wakeLoop_loomView _ _ s)

/-- A record of poison changes neither the Loom's commands nor its slots (R304). -/
theorem poisonRecord_loomView (launch pa : Nat) (s : State) : loomView (poisonRecord launch pa s) = loomView s := by
  unfold poisonRecord launchRecord
  dsimp only
  split
  · refine (loomView_of_settled (faultRecord_settled _ _ _)).trans ?_
    split
    · split
      · exact wake_loomView _ _
      · rfl
    · rfl
  · exact loomView_of_settled (faultRecord_settled _ _ s)

theorem recordPoison_loomView (launch : Nat) (pas : List Nat) (s : State) : loomView (recordPoison launch pas s) = loomView s :=
  foldl_keeps loomView (fun s pa => poisonRecord launch pa s) (fun s pa => poisonRecord_loomView launch pa s) _ s

section
variable {s t : State} (h : loomView t = loomView s)
include h

theorem looms_of_loomView : t.looms = s.looms := (congrArg Prod.fst h :)
theorem slots_of_loomView (c : Nat) : (t.core c).slots = (s.core c).slots := congrFun (congrArg Prod.snd h) c

end

end Sys2Proof.Machine
end

section
/-! PROOF. Steps and commands of the Loom as they retire (spec/16 R306, R307, R310, R311, spec/05 R93). -/

namespace Sys2Proof.Machine

open Says

/-! ### A range of a sparse table that is filled -/

theorem Tab.get?_append {α : Type} (a b : Tab α) (m : Nat) : Tab.get? (a ++ b) m = (Tab.get? a m).or (Tab.get? b m) := by
  induction a with
  | nil => rfl
  | cons e a ih =>
    obtain ⟨k, v⟩ := e
    rw [List.cons_append, Tab.get?_cons, Tab.get?_cons, ih]
    split <;> rfl

/-- A value put at its place of a range reads as itself, the default as an absent entry. -/
theorem get?_zipIdx {α : Type} [DecidableEq α] (d : α) (xs : List α) (n j : Nat) (i : Nat) {x : α} (hx : xs[i]? = some x) :
    Tab.get? (((xs.zipIdx j).map (fun y => (n + y.2, y.1))).filter (fun e => decide (e.2 ≠ d))) (n + (j + i)) = if x = d then none else some x := by
  induction xs generalizing i j with
  | nil => cases hx
  | cons y t ih =>
    have hlater : ∀ e ∈ ((t.zipIdx (j + 1)).map (fun y => (n + y.2, y.1))).filter (fun e => decide (e.2 ≠ d)), n + j < e.1 := by
      intro e he
      obtain ⟨z, hz, rfl⟩ := List.mem_map.1 (List.mem_of_mem_filter he)
      have := (List.mem_zipIdx hz).1
      show n + j < n + z.2
      omega
    rw [List.zipIdx_cons, List.map_cons, List.filter_cons]
    cases i with
    | zero =>
      obtain rfl : y = x := Option.some.inj hx
      have hnone := Tab.get?_none_iff.2 (fun e he => Nat.ne_of_gt (hlater e he))
      by_cases hy : y = d
      · rw [if_neg (by simp [hy]), if_pos hy]; exact hnone
      · rw [if_pos (by simp [hy]), if_neg hy, Tab.get?_cons]; exact if_pos rfl
    | succ i =>
      have hrec := ih (j + 1) i hx
      rw [show j + 1 + i = j + (i + 1) by omega] at hrec
      split
      · rw [Tab.get?_cons, if_neg (by show n + j ≠ _; omega)]; exact hrec
      · exact hrec

theorem Sparse.get_fill {α : Type} [DecidableEq α] (d : α) (t : Tab α) (n i : Nat) {xs : List α} {x : α} (hx : xs[i]? = some x) :
    Sparse.get d (Sparse.fill d t n xs) (n + i) = x := by
  have hi : i < xs.length := (List.getElem?_eq_some_iff.1 hx).1
  have hlow : Tab.get? (t.filter (fun e => decide (e.1 < n))) (n + i) = none :=
    Tab.get?_none_iff.2 fun e he => by
      have := of_decide_eq_true (List.mem_filter.1 he).2
      omega
  have hhigh : Tab.get? (t.filter (fun e => decide (n + xs.length ≤ e.1))) (n + i) = none :=
    Tab.get?_none_iff.2 fun e he => by
      have := of_decide_eq_true (List.mem_filter.1 he).2
      omega
  have hmid := get?_zipIdx d xs n 0 i hx
  rw [Nat.zero_add] at hmid
  unfold Sparse.get Sparse.fill
  rw [Tab.get?_append, Tab.get?_append, hlow, hhigh, hmid]
  by_cases hd : x = d
  · rw [if_pos hd, hd]; rfl
  · rw [if_neg hd]; rfl

theorem setAcc_get (core acc i : Nat) {ws : List Word} {w : Word} (s : State) (hw : ws[i]? = some w) :
    Sparse.get 0#32 ((setAcc core acc ws s).core core).acc (4096 * acc + i) = w := by
  have hacc : ((setAcc core acc ws s).core core).acc = Sparse.fill 0#32 (s.core core).acc (4096 * acc) ws :=
    congrArg Core.acc ((State.core_modCore s core (fun c => { c with acc := Sparse.fill 0#32 c.acc (4096 * acc) ws }) core).trans (if_pos rfl))
  rw [hacc]
  exact Sparse.get_fill 0#32 _ _ i hw

/-! ### A step is added (R93, R307) -/

theorem countStep_keeps (x : Loom) (st : LoomStep) (acc : List Word) (s : State) :
    (countStep x st acc s).looms = s.looms ∧ (countStep x st acc s).cores = s.cores ∧ (countStep x st acc s).mem = s.mem := by
  unfold countStep
  split
  · exact ⟨rfl, rfl, rfl⟩
  · exact ⟨rfl, rfl, rfl⟩

theorem recordPoison_nil (launch : Nat) (s : State) : recordPoison launch [] s = s := rfl

theorem addSteps_get {st : LoomStep} {zero : Bool} {acc : List Word} {i : Nat} {v : Val} {w : Word} (hv : st.sums[i]? = some v) (hw : acc[i]? = some w) :
    (addSteps st zero acc)[i]? = some (addStep st v (if zero then 0#32 else w)) := by
  unfold addSteps
  rw [List.getElem?_map, (List.getElem?_zip_eq_some (z := (w, v))).2 ⟨hw, hv⟩]
  rfl

theorem loomStepRetire_adds {n acc slot nk : Nat} {zero : Bool} {y : Tensor} {row col : Nat} {s : State} {x : Loom} {st : LoomStep}
    (hx : Tab.get? s.looms n = some x) (hop : x.op = .loop acc slot nk zero y row col) (hst : Tab.get? x.granted x.nextStep = some st)
    (hturn : shapeTurn s n x = true) (hheat : (s.cluster (clusterOf x.core)).thermal < 2)
    (hsound : (zero = true ∧ x.nextStep = 0) ∨ accPoison s x.core acc = []) :
    ∃ t, exec (.loomStepRetire n x.nextStep) s = .next t
      ∧ Tab.get? t.looms n = some { x with granted := Tab.del x.granted x.nextStep, nextStep := x.nextStep + 1 }
      ∧ (∀ (i : Nat) (v : Val) (w : Word), st.sums[i]? = some v → (accWords s x.core acc)[i]? = some w →
        Sparse.get 0#32 (t.core x.core).acc (4096 * acc + i) = addStep st v (if zero = true ∧ x.nextStep = 0 then 0#32 else w)) ∧ t.mem = s.mem := by
  have hbad : (if zero && x.nextStep == 0 then [] else accPoison s x.core acc) = [] := by
    rcases hsound with ⟨hz, h0⟩ | hp
    · rw [if_pos (by simp [hz, h0])]
    · rw [hp, ite_self]
  let ws := addSteps st (zero && x.nextStep == 0) (accWords s x.core acc)
  obtain ⟨hlooms, hcores, hmem⟩ := countStep_keeps x st ws (setAcc x.core acc ws s)
  let u := countStep x st ws (setAcc x.core acc ws s)
  refine ⟨(u.modCluster (clusterOf x.core) (fun c => { c with lastStep := s.time })).modLoom n
    (fun x' => { x' with granted := Tab.del x'.granted x.nextStep, nextStep := x.nextStep + 1 }), ?_, ?_, fun i v w hv hw => ?_, hmem⟩
  · have hgo : ¬ (x.nextStep ≠ x.nextStep ∨ (!shapeTurn s n x) = true ∨ 2 ≤ (s.cluster (clusterOf x.core)).thermal) := by
      simp [hturn, hheat]
    show execLoomStepRetire n x.nextStep s = _
    simp only [execLoomStepRetire, hx, hop, hst, if_neg hgo, hbad, List.isEmpty_nil, Bool.not_true, Bool.or_false, recordPoison_nil]
    rfl
  · show Tab.get? (Tab.modify u.looms n _) n = _
    rw [Tab.get?_modify_self, show u.looms = s.looms from hlooms, hx]
    rfl
  · have hget := addSteps_get (zero := zero && x.nextStep == 0) hv hw
    have hcore : ∀ k, u.core k = (setAcc x.core acc ws s).core k := fun k => congrArg (fun t => Tab.getD t k Core.reset) hcores
    show Sparse.get 0#32 (u.core x.core).acc (4096 * acc + i) = _
    rw [hcore, setAcc_get x.core acc i s hget]
    refine congrArg (addStep st v) ?_
    by_cases hz : zero = true ∧ x.nextStep = 0
    · rw [if_pos hz, if_pos (by simp [hz.1, hz.2])]
    · rw [if_neg hz, if_neg (by simpa using hz)]

end Sys2Proof.Machine
end

section
/-! PROOF. A command of the Loom that retires (spec/16 R306, R310, R311, R315). -/

namespace Sys2Proof.Machine

open Says

/-! ### The V registers of a group, which the end of a WAIT leaves as they are (R175) -/

/-- The V registers of a group that has not ended. -/
def vregView (gid : Nat) (s : State) : Option (Nat → Nat → Word) := (Tab.get? s.groups gid).map (fun g l n => (g.thread l).vreg n)

/-- Two groups hold the same V registers. -/
def SameVregs (g g' : Group) : Prop := ∀ l n, (g'.thread l).vreg n = (g.thread l).vreg n

theorem SameRegs.vregs {g g' : Group} (h : SameRegs g g') : SameVregs g g' := fun l n => h.regs l (.v n)

theorem vregView_of_groups {gid : Nat} {s t : State} (h : t.groups = s.groups) : vregView gid t = vregView gid s := by unfold vregView; rw [h]

theorem modGroup_vregView (k gid : Nat) (s : State) {f : Group → Group} (hf : ∀ g, SameVregs g (f g)) : vregView k (s.modGroup gid f) = vregView k s := by
  unfold vregView
  rw [State.modGroup_groups]
  by_cases h : k = gid
  · rw [h, Tab.get?_modify_self, Option.map_map]
    refine congrArg (Option.map · _) (funext fun g => funext fun l => funext fun n => hf g l n)
  · rw [Tab.get?_modify_ne _ _ h]

theorem sameVregs_waitOver (g : Group) (id dest : Nat) (r : Word) : SameVregs g (g.waitOver id dest r) := fun l n =>
  ((sameRegs_rechoose _).vregs l n).trans ((sameRegs_goOn g id).vregs l n)

theorem sameVregs_noted (s : State) (g : Group) (lanes : LaneSet) (inFlight : NatSet) (until_ : Nat) :
    SameVregs g (g.modLanes lanes (fun _ t => t.noted s inFlight until_)) := fun l n =>
  Group.reg_modLanes g lanes (fun _ t => t.noted s inFlight until_) (fun _ _ => rfl) l (.v n)

theorem noteRead_vregView (k gid : Nat) (lanes : LaneSet) (inFlight : NatSet) (until_ : Nat) (s : State) :
    vregView k (noteRead gid lanes inFlight until_ s) = vregView k s :=
  modGroup_vregView k gid s (fun g => sameVregs_noted s g lanes inFlight until_)

theorem waitReads_vregView (k gid core : Nat) (lanes : LaneSet) (es : List WaitEntry) (s : State) :
    vregView k (waitReads gid core lanes es s) = vregView k s := by
  unfold waitReads
  dsimp only
  split
  · rfl
  · exact (vregView_of_groups (foldl_dropAll_groups core _ _)).trans (noteRead_vregView k gid lanes [] _ s)

theorem finishWait_vregView (k gid id : Nat) (r : Word) (s : State) : vregView k (finishWait gid id r s) = vregView k s := by
  unfold finishWait
  split
  · rfl
  split
  · rfl
  split
  · split
    · exact modGroup_vregView k gid s (fun _ _ _ => rfl)
    · refine (waitReads_vregView _ _ _ _ _ _).trans ((modGroup_vregView k gid _ (fun g => sameVregs_waitOver g id _ r)).trans ?_)
      exact vregView_of_groups (foldl_freeWatch_groups _ _ s)
  · rfl

theorem retryWait_vregView {k gid id : Nat} {s t : State} (h : retryWait gid id s = some t) : vregView k t = vregView k s := by
  unfold retryWait at h
  split at h
  · cases h
  split at h
  · split at h
    · cases h; exact finishWait_vregView k gid id _ s
    · cases h
  · cases h

theorem wakeInner_vregView (k : Nat) (s : State) : vregView k (wakeInner s) = vregView k s := by
  refine foldl_keeps (vregView k) (fun s (w : Nat × Nat) => (retryWait w.1 w.2 s).getD s) (fun s w => ?_) _ s
  cases h : retryWait w.1 w.2 s with
  | none => rfl
  | some t => exact retryWait_vregView h

/-! ### What leaves the reservation table (R315) -/

theorem retireLoom_looms (n core : Nat) (s : State) : (retireLoom n core s).looms = Tab.del s.looms n := looms_of_settled (wakeInner_settled _)

theorem retireLoom_gone (n core : Nat) (s : State) : Tab.get? (retireLoom n core s).looms n = none := by
  rw [retireLoom_looms]; exact Tab.get?_del_self _ _

/-- The accumulators and the slots of every core stay as they are. -/
theorem retireLoom_core (n core k : Nat) (s : State) :
    ((retireLoom n core s).core k).acc = (s.core k).acc ∧ ((retireLoom n core s).core k).slots = (s.core k).slots := by
  have hcore := congrArg (fun cs => Tab.getD cs k Core.reset) (cores_of_settled (wakeInner_settled (({ s with looms := Tab.del s.looms n } : State).modCore core
    (fun k => { k with
      tags := k.tags.filter (fun t => t.2 != n)
      fences := (k.fences.map (fun (f : LoomFence) => { f with earlier := NatSet.del f.earlier n })).filter (fun f => !f.earlier.isEmpty)
      holds := (k.holds.map (fun h => (h.1, NatSet.del h.2 n))).filter (fun h => !h.2.isEmpty) }))))
  have hk : (retireLoom n core s).core k = _ := hcore.trans (State.core_modCore _ _ _ k)
  rw [hk]
  split
  · next h => rw [h]; exact ⟨rfl, rfl⟩
  · exact ⟨rfl, rfl⟩

theorem retireLoom_vregView (k n core : Nat) (s : State) : vregView k (retireLoom n core s) = vregView k s := wakeInner_vregView k _

/-! ### Each command's last effect -/

/-- An accumulator that no step is being added to and that holds no poison is read as it stands (R311). -/
theorem racedAcc_calm {n acc : Nat} {s : State} {x : Loom} (hadds : pendingAdds s n x.core acc = []) (hpoison : accPoison s x.core acc = []) :
    racedAcc s n x.launch x.core acc = (accWords s x.core acc, s) := by
  unfold racedAcc readAcc
  rw [hadds, hpoison]
  rfl

section
variable {n : Nat} {s : State} {x : Loom} (hx : Tab.get? s.looms n = some x) (hstart : loomStarts s n x = true)
  (hheat : (s.cluster (clusterOf x.core)).thermal < 2)
include hx hstart hheat

theorem loomRetire_loop (hadded : x.added = true) : exec (.loomCommandRetire n) s = .next (retireLoom n x.core s) := by
  show execLoomCommandRetire n s = _
  unfold Loom.added at hadded
  split at hadded
  · next hop =>
    have hdone : x.added = true := by unfold Loom.added; rw [hop]; exact hadded
    simp [execLoomCommandRetire, hx, hop, hdone, hstart, hheat]
  · cases hadded

theorem loomRetire_zero {acc : Nat} (hop : x.op = .zero acc) :
    exec (.loomCommandRetire n) s = .next (retireLoom n x.core (setAcc x.core acc (List.replicate 4096 0#32) s)) := by
  show execLoomCommandRetire n s = _
  simp only [execLoomCommandRetire, hx, hop, hstart, hheat, decide_true, Bool.and_self, if_true, -List.reduceReplicate]

/-- The words that an MLOADV or an MLOADA writes, each at its place of the accumulator. -/
def writeAcc (acc : Nat) (vals : List (Nat × Word)) (m : Tab Word) : Tab Word := vals.foldl (fun m v => Sparse.set 0#32 m (4096 * acc + v.1) v.2) m

theorem loomRetire_write {acc row col : Nat} {vals : List (Nat × Word)} (hop : x.op = .write acc row col vals) :
    ∃ t, exec (.loomCommandRetire n) s = .next (retireLoom n x.core t) ∧ (t.core x.core).acc = writeAcc acc vals (s.core x.core).acc := by
  let clear := fun (s : State) (v : Nat × Word) =>
    if v.1 % 2 = 0 ∧ vals.any (fun o => o.1 == v.1 + 1) then clearPoison (accPa x.core acc + 4 * v.1) 8 s else s
  refine ⟨vals.foldl clear (s.modCore x.core (fun k => { k with acc := writeAcc acc vals k.acc })), ?_, ?_⟩
  · show execLoomCommandRetire n s = _
    simp only [execLoomCommandRetire, hx, hop, hstart, hheat, decide_true, Bool.and_self, if_true]
    rfl
  · have hclear := foldl_keeps State.cores clear (fun s v => by dsimp only [clear]; split <;> rfl) vals
      (s.modCore x.core (fun k => { k with acc := writeAcc acc vals k.acc }))
    refine (congrArg (fun cs => (Tab.getD cs x.core Core.reset).acc) hclear).trans ?_
    exact congrArg Core.acc ((State.core_modCore s x.core _ x.core).trans (if_pos rfl))

theorem loomRetire_loadb {b row col : Nat} {y : Tensor} (hop : x.op = .loadb b y row col) :
    ∃ t, exec (.loomCommandRetire n) s = .next (retireLoom n x.core t) ∧ Tab.get? (t.core (slotPlace x.core b).1).slots (slotPlace x.core b).2
      = some (loadSlot y row col (readPanel s (s.launch x.launch) x.core y row col 64) s.free) := by
  let panel := readPanel s (s.launch x.launch) x.core y row col 64
  let place := slotPlace x.core b
  let load := fun (k : Core) => { k with slots := Tab.put k.slots place.2 (loadSlot y row col panel s.free) }
  let s1 := clearPoison (slotPa place.1 place.2) 0x2000 ((notePanel x y row col 64 s).modCore place.1 load)
  refine ⟨recordPoison x.launch panel.poison { s1 with free := s1.free + (if panel.poison.isEmpty then 0 else 4096) }, ?_, ?_⟩
  · show execLoomCommandRetire n s = _
    simp only [execLoomCommandRetire, hx, hop, hstart, hheat, decide_true, Bool.and_self, if_true]
    rfl
  · rw [slots_of_loomView (recordPoison_loomView _ _ _)]
    have hcore : s1.core place.1 = load _ := (State.core_modCore (notePanel x y row col 64 s) place.1 load place.1).trans (if_pos rfl)
    refine (congrArg (fun (c : Core) => Tab.get? c.slots place.2) hcore).trans ?_
    exact Tab.get?_put_self _ _ _

/-- What an MREAD writes to the register of its lanes (R311). -/
def readWrites (lanes : LaneSet) (row col reg : Nat) (ws : List Word) : List RegWrite :=
  (LaneSet.toList lanes).map (fun l =>
    { lane := some l, reg := reg, val := if col + l < 64 then ws.getD (64 * row + col + l) 0#32 else 0#32 })

theorem loomRetire_read {acc row col reg : Nat} (hop : x.op = .read acc row col reg) (hadds : pendingAdds s n x.core acc = [])
    (hpoison : accPoison s x.core acc = []) :
    exec (.loomCommandRetire n) s = .next (retireLoom n x.core
      (s.modGroup x.group (fun g => (g.land (readWrites x.lanes row col reg (accWords s x.core acc))).rechoose))) := by
  show execLoomCommandRetire n s = _
  simp only [execLoomCommandRetire, hx, hop, hstart, hheat, decide_true, Bool.and_self, if_true, racedAcc_calm hadds hpoison]
  rfl

end

/-! ### The words and registers that a command leaves -/

/-- A word that no write names stays as it was. -/
theorem writeAcc_other {acc i : Nat} {vals : List (Nat × Word)} (m : Tab Word) (hi : ∀ v, (i, v) ∉ vals) :
    Sparse.get 0#32 (writeAcc acc vals m) (4096 * acc + i) = Sparse.get 0#32 m (4096 * acc + i) := by
  induction vals generalizing m with
  | nil => rfl
  | cons e t ih =>
    have he : i ≠ e.1 := fun h => hi e.2 (h ▸ List.mem_cons_self)
    refine (ih (Sparse.set 0#32 m (4096 * acc + e.1) e.2) (fun v hv => hi v (List.mem_cons_of_mem e hv))).trans ?_
    exact Sparse.get_set_ne 0#32 m e.2 (by omega)

/-- A word that one write names reads its value. -/
theorem writeAcc_same {acc i : Nat} {v : Word} {vals : List (Nat × Word)} (m : Tab Word) (hone : (vals.map (·.1)).Nodup) (hi : (i, v) ∈ vals) :
    Sparse.get 0#32 (writeAcc acc vals m) (4096 * acc + i) = v := by
  induction vals generalizing m with
  | nil => cases hi
  | cons e t ih =>
    obtain ⟨hfresh, hrest⟩ := List.nodup_cons.1 hone
    rcases List.mem_cons.1 hi with rfl | ht
    · refine (writeAcc_other (Sparse.set 0#32 m (4096 * acc + i) v) (fun w hw => hfresh (List.mem_map.2 ⟨_, hw, rfl⟩))).trans ?_
      exact Sparse.get_set_self 0#32 m _ v
    · exact ih (Sparse.set 0#32 m (4096 * acc + e.1) e.2) hrest ht

/-- The register of a living lane that an MREAD names. -/
theorem landed_readWrites {g : Group} {lanes : LaneSet} {row col reg : Nat} {ws : List Word} {l : Nat} (hl : lanes.has l = true)
    (hlive : (g.thread l).live = true) :
    landed g (readWrites lanes row col reg ws) l (.v reg) = if col + l < 64 then ws.getD (64 * row + col + l) 0#32 else 0#32 := by
  unfold landed
  generalize hfits : (fun (w : RegWrite) => w.target == Reg.v reg && (match w.lane with
    | some k => k == l && (g.thread k).live
    | none => true)) = fits
  have hmem : ({ lane := some l, reg := reg, val := if col + l < 64 then ws.getD (64 * row + col + l) 0#32 else 0#32 } : RegWrite)
      ∈ (readWrites lanes row col reg ws).filter fits := by
    refine List.mem_filter.2 ⟨List.mem_map.2 ⟨l, (LaneSet.mem_toList _ _).2 hl, rfl⟩, ?_⟩
    simp [← hfits, RegWrite.target, hlive]
  obtain ⟨w, hlast⟩ := Option.isSome_iff_exists.1 (List.getLast?_isSome.2 (List.ne_nil_of_mem hmem))
  obtain ⟨hw, hfit⟩ := List.mem_filter.1 (List.mem_of_getLast? hlast)
  obtain ⟨k, -, rfl⟩ := List.mem_map.1 hw
  have hk : k = l := by
    simp only [← hfits, Bool.and_eq_true, beq_iff_eq] at hfit
    exact hfit.2.1
  rw [hlast, hk]
  rfl

/-- A command whose turn it is has its last effect and leaves the reservation table (R306, R310, R311, R315). -/
theorem loomCommandRetire_retires {n : Nat} {s : State} {x : Loom} (hx : Tab.get? s.looms n = some x) (hstart : loomStarts s n x = true)
    (hheat : (s.cluster (clusterOf x.core)).thermal < 2) :
    (x.added = true → ∃ t, exec (.loomCommandRetire n) s = .next t ∧ Tab.get? t.looms n = none)
    ∧ (∀ acc, x.op = .zero acc → ∃ t, exec (.loomCommandRetire n) s = .next t ∧ Tab.get? t.looms n = none
        ∧ ∀ i, i < 4096 → Sparse.get 0#32 (t.core x.core).acc (4096 * acc + i) = 0#32)
    ∧ (∀ acc row col vals, x.op = .write acc row col vals → ∃ t, exec (.loomCommandRetire n) s = .next t ∧ Tab.get? t.looms n = none
        ∧ ((vals.map (·.1)).Nodup → ∀ i v, (i, v) ∈ vals → Sparse.get 0#32 (t.core x.core).acc (4096 * acc + i) = v)
        ∧ ∀ i, (∀ v, (i, v) ∉ vals) → Sparse.get 0#32 (t.core x.core).acc (4096 * acc + i) = Sparse.get 0#32 (s.core x.core).acc (4096 * acc + i))
    ∧ (∀ b y row col, x.op = .loadb b y row col → ∃ t, exec (.loomCommandRetire n) s = .next t ∧ Tab.get? t.looms n = none
        ∧ Tab.get? (t.core (slotPlace x.core b).1).slots (slotPlace x.core b).2
          = some (loadSlot y row col (readPanel s (s.launch x.launch) x.core y row col 64) s.free))
    ∧ (∀ acc row col reg g, x.op = .read acc row col reg → pendingAdds s n x.core acc = [] → accPoison s x.core acc = [] → Tab.get? s.groups x.group = some g →
        ∃ t g', exec (.loomCommandRetire n) s = .next t ∧ Tab.get? t.looms n = none ∧ Tab.get? t.groups x.group = some g'
          ∧ ∀ l, x.lanes.has l = true → (g.thread l).live = true → l < g.threads.length → (g'.thread l).vreg reg
            = if col + l < 64 then (accWords s x.core acc).getD (64 * row + col + l) 0#32 else 0#32) := by
  refine ⟨fun hadded => ?_, fun acc hop => ?_, fun acc row col vals hop => ?_, fun b y row col hop => ?_, fun acc row col reg g hop hadds hpoison hg => ?_⟩
  · exact ⟨_, loomRetire_loop hx hstart hheat hadded, retireLoom_gone _ _ _⟩
  · refine ⟨_, loomRetire_zero hx hstart hheat hop, retireLoom_gone _ _ _, fun i hi => ?_⟩
    rw [(retireLoom_core _ _ _ _).1]
    exact setAcc_get x.core acc i s (List.getElem?_replicate_of_lt hi)
  · obtain ⟨t, ht, hacc⟩ := loomRetire_write hx hstart hheat hop
    refine ⟨_, ht, retireLoom_gone _ _ _, fun hone i v hv => ?_, fun i hi => ?_⟩
    · rw [(retireLoom_core _ _ _ _).1, hacc]; exact writeAcc_same _ hone hv
    · rw [(retireLoom_core _ _ _ _).1, hacc]; exact writeAcc_other _ hi
  · obtain ⟨t, ht, hslot⟩ := loomRetire_loadb hx hstart hheat hop
    exact ⟨_, ht, retireLoom_gone _ _ _, by rw [(retireLoom_core _ _ _ _).2]; exact hslot⟩
  · have hview := retireLoom_vregView x.group n x.core
      (s.modGroup x.group (fun g => (g.land (readWrites x.lanes row col reg (accWords s x.core acc))).rechoose))
    generalize ht : retireLoom n x.core _ = t at hview
    rw [vregView, vregView, State.modGroup_groups, Tab.get?_modify_self, hg] at hview
    obtain ⟨g', hg', hregs⟩ := Option.map_eq_some_iff.1 hview
    refine ⟨t, g', (loomRetire_read hx hstart hheat hop hadds hpoison).trans (congrArg _ ht), ht ▸ retireLoom_gone _ _ _, hg', fun l hl hlive _ => ?_⟩
    have hreg := congrFun (congrFun hregs l) reg
    exact hreg.trans (((sameRegs_rechoose _).vregs l reg).trans ((g.reg_land _ l (.v reg)).trans (landed_readWrites hl hlive)))

end Sys2Proof.Machine
end

section
/-! PROOF. The arbiter of a slot grants a step of the Loom (spec/16 R302, R307). -/

namespace Sys2Proof.Machine

open Says

/-! ### The step that the arbiter chooses (R302) -/

theorem Says.grantedFirst.before {a b : ReadyStep} (h : grantedFirst a b) : a.before b = true ∧ b.before a = false := by
  unfold ReadyStep.before
  rcases h with ⟨ha, hb⟩ | ⟨hage, hrest⟩
  · have hb' : ¬ 16 ≤ b.passed := Nat.not_le.2 hb
    simp [ha, hb']
  · have hsame : (decide (16 ≤ a.passed) != decide (16 ≤ b.passed)) = false := by simp [hage]
    have hsame' : (decide (16 ≤ b.passed) != decide (16 ≤ a.passed)) = false := by simp [hage]
    rw [hsame, hsame', if_neg Bool.false_ne_true, if_neg Bool.false_ne_true]
    rcases hrest with hprio | ⟨hprio, hcmd | ⟨hcmd, hk⟩⟩
    · rw [if_pos (Nat.ne_of_gt hprio), if_pos (Nat.ne_of_lt hprio)]
      simp [hprio, Nat.le_of_lt hprio]
    · rw [if_neg (not_not.2 hprio), if_neg (not_not.2 hprio.symm), if_pos (Nat.ne_of_lt hcmd), if_pos (Nat.ne_of_gt hcmd)]
      simp [hcmd, Nat.le_of_lt hcmd]
    · rw [if_neg (not_not.2 hprio), if_neg (not_not.2 hprio.symm), if_neg (not_not.2 hcmd), if_neg (not_not.2 hcmd.symm)]
      simp [hk, Nat.le_of_lt hk]

theorem nextStepOf_mem {l : List ReadyStep} {b : ReadyStep} (h : nextStepOf l = some b) : b ∈ l := by
  induction l generalizing b with
  | nil => cases h
  | cons y t ih =>
    rw [nextStepOf] at h
    split at h
    · next c hc =>
      split at h
      · cases h; exact List.mem_cons_of_mem y (ih hc)
      · cases h; exact List.mem_cons_self
    · cases h; exact List.mem_cons_self

/-- A step that comes before every other is the one that the arbiter grants. -/
theorem nextStepOf_eq {l : List ReadyStep} {a : ReadyStep} (ha : a ∈ l) (hfirst : ∀ o ∈ l, o = a ∨ (a.before o = true ∧ o.before a = false)) :
    nextStepOf l = some a := by
  induction l with
  | nil => cases ha
  | cons y t ih =>
    have hrest : ∀ o ∈ t, o = a ∨ (a.before o = true ∧ o.before a = false) := fun o ho => hfirst o (List.mem_cons_of_mem y ho)
    rw [nextStepOf]
    by_cases hat : a ∈ t
    · rw [ih hat hrest]
      rcases hfirst y List.mem_cons_self with rfl | ⟨hbefore, -⟩
      · exact ite_self _
      · exact if_pos hbefore
    · obtain rfl : a = y := (List.mem_cons.1 ha).resolve_right hat
      cases hnext : nextStepOf t with
      | none => rfl
      | some b =>
        have hb := nextStepOf_mem hnext
        rcases hrest b hb with rfl | ⟨-, hafter⟩
        · exact absurd hb hat
        · exact if_neg (by rw [hafter]; exact Bool.false_ne_true)

/-! ### The ready steps of a slot -/

/-- The tables of the Loom are tables: their keys rise. -/
def LoomsSorted (s : State) : Prop := Tab.sorted s.looms = true ∧ ∀ e ∈ s.looms, Tab.sorted e.2.fetched = true

/-- How many grants have passed over a step whose panel has been fetched. -/
def passedOver (s : State) (n k : Nat) : Option Nat := (Tab.get? s.looms n).bind (fun l => Tab.get? l.fetched k)

/-- A step that has its slot. -/
def grantOf (s : State) (n k : Nat) : Option LoomStep := (Tab.get? s.looms n).bind (fun l => Tab.get? l.granted k)

/-- What names a ready step. -/
def ReadyStep.key (o : ReadyStep) : Nat × Nat := (o.cmd, o.k)

theorem mem_readySteps {s : State} {place : Nat × Nat} {o : ReadyStep} (h : o ∈ readySteps s place) :
    ∃ e ∈ s.looms, ∃ f ∈ e.2.fetched, o = { cmd := e.1, k := f.1, passed := f.2, of := e.2 } := by
  obtain ⟨e, he, hin⟩ := List.mem_flatMap.1 h
  split at hin
  · obtain ⟨f, hf, hsome⟩ := List.mem_filterMap.1 hin
    split at hsome
    · exact ⟨e, he, f, hf, (Option.some.inj hsome).symm⟩
    · cases hsome
  · cases hin

theorem readySteps_get {s : State} (hs : LoomsSorted s) {place : Nat × Nat} {o : ReadyStep} (h : o ∈ readySteps s place) :
    Tab.get? s.looms o.cmd = some o.of ∧ Tab.get? o.of.fetched o.k = some o.passed := by
  obtain ⟨e, he, f, hf, rfl⟩ := mem_readySteps h
  exact ⟨Tab.get?_of_mem hs.1 he, Tab.get?_of_mem (hs.2 e he) hf⟩

theorem readySteps_eq_of_key {s : State} (hs : LoomsSorted s) {place : Nat × Nat} {o p : ReadyStep} (ho : o ∈ readySteps s place)
    (hp : p ∈ readySteps s place) (h : o.key = p.key) : o = p := by
  obtain ⟨hloom, hpassed⟩ := readySteps_get hs ho
  obtain ⟨hloom', hpassed'⟩ := readySteps_get hs hp
  obtain ⟨cmd, k, passed, of⟩ := o
  obtain ⟨cmd', k', passed', of'⟩ := p
  obtain ⟨rfl, rfl⟩ : cmd = cmd' ∧ k = k' := Prod.mk.inj h
  obtain rfl : of = of' := Option.some.inj (hloom.symm.trans hloom')
  obtain rfl : passed = passed' := Option.some.inj (hpassed.symm.trans hpassed')
  rfl

theorem Tab.nodup_of_sorted {α : Type} {t : Tab α} (h : Tab.sorted t = true) : t.Nodup :=
  List.Pairwise.imp (S := (· ≠ ·)) (fun hlt heq => Nat.ne_of_lt hlt (congrArg Prod.fst heq)) ((Tab.sorted_iff t).1 h)

/-- Each ready step is listed once. -/
theorem readySteps_nodup {s : State} (hs : LoomsSorted s) (place : Nat × Nat) : ((readySteps s place).map ReadyStep.key).Nodup := by
  refine List.Nodup.map_on (fun o ho p hp h => readySteps_eq_of_key hs ho hp h) ?_
  refine List.nodup_flatMap.2 ⟨fun e he => ?_, ((Tab.sorted_iff s.looms).1 hs.1).imp (fun {e e'} hlt => ?_)⟩
  · split
    · refine (Tab.nodup_of_sorted (hs.2 e he)).filterMap (fun f f' o ho ho' => ?_)
      simp only [Option.mem_def, Option.ite_none_right_eq_some, Option.some.injEq] at ho ho'
      exact Prod.ext ((congrArg ReadyStep.k ho.2).trans (congrArg ReadyStep.k ho'.2).symm)
        ((congrArg ReadyStep.passed ho.2).trans (congrArg ReadyStep.passed ho'.2).symm)
    · exact List.nodup_nil
  · have hcmd : ∀ {e : Nat × Loom} {o : ReadyStep}, o ∈ (if loomStarts s e.1 e.2 && shapeTurn s e.1 e.2 then
        e.2.fetched.filterMap (fun f => if e.2.placeOf f.1 = some place then
          some ({ cmd := e.1, k := f.1, passed := f.2, of := e.2 } : ReadyStep) else none) else []) → o.cmd = e.1 := by
      intro e o ho
      split at ho
      · obtain ⟨f, -, hf⟩ := List.mem_filterMap.1 ho
        split at hf
        · cases hf; rfl
        · cases hf
      · cases ho
    exact fun o ho ho' => Nat.ne_of_lt hlt ((hcmd ho).symm.trans (hcmd ho'))

/-! ### A grant (R302, R307) -/

theorem formStep_looms (s : State) (x : Loom) (slot : Nat) (t : Tensor) (row col k : Nat) : (formStep s x slot t row col k).2.2.looms = s.looms := by
  show (readSlot64 s x.core (slot + k)).2.2.looms = s.looms
  unfold readSlot64
  dsimp only
  split
  · split
    · split <;> rfl
    · rfl
  · rfl

theorem notePanel_looms (x : Loom) (t : Tensor) (row col cols : Nat) (s : State) : (notePanel x t row col cols s).looms = s.looms := by
  unfold notePanel
  dsimp only
  split <;> rfl

/-- One of the other ready steps is passed over. -/
def passOver (a : ReadyStep) (s : State) (o : ReadyStep) : State :=
  if o.cmd = a.cmd ∧ o.k = a.k then s else s.modLoom o.cmd (fun l => { l with fetched := Tab.modify l.fetched o.k (fun p => p + 1) })

theorem modLoom_bind {α : Type} (s : State) (n m : Nat) (f : Loom → Loom) (part : Loom → Option α) :
    (Tab.get? (s.modLoom n f).looms m).bind part = (Tab.get? s.looms m).bind (fun l => part (if m = n then f l else l)) := by
  show (Tab.get? (Tab.modify s.looms n f) m).bind part = _
  by_cases h : m = n
  · rw [h, Tab.get?_modify_self, Option.bind_map]
    simp only [if_true]
    rfl
  · rw [Tab.get?_modify_ne _ _ h]
    simp only [if_neg h]

theorem passOver_grantOf (a : ReadyStep) (s : State) (o : ReadyStep) (n k : Nat) : grantOf (passOver a s o) n k = grantOf s n k := by
  unfold passOver
  split
  · rfl
  · refine (modLoom_bind s o.cmd n _ _).trans ?_
    unfold grantOf
    congr 1
    funext l
    split <;> rfl

theorem passOver_other (a : ReadyStep) (s : State) {o : ReadyStep} {n k : Nat} (h : (n, k) = a.key ∨ o.key ≠ (n, k)) :
    passedOver (passOver a s o) n k = passedOver s n k := by
  unfold passOver
  split
  · rfl
  · next ho =>
    refine (modLoom_bind s o.cmd n _ _).trans ?_
    unfold passedOver
    congr 1
    funext l
    split
    · next hn =>
      refine Tab.get?_modify_ne _ _ (fun hk => ?_)
      rcases h with h | h
      · obtain ⟨hcmd, hkk⟩ := Prod.mk.inj h
        exact ho ⟨hn.symm.trans hcmd, hk.symm.trans hkk⟩
      · exact h (Prod.ext hn.symm hk.symm)
    · rfl

theorem passOver_same {a : ReadyStep} (s : State) {o : ReadyStep} (h : o.key ≠ a.key) :
    passedOver (passOver a s o) o.cmd o.k = (passedOver s o.cmd o.k).map (fun p => p + 1) := by
  unfold passOver
  rw [if_neg (fun hk => h (Prod.ext hk.1 hk.2))]
  refine (modLoom_bind s o.cmd o.cmd _ _).trans ?_
  unfold passedOver
  rw [Option.map_bind]
  congr 1
  funext l
  rw [if_pos rfl]
  exact Tab.get?_modify_self _ _ _

theorem passOver_foldl_other {a o : ReadyStep} (os : List ReadyStep) (s : State) (ho : o.key ∉ os.map ReadyStep.key) :
    passedOver (os.foldl (passOver a) s) o.cmd o.k = passedOver s o.cmd o.k := by
  induction os generalizing s with
  | nil => rfl
  | cons p t ih =>
    obtain ⟨hne, hnot⟩ := not_or.1 (fun h => ho (List.mem_cons.2 h))
    exact (ih _ hnot).trans (passOver_other a s (.inr (fun hc => hne hc.symm)))

/-- Every other ready step is passed over once. -/
theorem passOver_foldl {a o : ReadyStep} {os : List ReadyStep} (s : State) (hone : (os.map ReadyStep.key).Nodup) (ho : o ∈ os) (h : o.key ≠ a.key) :
    passedOver (os.foldl (passOver a) s) o.cmd o.k = (passedOver s o.cmd o.k).map (fun p => p + 1) := by
  induction os generalizing s with
  | nil => cases ho
  | cons p t ih =>
    obtain ⟨hfresh, hrest⟩ := List.nodup_cons.1 hone
    rw [List.foldl_cons]
    rcases List.mem_cons.1 ho with rfl | ht
    · exact (passOver_foldl_other t _ hfresh).trans (passOver_same s h)
    · rw [ih _ hrest ht]
      refine congrArg (Option.map _) (passOver_other a s (.inr (fun hc => hfresh ?_)))
      exact List.mem_map.2 ⟨o, ht, hc.symm⟩

/-- What a granted step and those that it passes over leave in the reservation table. -/
theorem grantStep_spec {s : State} (hs : LoomsSorted s) {place : Nat × Nat} {a : ReadyStep} (ha : a ∈ readySteps s place) {acc slot nk : Nat} {zero : Bool}
    {y : Tensor} {row col : Nat} (hop : a.of.op = .loop acc slot nk zero y row col) :
    grantOf (grantStep a (readySteps s place) s) a.cmd a.k = some (formStep s a.of slot y row col a.k).1
      ∧ passedOver (grantStep a (readySteps s place) s) a.cmd a.k = none
      ∧ ∀ o ∈ readySteps s place, o.key ≠ a.key → passedOver (grantStep a (readySteps s place) s) o.cmd o.k = some (o.passed + 1) := by
  let st := formStep s a.of slot y row col a.k
  let take := fun (l : Loom) => { l with granted := Tab.put l.granted a.k st.1, fetched := Tab.del l.fetched a.k }
  let read := recordPoison a.of.launch st.2.1 (notePanel a.of y row (col + 64 * a.k) 64 st.2.2)
  have hgrant : grantStep a (readySteps s place) s = (readySteps s place).foldl (passOver a) (read.modLoom a.cmd take) := by
    simp only [grantStep, hop]
    rfl
  have hlooms : read.looms = s.looms :=
    (looms_of_loomView (recordPoison_loomView _ _ _)).trans ((notePanel_looms _ _ _ _ _ _).trans (formStep_looms _ _ _ _ _ _ _))
  have hloom := (readySteps_get hs ha).1
  have hkeeps : grantOf ((readySteps s place).foldl (passOver a) (read.modLoom a.cmd take)) a.cmd a.k = grantOf (read.modLoom a.cmd take) a.cmd a.k :=
    foldl_keeps (fun u => grantOf u a.cmd a.k) (passOver a) (fun u o => passOver_grantOf a u o a.cmd a.k) (readySteps s place) _
  have hskips : passedOver ((readySteps s place).foldl (passOver a) (read.modLoom a.cmd take)) a.cmd a.k = passedOver (read.modLoom a.cmd take) a.cmd a.k :=
    foldl_keeps (fun u => passedOver u a.cmd a.k) (passOver a) (fun u o => passOver_other a u (.inl rfl)) (readySteps s place) _
  rw [hgrant]
  refine ⟨hkeeps.trans ?_, hskips.trans ?_, fun o ho hne => (passOver_foldl _ (readySteps_nodup hs place) ho hne).trans ?_⟩
  · refine (modLoom_bind read a.cmd a.cmd take _).trans ?_
    rw [hlooms, hloom, Option.bind_some, if_pos rfl]
    exact Tab.get?_put_self _ _ _
  · refine (modLoom_bind read a.cmd a.cmd take _).trans ?_
    rw [hlooms, hloom, Option.bind_some, if_pos rfl]
    exact Tab.get?_del_self _ _
  · obtain ⟨hloom', hpassed⟩ := readySteps_get hs ho
    have hwas : passedOver (read.modLoom a.cmd take) o.cmd o.k = some o.passed := by
      refine (modLoom_bind read a.cmd o.cmd take _).trans ?_
      rw [hlooms, hloom', Option.bind_some]
      split
      · next hcmd => exact (Tab.get?_del_ne _ (fun hk => hne (Prod.ext hcmd hk))).trans hpassed
      · exact hpassed
    rw [hwas]
    rfl

/-! ### LOOM_STEP_GRANT -/

/-- The panel of a step counts as fetched (R302). -/
def panelFetched (n k : Nat) (x : Loom) (s : State) : State :=
  if (Tab.get? x.fetched k).isSome then s else s.modLoom n (fun l => { l with fetched := Tab.put l.fetched k 0 })

theorem panelFetched_sorted {s : State} (n k : Nat) (x : Loom) (hs : LoomsSorted s) : LoomsSorted (panelFetched n k x s) := by
  unfold panelFetched
  split
  · exact hs
  · refine ⟨Tab.sorted_modify _ _ hs.1, fun e he => ?_⟩
    change e ∈ Tab.modify s.looms n _ at he
    unfold Tab.modify at he
    split at he
    · next l hl =>
      rcases Tab.mem_put he with rfl | hin
      · exact Tab.sorted_put k 0 (hs.2 _ (Tab.mem_of_get? hl))
      · exact hs.2 e hin
    · exact hs.2 e he

theorem panelFetched_slotTaken {n : Nat} {s : State} {x : Loom} (k core b : Nat) (hx : Tab.get? s.looms n = some x) :
    slotTaken (panelFetched n k x s) core b = slotTaken s core b := by
  unfold panelFetched
  split
  · rfl
  · show List.any (Tab.modify s.looms n _) _ = _
    rw [Tab.modify, hx]
    exact Tab.any_put _ hx rfl

theorem exec_loomStepGrant {n k acc slot nk : Nat} {zero : Bool} {y : Tensor} {row col : Nat} {s : State} {x : Loom} (hx : Tab.get? s.looms n = some x)
    (hop : x.op = .loop acc slot nk zero y row col) (hk : k < nk) (hnext : x.nextStep ≤ k) (hgranted : Tab.get? x.granted k = none)
    (hstart : loomStarts s n x = true) (hruns : loomRuns s x.core = true) :
    exec (.loomStepGrant n k) s = .next (if slotTaken (panelFetched n k x s) x.core (slot + k) then panelFetched n k x s else
      match nextStepOf (readySteps (panelFetched n k x s) (slotPlace x.core (slot + k))) with
      | some a => grantStep a (readySteps (panelFetched n k x s) (slotPlace x.core (slot + k))) (panelFetched n k x s)
      | none => panelFetched n k x s) := by
  have hnone : x.granted.any (fun g => g.1 == k) = false :=
    List.any_eq_false.2 fun e he => by simpa using Tab.get?_none_iff.1 hgranted e he
  have hgo : ¬ (nk ≤ k ∨ ((decide (k < x.nextStep) || x.granted.any (fun g => g.1 == k)) || !loomStarts s n x || !loomRuns s x.core) = true) := by
    simp [hnone, hstart, hruns, hk, hnext]
  show execLoomStepGrant n k s = _
  simp only [execLoomStepGrant, hx, hop, if_neg hgo]
  rfl

section
variable {n k acc slot nk : Nat} {zero : Bool} {y : Tensor} {row col : Nat} {s : State} {x : Loom} (hx : Tab.get? s.looms n = some x)
  (hop : x.op = .loop acc slot nk zero y row col) (hk : k < nk) (hnext : x.nextStep ≤ k) (hgranted : Tab.get? x.granted k = none)
  (hstart : loomStarts s n x = true) (hruns : loomRuns s x.core = true)
include hx hop hk hnext hgranted hstart hruns

theorem loomStepGrant_waits (htaken : slotTaken s x.core (slot + k) = true) : exec (.loomStepGrant n k) s = .next (panelFetched n k x s) := by
  rw [exec_loomStepGrant hx hop hk hnext hgranted hstart hruns, panelFetched_slotTaken k _ _ hx, if_pos htaken]

theorem loomStepGrant_grants (hfree : slotTaken s x.core (slot + k) = false) (hs : LoomsSorted s) {a : ReadyStep} {acc' slot' nk' : Nat} {zero' : Bool}
    {y' : Tensor} {row' col' : Nat} (ha : a ∈ readySteps (panelFetched n k x s) (slotPlace x.core (slot + k)))
    (hfirst : ∀ o ∈ readySteps (panelFetched n k x s) (slotPlace x.core (slot + k)), (o.cmd ≠ a.cmd ∨ o.k ≠ a.k) → grantedFirst a o)
    (hop' : a.of.op = .loop acc' slot' nk' zero' y' row' col') :
    ∃ t z, exec (.loomStepGrant n k) s = .next t ∧ Tab.get? t.looms a.cmd = some z
      ∧ Tab.get? z.granted a.k = some (formStep (panelFetched n k x s) a.of slot' y' row' col' a.k).1 ∧ Tab.get? z.fetched a.k = none
      ∧ ∀ o ∈ readySteps (panelFetched n k x s) (slotPlace x.core (slot + k)), (o.cmd ≠ a.cmd ∨ o.k ≠ a.k) →
        ∃ z', Tab.get? t.looms o.cmd = some z' ∧ Tab.get? z'.fetched o.k = some (o.passed + 1) := by
  have hs1 := panelFetched_sorted n k x hs
  have hchosen : nextStepOf (readySteps (panelFetched n k x s) (slotPlace x.core (slot + k))) = some a :=
    nextStepOf_eq ha fun o ho => by
      by_cases hkey : o.key = a.key
      · exact .inl (readySteps_eq_of_key hs1 ho ha hkey)
      · refine .inr (hfirst o ho ?_).before
        by_contra hc
        obtain ⟨hcmd, hk⟩ := not_or.1 hc
        exact hkey (Prod.ext (not_not.1 hcmd) (not_not.1 hk))
  obtain ⟨hgrant, hpassed, hothers⟩ := grantStep_spec hs1 ha hop'
  obtain ⟨z, hz, hzgrant⟩ := Option.bind_eq_some_iff.1 hgrant
  refine ⟨_, z, ?_, hz, hzgrant, ?_, fun o ho hne => ?_⟩
  · rw [exec_loomStepGrant hx hop hk hnext hgranted hstart hruns, panelFetched_slotTaken k _ _ hx, if_neg (by simp [hfree]), hchosen]
  · rw [passedOver, hz] at hpassed; exact hpassed
  · refine Option.bind_eq_some_iff.1 (hothers o ho fun hkey => ?_)
    obtain ⟨hcmd, hk⟩ := Prod.mk.inj hkey
    exact hne.elim (· hcmd) (· hk)

end

/-- Settles O49, one lemma for each step of a carter and of the Loom. -/
theorem cartersAndLoomsWork : Obligations.CartersAndLoomsWork := by
  unfold Obligations.CartersAndLoomsWork
  refine ⟨fun n k s c => carterStart_starts, fun n i s c a b => performWord_performs, fun n k s c u => carterPayloadComplete_spec,
    fun n k s c => carterCompletionWord_writes, fun n k gid id j dest s c g b e any => carterCompletionWord_wakes, fun n k s c va => carterPoison_freezes,
    fun n k acc slot nk zero y row col s x hx hop hk hnext hgranted hstart hruns => ⟨?_, ?_⟩,
    fun n acc slot nk zero y row col s x st => loomStepRetire_adds, fun n s x => loomCommandRetire_retires⟩
  · exact loomStepGrant_waits hx hop hk hnext hgranted hstart hruns
  · intro hfree hlooms hfetched a acc' slot' nk' zero' y' row' col' ha hfirst hop'
    exact loomStepGrant_grants hx hop hk hnext hgranted hstart hruns hfree ⟨hlooms, hfetched⟩ ha hfirst hop'

end Sys2Proof.Machine
end

section
/-! PROOF. The state right after reset (spec/10 R227, spec/12 R247, R263, spec/18 R333, R357, spec/20 R368 to R376, spec/22 R377, R391). -/

namespace Sys2Proof.Machine

/-! ### No table of the state lists anything, so that every register reads as its reset column says -/

@[simp] theorem State.reset_core (c : Nat) : State.reset.core c = Core.reset := rfl
@[simp] theorem State.reset_cluster (c : Nat) : State.reset.cluster c = Cluster.reset := rfl
@[simp] theorem State.reset_die (d : Nat) : State.reset.die d = Die.reset := rfl
@[simp] theorem State.reset_queue (q : Nat) : State.reset.queue q = Queue.reset := rfl

/-- The registers of a die's page after reset (R247, R263, R374, R376). -/
theorem readDie_reset (d : Nat) : readDie State.reset d 0x000 = 0x04040404#64 ∧ readDie State.reset d 0x020 = 0#64 ∧ readDie State.reset d 0x028 = 0#64
    ∧ readDie State.reset d 0x0C0 = 0#64 ∧ readDie State.reset d 0x0C8 = 0#64 ∧ readDie State.reset d 0x0D0 = 0x000FFC00#64
    ∧ readDie State.reset d 0x0D8 = 0#64 := by
  simp [readDie, Die.reset]

/-- The four comparators of each kind of a core after reset (R227). -/
theorem comparators_reset (c : Nat) {k : Nat} (hk : k < 4) :
    (State.reset.core c).pcs[k]? = some Comparator.zero ∧ (State.reset.core c).datas[k]? = some Comparator.zero :=
  ⟨List.getElem?_replicate_of_lt hk, List.getElem?_replicate_of_lt hk⟩

/-- Settles O60: memory and the tables are empty, and each register holds the value of its reset column. -/
theorem resetState : Obligations.ResetState := by
  refine ⟨rfl, rfl, rfl, rfl, rfl, rfl, rfl, rfl, rfl, rfl, rfl, rfl, rfl, rfl, rfl, rfl, readDie_reset, fun c => ?_, fun q => ?_, fun c k => comparators_reset c⟩
  · rw [State.reset_cluster]; exact ⟨rfl, rfl, rfl, rfl, rfl, rfl, rfl, rfl, rfl, rfl⟩
  · rw [State.reset_queue]; exact ⟨rfl, rfl, rfl⟩

end Sys2Proof.Machine
end

section
/-! PROOF. Writes of whole registers in the on-chip aperture (spec/10 R227, R228, spec/12 R248 to R250, R260, spec/20 R366, spec/22 R377, R384, R390): the
unit that an aligned write of at most eight bytes names, where it lies, and what it leaves in a register. -/

namespace Sys2Proof.Machine

open Says

/-! ### The unit that a write names, its mask and its value (R250) -/

theorem leNat_eq_sum (bs : List Byte) : leNat bs = ((List.range bs.length).map (fun i => (bs.getD i 0#8).toNat * 256 ^ i)).sum := by
  induction bs with
  | nil => rfl
  | cons b t ih =>
    rw [leNat, ih, List.length_cons, List.range_succ_eq_map, List.map_cons, List.sum_cons, List.map_map, ← List.sum_map_mul_left]
    congr 1
    · simp
    · exact congrArg List.sum (List.map_congr_left fun i _ => by simp [pow_succ]; ring)

theorem sum_range_two_pow (n : Nat) : ((List.range n).map (fun i => 2 ^ i)).sum = 2 ^ n - 1 := by
  induction n with
  | zero => rfl
  | succ n ih =>
    have hpos := Nat.two_pow_pos n
    rw [List.range_succ, List.map_append, List.sum_append, ih, List.map_singleton, List.sum_singleton, pow_succ]
    omega

/-- Of the places of a unit, those of `n` bytes from its first. -/
theorem filter_range_bytes {n : Nat} (h : n ≤ 8) (pa : Nat) :
    (List.range 8).filter (fun i => decide (pa ≤ pa + i) && decide (pa + i < pa + n)) = List.range n := by
  obtain ⟨k, hk⟩ := Nat.exists_eq_add_of_le h
  rw [hk, List.range_add, List.filter_append, List.filter_eq_self.2 (by simp), List.filter_eq_nil_iff.2 (by simp), List.append_nil]

/-- Bytes from an aligned address, at most eight, are one unit: they are its low bytes. -/
theorem writeUnits_of_aligned {redo : Nat → State → State} {who : Agent} {src : Option Nat} {pa : Nat} {bs : List Byte} (ha : pa % 8 = 0)
    (h0 : 0 < bs.length) (h8 : bs.length ≤ 8) (s : State) :
    writeUnits redo who src pa bs s = (if who = .smithy then id else clearPoison pa bs.length)
      (writeUnit redo who src pa (2 ^ bs.length - 1) (BitVec.ofNat 64 (leNat bs)) s) := by
  have hone : (pa % 8 + bs.length + 7) / 8 = 1 := by omega
  have hunit : pa - pa % 8 + 8 * 0 = pa := by omega
  have hval : (List.range bs.length).map (fun i => (bs.getD (pa + i - pa) 0#8).toNat * 256 ^ i)
      = (List.range bs.length).map (fun i => (bs.getD i 0#8).toNat * 256 ^ i) := List.map_congr_left fun i _ => by rw [Nat.add_sub_cancel_left]
  unfold writeUnits
  rw [hone, List.range_one, List.foldl_cons, List.foldl_nil]
  dsimp only
  rw [hunit, filter_range_bytes h8, sum_range_two_pow, hval, ← leNat_eq_sum]

/-- A unit that is written whole holds what was written. -/
theorem merge_whole (old v : DWord) : merge old 255 v = v := by
  rw [merge, show byteMask 255 = BitVec.allOnes 64 by decide, BitVec.and_allOnes, BitVec.not_allOnes, BitVec.and_zero, BitVec.zero_or]

/-- A unit whose low half is written holds it there. -/
theorem loW_merge_low (old v : DWord) : loW (merge old 15 v) = loW v := by
  rw [merge, show byteMask 15 = (0#32 ++ BitVec.allOnes 32) by decide, loW, loW, BitVec.extractLsb'_or, BitVec.extractLsb'_and, BitVec.extractLsb'_and,
    show (~~~(0#32 ++ BitVec.allOnes 32)).extractLsb' 0 32 = 0#32 by decide, show (0#32 ++ BitVec.allOnes 32).extractLsb' 0 32 = BitVec.allOnes 32 by decide,
    BitVec.and_zero, BitVec.and_allOnes, BitVec.zero_or]

theorem loW_ofNat_toNat (v : Word) : loW (BitVec.ofNat 64 v.toNat) = v := by
  rw [loW, BitVec.ofNat_toNat, BitVec.extractLsb'_setWidth_of_le (by decide), BitVec.extractLsb'_eq_self]

theorem extractLsb'_eq_ofNat_bitsAt {n : Nat} (x : BitVec n) (lo w : Nat) : x.extractLsb' lo w = BitVec.ofNat w (bitsAt x lo w) := by
  rw [bitsAt, BitVec.ofNat_toNat, BitVec.setWidth_eq]

/-! ### Where a write lies, and who reaches it (R248, R250, R366) -/

theorem onchipAt_window {core off : Nat} (hc : core < 768) (ho : off < 0x100000) : onchipAt (2 ^ 47 + 0x100000 * core + off) = .window core off := by
  have ha : 2 ^ 47 + 0x100000 * core + off - 2 ^ 47 = 0x100000 * core + off := by omega
  have hlt : 0x100000 * core + off < 768 * 0x100000 := by omega
  have hcore : (0x100000 * core + off) / 0x100000 = core := by omega
  have hoff : (0x100000 * core + off) % 0x100000 = off := by omega
  simp only [onchipAt, ha, if_pos hlt, hcore, hoff]

theorem onchipAt_page {d off : Nat} (hd : d < 4) (ho : off < 0x10000) : onchipAt (2 ^ 47 + 0x40000000 + 0x10000 * d + off) = .page d off := by
  have ha : 2 ^ 47 + 0x40000000 + 0x10000 * d + off - 2 ^ 47 = 0x40000000 + 0x10000 * d + off := by omega
  have hge : ¬ 0x40000000 + 0x10000 * d + off < 768 * 0x100000 := by omega
  have hin : 0x40000000 ≤ 0x40000000 + 0x10000 * d + off ∧ 0x40000000 + 0x10000 * d + off < 0x40000000 + 4 * 0x10000 := by omega
  have hdie : (0x40000000 + 0x10000 * d + off - 0x40000000) / 0x10000 = d := by omega
  have hoff : (0x40000000 + 0x10000 * d + off) % 0x10000 = off := by omega
  simp only [onchipAt, ha, if_neg hge, if_pos hin, hdie, hoff]

/-! The two functions below are unfolded as functions: where `onchipAt pa` stood in the goal as they unfold, the kernel would evaluate `pa - 2 ^ 47` by
counting. -/

section
variable {redo : Nat → State → State} {who : Agent} {src : Option Nat} {pa core d off : Nat} (mask : Nat) (v : DWord) (s : State)

theorem writeUnit_window (h : onchipAt pa = .window core off) :
    writeUnit redo who src pa mask v s = if who = .smithy then s else writeWindow core off mask v s := by
  rw [show writeUnit = _ by delta writeUnit; exact rfl, h]

theorem writeUnit_page (h : onchipAt pa = .page d off) :
    writeUnit redo who src pa mask v s = if who = .smithy ∧ !powerRegister off then s else writeDie redo who src d off mask v s := by
  rw [show writeUnit = _ by delta writeUnit; exact rfl, h]

theorem writeUnit_rz (h : onchipAt pa = .rz) : writeUnit redo who src pa mask v s = s := by
  rw [show writeUnit = _ by delta writeUnit; exact rfl, h]

/-- The Smithy writes clock and power registers alone (R366). -/
theorem writeUnit_smithy (h : ∀ d off, onchipAt pa = .page d off → powerRegister off = false) : writeUnit redo .smithy src pa mask v s = s := by
  cases hp : onchipAt pa with
  | window c off => rw [writeUnit_window mask v s hp, if_pos rfl]
  | page d off => rw [writeUnit_page mask v s hp, if_pos ⟨rfl, by rw [h d off hp]; rfl⟩]
  | rz => exact writeUnit_rz mask v s hp

end

theorem hostReaches_onchip {s : State} {pa : Nat} (hap : aperture pa = 2) (hs : s.boot.stage = 3) : hostReaches s pa = true := by
  rw [show hostReaches = _ by delta hostReaches; exact rfl, hap, hs]
  exact Bool.true_or _

/-- A write of an aligned register, or of its low bytes, by one that reaches it. -/
theorem exec_registerWrite {who : Agent} {pa n v : Nat} {s : State} (hap : aperture pa = 2) (hs : who = .host → s.boot.stage = 3)
    (ha : pa % 8 = 0) (h0 : 0 < n) (h8 : n ≤ 8) (hv : v < 256 ^ n) :
    exec (.registerWrite who pa (leBytes n v)) s = .next ((if who = .smithy then id else clearPoison pa n)
      (writeUnit redoWalk who none pa (2 ^ n - 1) (BitVec.ofNat 64 v) s)) := by
  have hreach : who ≠ .host ∨ hostReaches s pa = true := by
    by_cases hw : who = .host
    · exact .inr (hostReaches_onchip hap (hs hw))
    · exact .inl hw
  show execRegisterWrite who pa (leBytes n v) s = _
  rw [execRegisterWrite, if_pos ⟨hap, hreach⟩, writeOnchip, writeUnits_of_aligned ha (by simpa using h0) (by simpa using h8), leBytes_length, leNat_leBytes,
    Nat.mod_eq_of_lt hv]

/-! ### Registers of a die's page (R260, R262, R377, R384, R390) -/

/-- `dieRegister` speaks of seven registers. -/
theorem dieRegister_offset {off d : Nat} {v : DWord} {s u : State} (h : dieRegister off d v s = some u) :
    off ∈ [0x008, 0x010, 0x018, 0x120, 0x128, 0x100, 0x108] := by
  unfold dieRegister at h
  split at h
  case h_8 => cases h
  all_goals simp

section
variable {redo : Nat → State → State} {src : Option Nat} (v : DWord) (s : State)

theorem writeDieZero_mode : writeDieZero redo src 0x100 255 v v s = { s with mode := BitVec.ofNat 5 (bitsAt v 0 5) } := by
  rw [← extractLsb'_eq_ofNat_bitsAt]; rfl

theorem writeDieZero_weft : writeDieZero redo src 0x108 255 v v s = { s with weftSelf := bitsAt v 0 7, weftSize := bitsAt v 8 7 + 1 } := rfl

end

/-- A whole write of a register that a write only sets. -/
theorem writeDie_dieRegister {redo : Nat → State → State} {who : Agent} {src : Option Nat} {off d : Nat} {v : DWord} {s u : State}
    (h : dieRegister off d v s = some u) : writeDie redo who src d off 255 v s = u := by
  unfold dieRegister at h
  split at h
  case h_8 => cases h
  all_goals
    cases h
    simp [writeDie, merge_whole, writeDieZero_mode, writeDieZero_weft]

/-! ### Registers of a core's window (R227, R228, R390) -/

/-- `windowRegister` speaks of whole registers of the debug page and of the counters. -/
theorem windowRegister_offset {off : Nat} {v : DWord} {f : Core → Core} (h : windowRegister off v = some f) : off % 8 = 0 ∧ off < 0x100000 := by
  unfold windowRegister at h
  dsimp only at h
  split at h
  case isTrue hpc =>
    split at h
    case h_4 => cases h
    all_goals omega
  case isFalse =>
    split at h
    case isTrue hdata =>
      split at h
      case h_5 => cases h
      all_goals omega
    case isFalse =>
      split at h
      case h_6 => cases h
      all_goals exact ⟨rfl, by omega⟩

section
variable (core off mask : Nat) (v : DWord) (s : State)

theorem writeWindow_debug (h : 0x43000 ≤ off ∧ off < 0x44000) : writeWindow core off mask v s = writeDebug core (off - 0x43000) mask v s := by
  rw [writeWindow, if_neg (by omega), if_neg (by omega), if_pos h]

theorem writeWindow_counter (h : 0x44000 ≤ off ∧ off < 0x45000) :
    writeWindow core off mask v s = s.modCore core (writeCounter (off - 0x44000) (merge (readWindow s core off) mask v)) := by
  rw [writeWindow, if_neg (by omega), if_neg (by omega), if_neg (by omega), if_pos h]

end

/-- CTRL of a comparator has eight bits (R227). -/
theorem loW_and_ctrl (v : DWord) : loW v &&& 0xFF#32 = BitVec.ofNat 32 (bitsAt v 0 8) := by
  apply BitVec.eq_of_toNat_eq
  rw [BitVec.toNat_and, show (0xFF#32).toNat = 2 ^ 8 - 1 from rfl, Nat.and_two_pow_sub_one_eq_mod]
  simp only [loW, bitsAt, BitVec.extractLsb'_toNat, BitVec.toNat_ofNat, Nat.shiftRight_zero]
  omega

/-- A whole write of a counter or a comparator. -/
theorem writeWindow_windowRegister {core off : Nat} {v : DWord} {f : Core → Core} (s : State) (h : windowRegister off v = some f) :
    writeWindow core off 255 v s = s.modCore core f := by
  unfold windowRegister at h
  dsimp only at h
  split at h
  case isTrue hpc =>
    have hplace : (off - 0x43000 - 0x100) / 0x20 = (off - 0x43100) / 0x20 := by omega
    have hreg : (off - 0x43000) % 0x20 = off % 0x20 := by omega
    rw [writeWindow_debug _ _ _ _ _ (by omega), writeDebug, if_pos (by omega), hplace, hreg, merge_whole]
    split at h
    case h_4 => cases h
    all_goals
      cases h
      simp only [*, loW_and_ctrl]
  case isFalse =>
    split at h
    case isTrue hdata =>
      have hplace : (off - 0x43000 - 0x200) / 0x20 = (off - 0x43200) / 0x20 := by omega
      have hreg : (off - 0x43000) % 0x20 = off % 0x20 := by omega
      rw [writeWindow_debug _ _ _ _ _ (by omega), writeDebug, if_neg (by omega), if_pos (by omega), hplace, hreg, merge_whole]
      split at h
      case h_5 => cases h
      all_goals
        cases h
        simp only [*, loW_and_ctrl]
    case isFalse =>
      split at h
      case h_6 => cases h
      all_goals
        cases h
        rw [writeWindow_counter _ _ _ _ _ (by omega), merge_whole]
        rfl

/-- A write of GCTL alone (R228). -/
theorem writeWindow_gctl {core slot : Nat} (hslot : slot < 16) (v : Word) (s : State) :
    writeWindow core (0x43400 + 0x20 * slot) 15 (BitVec.ofNat 64 v.toNat) s = writeGctl core slot v s := by
  have hoff : 0x43400 + 0x20 * slot - 0x43000 = 0x400 + 0x20 * slot := by omega
  have hplace : (0x400 + 0x20 * slot - 0x400) / 0x20 = slot := by omega
  rw [writeWindow_debug _ _ _ _ _ (by omega), hoff, writeDebug, if_neg (by omega), if_neg (by omega), if_pos (by omega), hplace, loW_merge_low,
    loW_ofNat_toNat]
  rfl

/-! ### REGISTER_WRITE (R250, R366, R377) -/

theorem registerWrite_dieRegister {who : Agent} {d off : Nat} {v : DWord} {s u : State} (hwho : who ≠ .smithy) (hd : d < 4) (hs : s.boot.stage = 3)
    (h : dieRegister off d v s = some u) :
    exec (.registerWrite who (2 ^ 47 + 0x40000000 + 0x10000 * d + off) (leBytes 8 v.toNat)) s
      = .next (clearPoison (2 ^ 47 + 0x40000000 + 0x10000 * d + off) 8 u) := by
  obtain ⟨h8, ho⟩ : off % 8 = 0 ∧ off < 0x10000 :=
    (show ∀ n ∈ [0x008, 0x010, 0x018, 0x120, 0x128, 0x100, 0x108], n % 8 = 0 ∧ n < 0x10000 by decide) off (dieRegister_offset h)
  rw [exec_registerWrite (by unfold aperture; omega) (fun _ => hs) (by omega) (by decide) (by decide) v.isLt, if_neg hwho,
    writeUnit_page _ _ _ (onchipAt_page hd ho), if_neg (fun hc => hwho hc.1), BitVec.ofNat_toNat, BitVec.setWidth_eq, show 2 ^ 8 - 1 = 255 from rfl,
    writeDie_dieRegister h]

theorem registerWrite_windowRegister {who : Agent} {core off : Nat} {v : DWord} {f : Core → Core} {s : State} (hwho : who ≠ .smithy) (hc : core < 768)
    (hs : s.boot.stage = 3) (h : windowRegister off v = some f) :
    exec (.registerWrite who (2 ^ 47 + 0x100000 * core + off) (leBytes 8 v.toNat)) s
      = .next (clearPoison (2 ^ 47 + 0x100000 * core + off) 8 (s.modCore core f)) := by
  obtain ⟨h8, ho⟩ := windowRegister_offset h
  rw [exec_registerWrite (by unfold aperture; omega) (fun _ => hs) (by omega) (by decide) (by decide) v.isLt, if_neg hwho,
    writeUnit_window _ _ _ (onchipAt_window hc ho), if_neg hwho, BitVec.ofNat_toNat, BitVec.setWidth_eq, show 2 ^ 8 - 1 = 255 from rfl,
    writeWindow_windowRegister s h]

theorem registerWrite_gctl {who : Agent} {core slot : Nat} (v : Word) {s : State} (hwho : who ≠ .smithy) (hc : core < 768) (hslot : slot < 16)
    (hs : s.boot.stage = 3) :
    exec (.registerWrite who (2 ^ 47 + 0x100000 * core + 0x43400 + 0x20 * slot) (leBytes 4 v.toNat)) s
      = .next (clearPoison (2 ^ 47 + 0x100000 * core + 0x43400 + 0x20 * slot) 4 (writeGctl core slot v s)) := by
  have hplace : onchipAt (2 ^ 47 + 0x100000 * core + 0x43400 + 0x20 * slot) = .window core (0x43400 + 0x20 * slot) := by
    rw [Nat.add_assoc _ 0x43400]; exact onchipAt_window hc (by omega)
  rw [exec_registerWrite (by unfold aperture; omega) (fun _ => hs) (by omega) (by decide) (by decide) v.isLt, if_neg hwho,
    writeUnit_window _ _ _ hplace, if_neg hwho, show 2 ^ 4 - 1 = 15 from rfl, writeWindow_gctl hslot]

theorem registerWrite_smithy {pa : Nat} (v : DWord) (s : State) (ha : pa % 8 = 0) (hlo : 2 ^ 47 ≤ pa)
    (hp : pa < 2 ^ 47 + 768 * 0x100000 ∨ ∃ d off, d < 4 ∧ off < 0x10000 ∧ pa = 2 ^ 47 + 0x40000000 + 0x10000 * d + off ∧ (off < 0x4000 ∨ 0x4600 ≤ off)
      ∧ (off < 0x0C0 ∨ 0x0E0 ≤ off)) : exec (.registerWrite .smithy pa (leBytes 8 v.toNat)) s = .next s := by
  have hpower : ∀ d off, onchipAt pa = .page d off → powerRegister off = false := by
    intro d off h
    rcases hp with hp | ⟨d', off', hd, ho, rfl, hclk, hpow⟩
    · have hplace := onchipAt_window (core := (pa - 2 ^ 47) / 0x100000) (off := (pa - 2 ^ 47) % 0x100000) (by omega) (by omega)
      rw [show 2 ^ 47 + 0x100000 * ((pa - 2 ^ 47) / 0x100000) + (pa - 2 ^ 47) % 0x100000 = pa by omega, h] at hplace
      cases hplace
    · rw [onchipAt_page hd ho] at h
      cases h
      simp only [powerRegister, Bool.or_eq_false_iff, Bool.and_eq_false_iff, decide_eq_false_iff_not]
      omega
  have hap : aperture pa = 2 := by unfold aperture; rcases hp with hp | ⟨d', off', hd, ho, rfl, -⟩ <;> omega
  rw [exec_registerWrite (who := .smithy) hap nofun ha (by decide) (by decide) v.isLt, if_pos rfl, writeUnit_smithy _ _ _ hpower, id]

end Sys2Proof.Machine
end

section
/-! PROOF. What the kill of a launch leaves (spec/18 R357): the end of a group changes no other group's launch, and of a launch only what its threads have
read and its digests. -/

namespace Sys2Proof.Machine

/-! ### The launch of a group that stays -/

/-- The launch of a group that has not ended. -/
def launchOf (n : Nat) (s : State) : Option Nat := (Tab.get? s.groups n).map (fun g => g.launch)

theorem launchOf_of_groups {n : Nat} {s t : State} (h : t.groups = s.groups) : launchOf n t = launchOf n s := by unfold launchOf; rw [h]

theorem modGroup_launchOf (n gid : Nat) (s : State) {f : Group → Group} (hf : ∀ g, (f g).launch = g.launch) : launchOf n (s.modGroup gid f) = launchOf n s := by
  unfold launchOf
  rw [State.modGroup_groups]
  by_cases h : n = gid
  · rw [h, Tab.get?_modify_self, Option.map_map]
    exact congrArg (Option.map · _) (funext hf)
  · rw [Tab.get?_modify_ne _ _ h]

theorem finishWait_launchOf (n gid id : Nat) (r : Word) (s : State) : launchOf n (finishWait gid id r s) = launchOf n s := by
  have hreads : ∀ core lanes es (u : State), launchOf n (waitReads gid core lanes es u) = launchOf n u := by
    intro core lanes es u
    unfold waitReads
    dsimp only
    split
    · rfl
    · exact (launchOf_of_groups (foldl_dropAll_groups core _ _)).trans (modGroup_launchOf n gid u (fun _ => rfl))
  unfold finishWait
  split
  · rfl
  split
  · rfl
  split
  · split
    · exact modGroup_launchOf n gid s (fun _ => rfl)
    · refine (hreads _ _ _ _).trans ((modGroup_launchOf n gid _ (fun g => Group.waitOver_launch)).trans ?_)
      exact launchOf_of_groups (foldl_freeWatch_groups _ _ s)
  · rfl

theorem retryWait_launchOf (n gid id : Nat) (s : State) : launchOf n ((retryWait gid id s).getD s) = launchOf n s := by
  unfold retryWait
  split
  · rfl
  split
  · split
    · exact finishWait_launchOf n gid id _ s
    · rfl
  · rfl

theorem discardDeferred_launchOf (n team : Nat) (s : State) : launchOf n (discardDeferred team s) = launchOf n s := by
  refine (foldl_keeps (launchOf n) _ (fun s (w : Nat × Nat) => retryWait_launchOf n w.1 w.2 s) _ _).trans (launchOf_of_groups (foldl_keeps State.groups _ (fun u e => ?_) _ s))
  split <;> rfl

theorem abortTx_launchOf (n team : Nat) (s : State) : launchOf n (abortTx team s) = launchOf n s := by
  unfold abortTx
  split
  · rfl
  · exact (discardDeferred_launchOf n team _).trans (launchOf_of_groups (restoreShadows_groups _ s))

theorem endTeam_launchOf (n team : Nat) (froze : Bool) (s : State) : launchOf n (endTeam team froze s) = launchOf n s := by
  refine (launchOf_of_groups ?_).trans (abortTx_launchOf n team s)
  unfold endTeam
  dsimp only
  rw [releaseCore_groups]
  split
  · rw [releaseCore_groups]; split <;> rfl
  · split <;> rfl

/-- What the end of a transaction, of a task and of the hold of a core keep, stays as a group ends. -/
theorem endWith_keeps {γ : Type} (part : State → γ) (g : Group) (habort : ∀ s, part (abortTx g.team s) = part s)
    (hend : ∀ s, part (endTeam g.team g.frozen s) = part s) (hrelease : ∀ s, part (releaseCore g.launch g.core s) = part s) (s : State) :
    part (endWith g s) = part s := by
  have h : part (if g.gid = 0 then abortTx g.team s else s) = part s := by
    split
    · exact habort s
    · rfl
  unfold endWith
  generalize (if g.gid = 0 then abortTx g.team s else s) = s1 at h ⊢
  dsimp only
  split
  · exact (hend s1).trans h
  · exact (hrelease s1).trans h

/-- Of the groups only the one that ends goes, and the others stay with their launches. -/
theorem removeGroup_launchOf {n gid : Nat} (hn : n ≠ gid) (s : State) : launchOf n (removeGroup gid s) = launchOf n s := by
  cases h : Tab.get? s.groups gid with
  | none => unfold removeGroup; rw [h]
  | some g =>
    rw [removeGroup_of_some h, endWith_keeps (launchOf n) g (abortTx_launchOf n _) (endTeam_launchOf n _ _) (fun u => launchOf_of_groups (releaseCore_groups _ _ u)),
      launchOf, withoutGroup_groups, Tab.get?_del_ne _ hn, launchOf]

/-- Of the groups that end none is left, and the others stay with their launches. -/
theorem foldl_removeGroup_launchOf (n : Nat) (es : List (Nat × Group)) (s : State) :
    launchOf n (es.foldl (fun s e => removeGroup e.1 s) s) = if ∃ e ∈ es, e.1 = n then none else launchOf n s := by
  by_cases hn : ∃ e ∈ es, e.1 = n
  · rw [if_pos hn, launchOf, foldl_removeGroup_get? es s hn, Option.map_none]
  · rw [if_neg hn]
    induction es generalizing s with
    | nil => rfl
    | cons e es ih =>
      rw [List.foldl_cons, ih _ (fun ⟨x, hx, hk⟩ => hn ⟨x, List.mem_cons_of_mem _ hx, hk⟩),
        removeGroup_launchOf (fun hk => hn ⟨e, List.mem_cons_self, hk.symm⟩)]

/-! ### The kill's registers, and what it has taken from its launch -/

/-- The registers of the kill, and of a launch what a kill sets. -/
def killView (n : Nat) (s : State) : Bool × Word × Option (Option Nat × List Gate × List ReplayTask) :=
  (s.killBusy, s.killLaunch, (Tab.get? s.launches n).map (fun l => (l.fail, l.gates, l.replays)))

theorem killView_of_settled {n : Nat} {s t : State} (h : settled t = settled s) : killView n t = killView n s :=
  show killView n (settled t) = killView n (settled s) by rw [h]

theorem modLaunch_killView (n m : Nat) (s : State) {f : Launch → Launch} (hf : ∀ l, ((f l).fail, (f l).gates, (f l).replays) = (l.fail, l.gates, l.replays)) :
    killView n (s.modLaunch m f) = killView n s := by
  unfold killView
  rw [State.modLaunch_launches]
  by_cases h : n = m
  · rw [h, Tab.get?_modify_self, Option.map_map]
    exact congrArg (fun x => (s.killBusy, s.killLaunch, Option.map x (Tab.get? s.launches m))) (funext hf)
  · rw [Tab.get?_modify_ne _ _ h]; rfl

theorem discardDeferred_killView (n team : Nat) (s : State) : killView n (discardDeferred team s) = killView n s := by
  refine (killView_of_settled (wakeInner_settled _)).trans (foldl_keeps (killView n) _ (fun u e => ?_) _ s)
  split <;> rfl

theorem abortTx_killView (n team : Nat) (s : State) : killView n (abortTx team s) = killView n s := by
  unfold abortTx
  split
  · rfl
  · exact (discardDeferred_killView n team _).trans (foldl_keeps (killView n) (fun (s : State) (h : Shadow) => h.restore s) (fun _ _ => rfl) _ s)

theorem releaseCore_killView (n launch core : Nat) (s : State) : killView n (releaseCore launch core s) = killView n s := by
  unfold releaseCore clearLent
  split
  · rfl
  · dsimp only
    split <;> rfl

theorem endTeam_killView (n team : Nat) (froze : Bool) (s : State) : killView n (endTeam team froze s) = killView n s := by
  have hd : killView n (if froze then abortTx team s else keepDigest team (abortTx team s)) = killView n s := by
    split
    · exact abortTx_killView n team s
    · exact (modLaunch_killView n _ _ (by intro l; rfl)).trans (abortTx_killView n team s)
  refine Eq.trans ?_ hd
  unfold endTeam
  dsimp only
  rw [releaseCore_killView]
  split
  · rw [releaseCore_killView]; rfl
  · rfl

theorem withoutGroup_killView (n gid : Nat) (g : Group) (s : State) : killView n (withoutGroup gid g s) = killView n s := by
  have hleave : killView n (leaveRegisters g s) = killView n s := by unfold leaveRegisters; split <;> rfl
  have hblocks : ∀ u, killView n (withdrawBlocks g u) = killView n u := fun u => by
    refine foldl_keeps (killView n) _ (fun u e => ?_) _ u
    split
    · exact killView_of_settled (foldl_freeWatch_settled g.launch _ u)
    · rfl
  have hfe : ∀ u, killView n (withdrawFe gid u) = killView n u := fun u => by
    refine foldl_keeps (killView n) _ (fun u e => ?_) _ u
    split
    · split
      · split
        · show killView n (freeWatch _ _ u) = _
          exact killView_of_settled (freeWatch_settled _ _ u)
        · rfl
      · rfl
    · rfl
  exact (modLaunch_killView n _ _ (by intro l; rfl)).trans ((hfe _).trans ((hblocks _).trans hleave))

theorem removeGroup_killView (n gid : Nat) (s : State) : killView n (removeGroup gid s) = killView n s := by
  cases h : Tab.get? s.groups gid with
  | none => unfold removeGroup; rw [h]
  | some g =>
    rw [removeGroup_of_some h, endWith_keeps (killView n) g (abortTx_killView n _) (endTeam_killView n _ _) (releaseCore_killView n _ _)]
    exact withoutGroup_killView n gid g s

/-! ### KILL (R357) -/

/-- The state in which a kill ends the groups of its launch: no team of it starts any more, and no deferred command is left. -/
def killStarted (v : Word) (s : State) : State :=
  let s1 := ({ s with killLaunch := v, killBusy := true }).modLaunch v.toNat (fun l =>
    { l with fail := some 2, replays := [], gates := [], phase := .running, quietSince := none })
  s1.teams.foldl (fun s e => if e.2.launch = v.toNat then discardDeferred e.1 s else s) s1

theorem kill_of_running {v : Word} {s : State} {l : Launch} (hb : s.killBusy = false) (hl : Tab.get? s.launches v.toNat = some l) (hp : l.phase ≠ .ended) :
    kill v s = ((killStarted v s).groups.filter (fun e => e.2.launch == v.toNat)).foldl (fun s e => removeGroup e.1 s) (killStarted v s) := by
  unfold kill
  simp only [hb, hl, hp, Bool.false_eq_true, if_false]
  rfl

theorem killStarted_killView {v : Word} {s : State} {l : Launch} (hl : Tab.get? s.launches v.toNat = some l) :
    killView v.toNat (killStarted v s) = (true, v, some (some 2, [], [])) := by
  refine (foldl_keeps (killView v.toNat) _ (fun u e => ?_) _ _).trans ?_
  · split
    · exact discardDeferred_killView _ _ u
    · rfl
  · rw [killView, State.modLaunch_launches, Tab.get?_modify_self, hl]; rfl

/-- A kill sets its registers, stops its launch, and leaves no group of it. -/
theorem kill_kills {v : Word} {s : State} {l : Launch} (hb : s.killBusy = false) (hl : Tab.get? s.launches v.toNat = some l) (hp : l.phase ≠ .ended) :
    ∃ t l', exec (.kill v) s = .next t ∧ t.killBusy = true ∧ t.killLaunch = v ∧ Tab.get? t.launches v.toNat = some l' ∧ l'.fail = some 2
      ∧ l'.gates = [] ∧ l'.replays = [] ∧ ∀ n g, Tab.get? t.groups n = some g → g.launch ≠ v.toNat := by
  have hview : killView v.toNat (kill v s) = (true, v, some (some 2, [], [])) := by
    rw [kill_of_running hb hl hp]
    exact (foldl_keeps (killView v.toNat) _ (fun u (e : Nat × Group) => removeGroup_killView _ e.1 u) _ _).trans (killStarted_killView hl)
  simp only [killView, Prod.mk.injEq, Option.map_eq_some_iff] at hview
  obtain ⟨hbusy, hlaunch, l', hl', hfail, hgates, hreplays⟩ := hview
  refine ⟨kill v s, l', rfl, hbusy, hlaunch, hl', hfail, hgates, hreplays, fun n g hg hc => ?_⟩
  have hleft := foldl_removeGroup_launchOf n ((killStarted v s).groups.filter (fun e => e.2.launch == v.toNat)) (killStarted v s)
  rw [← kill_of_running hb hl hp, launchOf, hg, Option.map_some] at hleft
  split at hleft
  · cases hleft
  · next hnone =>
    obtain ⟨g0, hg0, h0⟩ := Option.map_eq_some_iff.1 hleft.symm
    exact hnone ⟨(n, g0), List.mem_filter.2 ⟨Tab.mem_of_get? hg0, by simp [h0, hc]⟩, rfl⟩

/-- A number that names no launch in progress is refused. -/
theorem kill_refuses {v : Word} {s : State} (hb : s.killBusy = false) (h : ∀ l, Tab.get? s.launches v.toNat = some l → l.phase = .ended) :
    ∃ t, exec (.kill v) s = .next t ∧ t.killBad = true ∧ t.killBusy = false := by
  have hk : kill v s = { s with killLaunch := v, killBad := true } := by
    unfold kill
    rw [if_neg (by simp [hb])]
    cases hl : Tab.get? s.launches v.toNat with
    | none => simp only [hl]
    | some l => simp only [hl, h l hl, if_true]
  exact ⟨kill v s, rfl, by rw [hk], by rw [hk]; exact hb⟩

end Sys2Proof.Machine
end

section
/-! PROOF. The registers of queues, carters, pages, quotas and the assay table, each written by its own step (spec/12 R247, R263, spec/16 R330, spec/18 R333,
spec/22 R377, R378, R382). -/

namespace Sys2Proof.Machine

open Says

/-! ### Device queues (R333, R378) -/

theorem State.queue_modQueue (s : State) (q : Nat) (f : Queue → Queue) : (s.modQueue q f).queue q = f (s.queue q) := Tab.getD_put_self _ _ _ _

theorem exec_queueTailWrite {q : Nat} (hq : q < 64) (tail : Half) (s : State) : exec (.queueTailWrite q tail) s = .next
    (if (s.queue q).devpost = true ∨ 2 ^ (s.queue q).log2n < (tail - (s.queue q).head).toNat then s
     else s.modQueue q (fun d => { d with tail := tail })) := by
  show execQueueTailWrite q tail s = _
  rw [execQueueTailWrite, if_pos hq, writeTail]

theorem exec_queueEnable {q : Nat} (hq : q < 64) (v : DWord) (s : State) : exec (.queueEnable q v) s = .next (writeQueueFlags q v s) := by
  show execQueueEnable q v s = _
  rw [execQueueEnable, if_pos hq]

/-- The flags that a write leaves in a queue that is not enabled. -/
def flagged (v : DWord) (s : State) (d : Queue) : Queue :=
  { d with
    log2n := bitsAt v 0 4, prio := bitsAt v 4 2, devpost := v.getLsbD 7, hflush := v.getLsbD 8
    en := v.getLsbD 6 && (decide (4 ≤ bitsAt v 0 4) && decide (bitsAt v 0 4 ≤ 12) && d.base.toNat % (32 * 2 ^ bitsAt v 0 4) == 0
      && decide (d.base.toNat < 2 ^ 39) && ctxSound s d.ctx.toNat) }

theorem writeQueueFlags_of_closed {q : Nat} (v : DWord) {s : State} (hen : (s.queue q).en = false) :
    writeQueueFlags q v s = s.modQueue q (flagged v s) := by
  rw [writeQueueFlags, if_neg (by simp [hen])]
  rfl

/-- The flags of a queue that is enabled stay; those of one that is not are set, EN where the descriptor and its context are sound. -/
theorem queueEnable_sets {q : Nat} (v : DWord) (s : State) (hq : q < 64) :
    ((s.queue q).en = true → exec (.queueEnable q v) s = .next s)
      ∧ ((s.queue q).en = false → ∃ t d, exec (.queueEnable q v) s = .next t ∧ t.queue q = d ∧ d.log2n = bitsAt v 0 4 ∧ d.prio = bitsAt v 4 2
        ∧ d.devpost = v.getLsbD 7 ∧ d.hflush = v.getLsbD 8 ∧ d.base = (s.queue q).base ∧ d.ctx = (s.queue q).ctx
        ∧ (d.en = true ↔ v.getLsbD 6 = true ∧ 4 ≤ bitsAt v 0 4 ∧ bitsAt v 0 4 ≤ 12 ∧ (s.queue q).base.toNat % (32 * 2 ^ bitsAt v 0 4) = 0
          ∧ (s.queue q).base.toNat < 2 ^ 39 ∧ ctxSound s (s.queue q).ctx.toNat = true)) := by
  refine ⟨fun hen => by rw [exec_queueEnable hq, writeQueueFlags, if_pos hen], fun hen => ?_⟩
  refine ⟨s.modQueue q (flagged v s), flagged v s (s.queue q), by rw [exec_queueEnable hq, writeQueueFlags_of_closed v hen],
    State.queue_modQueue _ _ _, rfl, rfl, rfl, rfl, rfl, rfl, ?_⟩
  simp only [flagged, Bool.and_eq_true, decide_eq_true_eq, beq_iff_eq, and_assoc]

/-! ### CARTREL and RESDONE (R188, R377, R382) -/

/-- The command of a frozen carter is outstanding no more. -/
theorem cartrel_releases {v : Word} {n : Nat} {s : State} {c : Cmd} {u : Team} (hv : v.toNat < 32) (hf : (s.carter v.toNat).frozen = true)
    (hn : (s.carter v.toNat).cmd = some n) (hc : Tab.get? s.cmds n = some c) (hu : Tab.get? s.teams c.team = some u) :
    ∃ t u', exec (.cartrel v) s = .next t ∧ Tab.get? t.cmds n = none ∧ Tab.get? t.teams c.team = some u'
      ∧ u'.finished.head? = some { ticket := c.ticket, state := 3, poison := c.poison, clamp := c.clamp } ∧ t.mem = s.mem := by
  have hrel : writeCartrel v s = ({ s with cmds := Tab.del s.cmds n, carters := s.carters.filter (fun k => k.2.cmd != some n) }).modTeam c.team
      (fun t => t.finish { ticket := c.ticket, state := 3, poison := c.poison, clamp := c.clamp }) := by
    simp only [writeCartrel, hv, hf, hn, releaseCmd, hc, and_self, if_true]
  refine ⟨writeCartrel v s, u.finish { ticket := c.ticket, state := 3, poison := c.poison, clamp := c.clamp }, rfl, ?_⟩
  rw [hrel]
  refine ⟨Tab.get?_del_self _ _, ?_, rfl, rfl⟩
  rw [State.modTeam_teams, Tab.get?_modify_self, hu]
  rfl

/-- A number that names no launch in residency is ignored. -/
theorem resdone_ignored {v : Word} {s : State} (h : ∀ l, Tab.get? s.launches v.toNat = some l → l.phase ≠ .residency) : exec (.resdone v) s = .next s := by
  refine congrArg Host.Outcome.next (show resdone writeCompletionUnit v.toNat s = s from ?_)
  unfold resdone
  cases hl : Tab.get? s.launches v.toNat with
  | none => rfl
  | some l => exact if_neg (h l hl)

theorem resdone_leases {v : Word} {s : State} {l : Launch} (hl : Tab.get? s.launches v.toNat = some l) (hp : l.phase = .residency) :
    exec (.resdone v) s = .next (lease writeCompletionUnit { ctx := l.ctx, ring := l.ring, hflush := l.hflush, qprio := 3, parent := none, cluster := l.cluster, card := l.cardVa, bucket := false } v.toNat l s) := by
  show execResdone v s = _
  simp only [execResdone, redoWalk, resdone, hl, hp, if_true]

/-! ### Pages to free (R263) -/

theorem State.die_modDie (s : State) (d k : Nat) (f : Die → Die) : (s.modDie d f).die k = if k = d then f (s.die d) else s.die k := by
  unfold State.die
  rw [State.modDie_dies]
  by_cases h : k = d
  · rw [if_pos h, h]; exact Tab.getD_put_self _ _ _ _
  · rw [if_neg h]; exact Tab.getD_put_ne _ _ _ h

theorem State.die_of_dies {s t : State} (h : t.dies = s.dies) (k : Nat) : t.die k = s.die k := by rw [State.die, h, State.die]

theorem freepg_begins {die : Nat} (v : DWord) {s : State} (hp : pageAnswers s die = true) (hb : (s.die die).freeBusy = false) :
    let pa := bitsAt v 0 48
    let sound := pa % (if v.getLsbD 63 then 0x200000 else 0x10000) = 0 ∧ aperture pa = 0 ∧ s.populated pa = true ∧ homeDie pa = die
    ∃ t, exec (.freepg die v) s = .next t ∧ t.mem = s.mem ∧ (sound → (t.die die).freeBusy = true ∧ (t.die die).freeBad = (s.die die).freeBad)
      ∧ (¬ sound → (t.die die).freeBusy = false ∧ (t.die die).freeBad = true) := by
  intro pa sound
  have hbad : (pa % (if v.getLsbD 63 then 0x200000 else 0x10000) != 0 || aperture pa != 0 || !s.populated pa || homeDie pa != die) = !decide sound := by
    rw [Bool.eq_iff_iff]
    simp only [sound, Bool.or_eq_true, bne_iff_ne, Bool.not_eq_true', decide_eq_false_iff_not, not_and_or, or_assoc, Bool.not_eq_true]
  refine ⟨s.modDie die (fun x => { x with freepg := v &&& 0x8000_FFFF_FFFF_FFFF#64, freeBad := x.freeBad || !decide sound, freeBusy := !(!decide sound) }),
    ?_, rfl, fun hs => ?_, fun hs => ?_⟩
  · show execFreepg die v s = _
    rw [execFreepg, if_pos hp, writeFreepg, if_neg (by simp [hb])]
    dsimp only
    rw [hbad]
  · rw [State.die_modDie, if_pos rfl]; simp [hs]
  · rw [State.die_modDie, if_pos rfl]; simp [hs]

/-- The replica of a page on a die is dropped. -/
def dropReplica (pa : Nat) (s : State) (k : Nat) : State := s.modDie k (fun x => { x with replicas := Tab.del x.replicas pa })
/-- Its replicas are dropped on every die. -/
def dropReplicas (pa : Nat) (s : State) : State := [0, 1, 2, 3].foldl (dropReplica pa) s

theorem dropReplicas_mem (pa : Nat) (s : State) : (dropReplicas pa s).mem = s.mem :=
  foldl_keeps State.mem (dropReplica pa) (fun _ _ => rfl) _ s
theorem dropReplicas_reqs (pa : Nat) (s : State) : (dropReplicas pa s).reqs = s.reqs :=
  foldl_keeps State.reqs (dropReplica pa) (fun _ _ => rfl) _ s
theorem dropReplicas_groups (pa : Nat) (s : State) : (dropReplicas pa s).groups = s.groups :=
  foldl_keeps State.groups (dropReplica pa) (fun _ _ => rfl) _ s

theorem dropReplicas_die (pa : Nat) (s : State) (k : Nat) :
    (dropReplicas pa s).die k = if k < 4 then { s.die k with replicas := Tab.del (s.die k).replicas pa } else s.die k := by
  simp only [dropReplicas, dropReplica, List.foldl_cons, List.foldl_nil, State.die_modDie]
  by_cases hk : k < 4
  · rw [if_pos hk]; interval_cases k <;> simp
  · rw [if_neg hk, if_neg (by omega), if_neg (by omega), if_neg (by omega), if_neg (by omega)]

theorem dropReplicas_tailPa (pa : Nat) (s : State) (base : Nat) : (dropReplicas pa s).tailPa base = s.tailPa base := by
  rw [State.tailPa, dropReplicas_die, State.tailPa]
  split <;> rfl

/-- A page that is freed: its replicas are dropped, its tail word holds the new generation alone, and the die's registers say so. -/
def pageFreed (die pa : Nat) (gen : Word) (s : State) : State :=
  (wake ((dropReplicas pa s).tailPa pa) ((dropReplicas pa s).write ((dropReplicas pa s).tailPa pa) 8 (gen.toNat * 2 ^ 32))).modDie die
    (fun x => { x with freeBusy := false, freeDone := true, freeGen := gen })

theorem exec_freePageDone {die : Nat} {s : State} (hb : (s.die die).freeBusy = true)
    (hl : pageLeased s (bitsAt (s.die die).freepg 0 48) (if (s.die die).freepg.getLsbD 63 then 0x200000 else 0x10000) = false) :
    exec (.freePageDone die) s = .next (pageFreed die (bitsAt (s.die die).freepg 0 48)
      (BitVec.ofNat 32 (s.read (s.tailPa (bitsAt (s.die die).freepg 0 48)) 8 / 2 ^ 32) + 1#32) s) := by
  show execFreePageDone die s = _
  simp only [execFreePageDone, hb, hl, Bool.not_true, Bool.or_self, Bool.false_eq_true, if_false]
  rfl

section
variable {die pa : Nat} {gen : Word} {s : State} (hn : NoWaiters s)
include hn

/-- Where nothing waits, only the write of the tail word stands between the drop of the replicas and the die's registers. -/
theorem pageFreed_eq : ∃ u : State, pageFreed die pa gen s = u.modDie die (fun x => { x with freeBusy := false, freeDone := true, freeGen := gen })
    ∧ u.mem = ((dropReplicas pa s).write (s.tailPa pa) 8 (gen.toNat * 2 ^ 32)).mem ∧ ∀ k, u.die k = (dropReplicas pa s).die k := by
  have hnone : NoWaiters ((dropReplicas pa s).write (s.tailPa pa) 8 (gen.toNat * 2 ^ 32)) :=
    noWaiters_poke (noWaiters_congr (dropReplicas_reqs pa s) (dropReplicas_groups pa s) hn) _ _
  have hdies : ((dropReplicas pa s).write (s.tailPa pa) 8 (gen.toNat * 2 ^ 32)).dies = (dropReplicas pa s).dies := by rw [State.write_eq]
  rw [pageFreed, dropReplicas_tailPa, wake_of_noWaiters hnone, clearWatch_eq]
  generalize (dropReplicas pa s).write (s.tailPa pa) 8 (gen.toNat * 2 ^ 32) = w at hdies ⊢
  exact ⟨_, rfl, rfl, State.die_of_dies (t := { w with watched := _ }) hdies⟩

/-- The registers of the dies after a page has been freed. -/
theorem pageFreed_die (k : Nat) : (pageFreed die pa gen s).die k
    = if k = die then { (dropReplicas pa s).die die with freeBusy := false, freeDone := true, freeGen := gen } else (dropReplicas pa s).die k := by
  obtain ⟨u, h, -, hdie⟩ := pageFreed_eq (die := die) (pa := pa) (gen := gen) hn
  rw [h, State.die_modDie, hdie, hdie]

/-- Memory after a page has been freed: its tail word is written. -/
theorem pageFreed_mem : (pageFreed die pa gen s).mem = ((dropReplicas pa s).write (s.tailPa pa) 8 (gen.toNat * 2 ^ 32)).mem := by
  obtain ⟨u, h, hmem, -⟩ := pageFreed_eq (die := die) (pa := pa) (gen := gen) hn
  rw [h, State.modDie_mem, hmem]

theorem pageFreed_tailPa (base : Nat) : (pageFreed die pa gen s).tailPa base = s.tailPa base := by
  rw [← dropReplicas_tailPa pa s base, State.tailPa, pageFreed_die hn, State.tailPa]
  split
  · next hk => rw [hk]
  · rfl

theorem pageFreed_byte {a : Nat} (ha : a < s.tailPa pa ∨ s.tailPa pa + 8 ≤ a) : (pageFreed die pa gen s).byte a = s.byte a := by
  have hpoke := State.byte_poke (dropReplicas pa s) (s.tailPa pa) (leBytes 8 (gen.toNat * 2 ^ 32)) a
  rw [if_neg (by rw [leBytes_length]; omega)] at hpoke
  rw [State.byte, pageFreed_mem hn, State.write, ← State.byte, hpoke, State.byte, dropReplicas_mem, State.byte]

theorem pageFreed_read : (pageFreed die pa gen s).read (s.tailPa pa) 8 = gen.toNat * 2 ^ 32 := by
  have h : (pageFreed die pa gen s).read (s.tailPa pa) 8 = ((dropReplicas pa s).write (s.tailPa pa) 8 (gen.toNat * 2 ^ 32)).read (s.tailPa pa) 8 := by
    simp only [State.read, State.bytes, State.byte, pageFreed_mem hn]
  have hlt := gen.isLt
  rw [h, State.read_write_self, Nat.mod_eq_of_lt (by omega)]

end

/-- A page that no lease holds is freed. -/
theorem freePageDone_frees {die : Nat} {s : State} (hb : (s.die die).freeBusy = true) :
    let pa := bitsAt (s.die die).freepg 0 48
    pageLeased s pa (if (s.die die).freepg.getLsbD 63 then 0x200000 else 0x10000) = false → NoWaiters s →
      ∃ t, exec (.freePageDone die) s = .next t ∧ t.tail pa = 0 ∧ t.sealed pa = false ∧ (t.die die).freeBusy = false ∧ (t.die die).freeDone = true
        ∧ (t.die die).freeGen = BitVec.ofNat 32 (s.read (s.tailPa pa) 8 / 2 ^ 32) + 1#32
        ∧ t.read (s.tailPa pa) 8 / 2 ^ 32 = (t.die die).freeGen.toNat
        ∧ (∀ k, k < 4 → Tab.get? (t.die k).replicas pa = none)
        ∧ (∀ a, a < s.tailPa pa ∨ s.tailPa pa + 8 ≤ a → t.byte a = s.byte a) := by
  intro pa hl hn
  have hexec : exec (.freePageDone die) s = .next (pageFreed die pa (BitVec.ofNat 32 (s.read (s.tailPa pa) 8 / 2 ^ 32) + 1#32) s) := exec_freePageDone hb hl
  clear_value pa
  generalize BitVec.ofNat 32 (s.read (s.tailPa pa) 8 / 2 ^ 32) + 1#32 = gen at hexec ⊢
  have hdie := pageFreed_die (die := die) (pa := pa) (gen := gen) hn die
  rw [if_pos rfl] at hdie
  refine ⟨_, hexec, ?_, ?_, by rw [hdie], by rw [hdie], by rw [hdie], ?_, fun k hk => ?_, fun a => pageFreed_byte hn⟩
  · rw [State.tail, pageFreed_tailPa hn, pageFreed_read hn]; omega
  · rw [State.sealed, pageFreed_tailPa hn, pageFreed_read hn, Nat.testBit_mul_two_pow]; rfl
  · rw [pageFreed_read hn, hdie]
    exact Nat.mul_div_cancel _ (by decide)
  · have hdrop : Tab.get? ((dropReplicas pa s).die k).replicas pa = none := by rw [dropReplicas_die, if_pos hk]; exact Tab.get?_del_self _ _
    rw [pageFreed_die hn]
    split
    · next hd => rw [← hd]; exact hdrop
    · exact hdrop

/-! ### Quotas and the assay table (R247, R330) -/

theorem exec_l2quota {die : Nat} (v : Word) {s : State} (hp : pageAnswers s die = true) : exec (.l2quota die v) s = .next
    (if bitsAt v 0 5 + bitsAt v 8 5 + bitsAt v 16 5 + bitsAt v 24 5 ≤ 16 then s.modDie die (fun x => { x with l2quota := v &&& 0x1F1F1F1F#32 }) else s) := by
  show execL2quota die v s = _
  rw [execL2quota, if_pos hp, writeL2quota]

end Sys2Proof.Machine
end

section
/-! PROOF. Writes of the device registers (spec/10 R227, R228, spec/12 R247, R250, R260, R263, spec/16 R330, spec/18 R333, R357, spec/20 R366, spec/22 R377
to R390). -/

namespace Sys2Proof.Machine

/-- Settles O51, one lemma for each register. -/
theorem deviceRegisters : Obligations.DeviceRegisters := by
  refine ⟨fun who d off v s u hwho hd hs => registerWrite_dieRegister hwho hd hs,
    fun who core off v f s hwho hc hs => registerWrite_windowRegister hwho hc hs,
    fun who core slot v s hwho hc hslot hs => registerWrite_gctl v hwho hc hslot hs,
    fun pa v s ha hlo => registerWrite_smithy v s ha hlo,
    fun q tail s hq => exec_queueTailWrite hq tail s, fun q v s => queueEnable_sets v s,
    fun v s => ⟨fun hb => ?_, kill_refuses, fun l => kill_kills⟩, fun v n s c u => cartrel_releases, fun v s => resdone_ignored,
    fun v s l => resdone_leases, fun die v s => freepg_begins v, fun die s => freePageDone_frees, fun die v s => exec_l2quota v, fun v s => rfl, fun s => rfl⟩
  exact congrArg Host.Outcome.next (show kill v s = s from if_pos hb)

end Sys2Proof.Machine
end
